-- ==== Sys2Proof/Word.lean ====
section
/-! DEFINITION. The word types of the Speone S16 model: the widths the manual gives its bytes, registers and register pairs. -/

namespace Sys2Proof

/-- One byte of memory or of a register (R6). -/
abbrev Byte := BitVec 8

/-- A 16-bit status code or function index. -/
abbrev W16 := BitVec 16

/-- A 32-bit register (R452). -/
abbrev W32 := BitVec 32

/-- A 64-bit register pair or address (R455). -/
abbrev W64 := BitVec 64

/-- 64 bytes of Serai key material or of a tenant record (R209). -/
abbrev W512 := BitVec 512

/-- One bit as a number. -/
abbrev bit (b : Bool) : Nat := b.toNat

end Sys2Proof
end

