-- ==== Sys2Proof/Syntax.lean ====
section
/-! DEFINITION. The commands of the Speone S16 block: one constructor for each row of spec/opcode_table.json, in the table's
order, with the operands the manual gives that operation or event. -/

namespace Sys2Proof

/-- The two control ports (R359): the slave port of the host and the sideband port. -/
inductive CtlPort where
  | host
  | sideband
  deriving DecidableEq, Repr

/-- The access sizes a control port carries (R452): spn_s_size 0 to 3. -/
inductive AccSize where
  | b1
  | b2
  | b4
  | b8
  deriving DecidableEq, Repr

/-- Which part of a register pair an access covers (R455, R456). -/
inductive PairHalf where
  | low
  | high
  | both
  deriving DecidableEq, Repr

/-- The health tests of Table 11.1. -/
inductive HealthTest where
  | repetition
  | proportion
  | startup
  deriving DecidableEq, Repr

/-- The arrays of R444, in the order of the STORAGE_ERR record (Table 18.6). -/
inductive StorageArray where
  | routeStore
  | reorderStore
  | ringContext
  | translationCache
  | readReturnBuffer
  | porterBuffer
  | maskStore
  | logicParity
  deriving DecidableEq, Repr

/-- What the compare port of a yoke finds for an instruction (R171, R172): every copy equal, the copies of item `row` of
Table 6.6 different before that item takes effect, or the sequencer progress different after the instruction. On a lane that
is not yoked nothing is compared. -/
inductive Compare where
  | same
  | item (row : Fin 8)
  | progress
  deriving DecidableEq, Repr

/-- One command of the block. -/
inductive Instr where
  /-- BLOCK_RESET (R383). -/
  | blockReset
  /-- PLL_LOCK (R21). -/
  | pllLock
  /-- PLL_LOCK_LOST (R21). -/
  | pllLockLost
  /-- FUSE_SENSE (R382, R405). -/
  | fuseSense
  /-- SELF_CHECK_DONE (R383; `us` is the length of Self-check, `certsOk` says that the unit keys and certificates could be made). -/
  | selfCheckDone (us : W32) (certsOk : Bool)
  /-- IC_RESET_ASSERT (R376). -/
  | icResetAssert
  /-- IC_RESET_RELEASE (R376). -/
  | icResetRelease
  /-- AON_RESET (R425). -/
  | aonReset
  /-- FREEZE (R368). -/
  | freeze
  /-- LINK_LOST (R367). -/
  | linkLost
  /-- LINK_RETURNED (R367). -/
  | linkReturned
  /-- FUNCTION_LEVEL_RESET (R364). -/
  | functionLevelReset (func : W16)
  /-- INVALIDATION_REQUEST (R363; `range` is the address and size in ATS range encoding). -/
  | invalidationRequest (itag : BitVec 5) (func : W16) (pv : Bool) (pasid : BitVec 20) (global : Bool) (range : W64)
  /-- INVALIDATION_DONE (R363). -/
  | invalidationDone (itag : BitVec 5)
  /-- TRANSLATION_COMPLETION (R362). -/
  | translationCompletion (tag : BitVec 6) (status : BitVec 2) (r w : Bool) (logSize : BitVec 6) (addr : W64)
  /-- READ_RESPONSE (R352). -/
  | readResponse (port : Fin 4) (tag : Byte) (beat : BitVec 3) (last : Bool) (status : BitVec 2) (data : BitVec 1024)
  /-- WRITE_ACKNOWLEDGEMENT (R352). -/
  | writeAcknowledgement (port : Fin 4) (tag : Byte) (status : BitVec 2)
  /-- CREDIT_GRANT (R353). -/
  | creditGrant (port : Fin 4) (writeData : Bool)
  /-- INTERRUPT_TAKEN (R360). -/
  | interruptTaken
  /-- ADAPTER_EVENT_INPUT (R361). -/
  | adapterEventInput (line : Fin 256)
  /-- PPS_EDGE (R331). -/
  | ppsEdge (tod : BitVec 48) (todValid : Bool)
  /-- THERMAL_ALARM (R438). -/
  | thermalAlarm
  /-- THERMAL_ALARM_FALL (R438). -/
  | thermalAlarmFall
  /-- THERMAL_THROTTLE_CLEAR (R438). -/
  | thermalThrottleClear
  /-- ZEROIZE (R422). -/
  | zeroize
  /-- TAMPER_INPUT (R421). -/
  | tamperInput (input : Fin 4)
  /-- POWER_ACK (R439). -/
  | powerAck (domain : Fin 3)
  /-- IC_CLOCK_STOPPED (R373). -/
  | icClockStopped
  /-- DOORBELL (R39). -/
  | doorbell (p : CtlPort) (ring : Fin 4096)
  /-- SCAN_START (R39). -/
  | scanStart (ring : Fin 4096)
  /-- SCAN_RESUME (R40). -/
  | scanResume (ring : Fin 4096)
  /-- SLOT_AVAILABLE (R128). -/
  | slotAvailable (ring : Fin 4096)
  /-- RING_START (R32). -/
  | ringStart (p : CtlPort) (ring : Fin 4096)
  /-- RING_STOP (R53). -/
  | ringStop (p : CtlPort) (ring : Fin 4096)
  /-- RING_RESET (R54). -/
  | ringReset (p : CtlPort) (ring : Fin 4096)
  /-- RING_RESET_COMPLETE (R54). -/
  | ringResetComplete (ring : Fin 4096)
  /-- ROUTE_VALIDATE (R69). -/
  | routeValidate (p : CtlPort) (route : BitVec 10) (rlen : BitVec 6)
  /-- VALIDATE_COMPLETE (R69). -/
  | validateComplete
  /-- ROUTE_INVALIDATE (R69). -/
  | routeInvalidate (p : CtlPort) (route : BitVec 10)
  /-- ROUTE_SLOT_WRITE (R68). -/
  | routeSlotWrite (p : CtlPort) (route : BitVec 10) (slot : BitVec 5) (insn : W64)
  /-- QUARANTINE_SET (R15). -/
  | quarantineSet (p : CtlPort) (unit : Fin 32)
  /-- QUARANTINE_RELEASE (R174). -/
  | quarantineRelease (p : CtlPort) (unit : Fin 32)
  /-- ENABLE_WRITE (R16). -/
  | enableWrite (p : CtlPort) (unit : Fin 32) (enable : Bool)
  /-- LATMAX_CLEAR (R150). -/
  | latmaxClear (p : CtlPort)
  /-- MASKAGE_CLEAR (R229). -/
  | maskageClear (p : CtlPort)
  /-- EST_MAX_CLEAR (R447). -/
  | estMaxClear (p : CtlPort)
  /-- CHARTER_GO (R203). -/
  | charterGo (p : CtlPort)
  /-- CHARTER_DONE (R203). -/
  | charterDone
  /-- FLUSH_ENTRY (R225). -/
  | flushEntry (p : CtlPort) (tenant : BitVec 12)
  /-- FLUSH_TENANT (R224). -/
  | flushTenant (p : CtlPort) (tenant : BitVec 12)
  /-- FLUSH_STALE (R224). -/
  | flushStale (p : CtlPort) (tenant : BitVec 12)
  /-- FLUSH_ALL (R224). -/
  | flushAll (p : CtlPort)
  /-- FLUSH_WALK_DONE (R225). -/
  | flushWalkDone
  /-- PROBE_SELECT (R229). -/
  | probeSelect (p : CtlPort) (slot : BitVec 15)
  /-- MUL (R250). -/
  | dmul (p : CtlPort) (bench : Fin 8) (nlen elen : BitVec 9)
  /-- MOD (R250). -/
  | dmod (p : CtlPort) (bench : Fin 8) (nlen elen : BitVec 9)
  /-- MODADD (R250). -/
  | modadd (p : CtlPort) (bench : Fin 8) (nlen elen : BitVec 9)
  /-- MODSUB (R250). -/
  | modsub (p : CtlPort) (bench : Fin 8) (nlen elen : BitVec 9)
  /-- MODMUL (R250). -/
  | modmul (p : CtlPort) (bench : Fin 8) (nlen elen : BitVec 9)
  /-- MODEXP (R250). -/
  | modexp (p : CtlPort) (bench : Fin 8) (nlen elen : BitVec 9)
  /-- MODINV (R250). -/
  | modinv (p : CtlPort) (bench : Fin 8) (nlen elen : BitVec 9)
  /-- ABORT (R248). -/
  | abort (p : CtlPort) (bench : Fin 8)
  /-- DIRECT_OP_DONE (R250). -/
  | directOpDone (bench : Fin 8)
  /-- DIRECT_SELECT (R249; `cfg` is the value written to CH_ROW_CFG). -/
  | directSelect (p : CtlPort) (cfg : W32)
  /-- OPERAND_MEMORY_WRITE (R232). -/
  | operandMemoryWrite (p : CtlPort) (bench : Fin 8) (offset : W16) (size : AccSize) (data : W64)
  /-- SCALES_ABORT (R270). -/
  | scalesAbort (p : CtlPort) (ctx : Fin 4)
  /-- CONTEXT_RETEST (R273). -/
  | contextRetest (p : CtlPort) (ctx : Fin 4)
  /-- RETEST (R281). -/
  | retest (p : CtlPort)
  /-- WELL_STARTUP_DONE (R281; `pass` bit n: noise source n passed its start-up test). -/
  | wellStartupDone (pass : BitVec 4) (katPass : Bool)
  /-- CAPTURE (R285). -/
  | capture (p : CtlPort) (source : BitVec 2)
  /-- CAPTURE_DONE (R285). -/
  | captureDone
  /-- ARM (R295). -/
  | arm (p : CtlPort) (ctx : Fin 8)
  /-- FINISH (R292). -/
  | finish (p : CtlPort) (ctx : Fin 8)
  /-- CANCEL (R295). -/
  | cancel (p : CtlPort) (ctx : Fin 8)
  /-- TOLLGATE_FINISH_DONE (R293). -/
  | tollgateFinishDone (ctx : Fin 8)
  /-- RESUME (R309). -/
  | resume (p : CtlPort)
  /-- FIRE (R316). -/
  | fire (p : CtlPort) (sink : Fin 512) (n : W16)
  /-- CLEAR (R319). -/
  | clear (p : CtlPort) (sink : Fin 512)
  /-- TIMER_START (R320). -/
  | timerStart (p : CtlPort) (timer : Fin 32)
  /-- TIMER_STOP (R320). -/
  | timerStop (p : CtlPort) (timer : Fin 32)
  /-- SEC_STAGE (R327, R456). -/
  | secStage (p : CtlPort) (half : PairHalf) (data : W64)
  /-- NSEC_WRITE (R327). -/
  | nsecWrite (p : CtlPort) (data : W32)
  /-- NSEC_READ (R326, R453): a read that begins at the given byte of AL_NSEC. -/
  | nsecRead (p : CtlPort) (byte : Fin 4) (size : AccSize)
  /-- LEDGER_DATA_READ (R346, R453): a read that begins at byte 0 of LG_DATA0. -/
  | ledgerDataRead (p : CtlPort) (size : AccSize)
  /-- INVALIDATE_ALL (R380). -/
  | invalidateAll (p : CtlPort)
  /-- INVALIDATE_FUNC (R380). -/
  | invalidateFunc (p : CtlPort) (func : W16)
  /-- SERVICE (R386). -/
  | service (p : CtlPort)
  /-- PROVISION (R387). -/
  | provision (p : CtlPort)
  /-- DRAIN_COMPLETE (R387). -/
  | drainComplete
  /-- DRAIN_TIMEOUT (R387). -/
  | drainTimeout
  /-- RECOVER (R393; the fields of MD_CMD). -/
  | recover (p : CtlPort) (scope string : BitVec 2) (flush rlclr target : Bool)
  /-- RECOVERY_STEP (R394). -/
  | recoveryStep
  /-- AUTO_STRING_RECOVERY (R392). -/
  | autoStringRecovery (string : Fin 4)
  /-- RESET (R390). -/
  | reset (p : CtlPort)
  /-- REINS_CLAIM (R388). -/
  | reinsClaim (p : CtlPort) (nonce : W32)
  /-- REINS_RELEASE (R388). -/
  | reinsRelease (p : CtlPort) (nonce : W32)
  /-- PROGRAM (R409). -/
  | program (p : CtlPort) (word : BitVec 9) (acc : Bool)
  /-- GENROOT (R408). -/
  | genroot (p : CtlPort)
  /-- LOCK_SECRET (R408). -/
  | lockSecret (p : CtlPort)
  /-- OWNERHASH (R408). -/
  | ownerhash (p : CtlPort) (acc : Bool)
  /-- LOCK_OWNER (R408). -/
  | lockOwner (p : CtlPort)
  /-- RETIRE (R408). -/
  | retire (p : CtlPort)
  /-- FUSE_COMMAND_DONE (R409; `stuck` lists, for each word programmed in turn, the bits that did not blow). -/
  | fuseCommandDone (stuck : List W32)
  /-- PUBLISH (R414). -/
  | publish (p : CtlPort)
  /-- PUBLISH_DONE (R414). -/
  | publishDone
  /-- ATTEST (R416). -/
  | attest (p : CtlPort) (unit : BitVec 5)
  /-- ATTEST_DONE (R415). -/
  | attestDone
  /-- LOGCLEAR (R430). -/
  | logclear (p : CtlPort)
  /-- UNGATE (R441). -/
  | ungate (p : CtlPort) (domain : BitVec 2)
  /-- GATE (R441). -/
  | gate (p : CtlPort) (domain : BitVec 2)
  /-- REGISTER_WRITE (R458). -/
  | registerWrite (p : CtlPort) (offset : BitVec 24) (size : AccSize) (data : W64)
  /-- EPOCH_END (R431). -/
  | epochEnd
  /-- TIMER_FIRE (R320). -/
  | timerFire (timer : Fin 32)
  /-- ALARM_FIRE (R334). -/
  | alarmFire (alarm : Fin 16)
  /-- SECOND_ROLLOVER (R324). -/
  | secondRollover
  /-- ALMANAC_SNAPSHOT (R333). -/
  | almanacSnapshot
  /-- HOLDOVER (R332). -/
  | holdover
  /-- HOLDOVER_EXPIRY (R332). -/
  | holdoverExpiry
  /-- HEARTBEAT (R335). -/
  | heartbeat
  /-- COMPLETION_TIMEOUT (R357). -/
  | completionTimeout (port : Fin 4) (write : Bool) (tag : Byte)
  /-- TAG_QUARANTINE_END (R357). -/
  | tagQuarantineEnd (port : Fin 4) (write : Bool) (tag : Byte)
  /-- LEASE_EXPIRY (R244). -/
  | leaseExpiry (bench : Fin 8) (cell : Fin 32)
  /-- REMASK_GROUP (R222). -/
  | remaskGroup
  /-- MASK_AGED (R223). -/
  | maskAged (group : Fin 512)
  /-- LAGGARD (R142). -/
  | laggard (lane : Fin 16)
  /-- SEQUENCER_WATCHDOG (R175). -/
  | sequencerWatchdog (lane : Fin 16)
  /-- FATAL_LANE_FAULT (R175; `row` is the row of Table 6.8, from 1). -/
  | fatalLaneFault (lane : Fin 16) (row : Fin 8)
  /-- UNCORRECTABLE_ERROR (R444). -/
  | uncorrectableError (array : StorageArray) (index unit : Nat)
  /-- SLOT_UNCORRECTABLE (R227). -/
  | slotUncorrectable (slot : BitVec 15)
  /-- BENCH_FAULT (R253). -/
  | benchFault (bench : Fin 8) (parity : Bool)
  /-- SCALES_FAULT (R273). -/
  | scalesFault (ctx : Fin 4) (parity : Bool)
  /-- HEALTH_TEST_FAIL (R277). -/
  | healthTestFail (source : Fin 4) (test : HealthTest)
  /-- RESEED (R279). -/
  | reseed
  /-- WELL_GRANT (R282). -/
  | wellGrant
  /-- DRAIN_START (R441). -/
  | drainStart (domain : Fin 3)
  /-- DRAIN_CANCELLED (R442). -/
  | drainCancelled (domain : Fin 3)
  /-- DOMAIN_GATED (R442). -/
  | domainGated (domain : Fin 3)
  /-- TRAIN_WAKE (R441). -/
  | trainWake (train : Fin 2)
  /-- POWER_SWITCH_FAULT (R440). -/
  | powerSwitchFault (domain : Fin 3) (gating : Bool)
  /-- LANE_KAT_DONE (R160). -/
  | laneKatDone (lane : Fin 16) (pass : Bool)
  /-- BENCH_KAT_DONE (R252). -/
  | benchKatDone (bench : Fin 8) (pass : Bool)
  /-- CONTEXT_KAT_DONE (R273). -/
  | contextKatDone (ctx : Fin 4) (pass : Bool)
  /-- HOLDOFF_EXPIRY (R50). -/
  | holdoffExpiry (ring : Fin 4096)
  /-- LTR_IDLE (R365). -/
  | ltrIdle
  /-- SHARE_WINDOW_END (R133). -/
  | shareWindowEnd
  /-- ADMISSION (R129). -/
  | admission
  /-- COURIER_PLACEMENT (R132). -/
  | courierPlacement
  /-- PLACEMENT (R134). -/
  | placement
  /-- PREEMPTION_SAVE (R157). -/
  | preemptionSave (lane : Fin 16)
  /-- RESUMPTION (R135). -/
  | resumption (lane : Fin 16)
  /-- PREPARATION (R154). -/
  | preparation (lane : Fin 16) (cmp : Compare)
  /-- SETUP (R154). -/
  | setup (lane : Fin 16)
  /-- JOB_START (R80). -/
  | jobStart (lane : Fin 16)
  /-- KEY (R98). -/
  | key (lane : Fin 16) (cmp : Compare)
  /-- PUT (R197). -/
  | put (lane : Fin 16) (cmp : Compare)
  /-- MINT_FILL (R214). -/
  | mintFill (fill : Nat)
  /-- DERIVE (R99). -/
  | derive (lane : Fin 16) (cmp : Compare)
  /-- STREAM_LOAD (R164). -/
  | streamLoad (lane : Fin 16) (cmp : Compare)
  /-- STREAM_SAVE (R167). -/
  | streamSave (lane : Fin 16) (cmp : Compare)
  /-- STREAM_UPDATE (R165). -/
  | streamUpdate (lane : Fin 16) (cmp : Compare)
  /-- SEAL (R101). -/
  | seal (lane : Fin 16) (cmp : Compare)
  /-- OPEN (R101). -/
  | openI (lane : Fin 16) (cmp : Compare)
  /-- CIPHER (R103). -/
  | cipher (lane : Fin 16) (cmp : Compare)
  /-- XFORM (R104). -/
  | xform (lane : Fin 16) (cmp : Compare)
  /-- MAC (R105). -/
  | mac (lane : Fin 16) (cmp : Compare)
  /-- HASH (R106). -/
  | hash (lane : Fin 16) (cmp : Compare)
  /-- CMP (R107). -/
  | cmp (lane : Fin 16) (cmp : Compare)
  /-- PKOP (R108). -/
  | pkop (lane : Fin 16) (cmp : Compare)
  /-- BENCH_OP_DONE (R242). -/
  | benchOpDone (bench : Fin 8)
  /-- LATOP (R111). -/
  | latop (lane : Fin 16) (cmp : Compare)
  /-- SCALES_OP_DONE (R264). -/
  | scalesOpDone (ctx : Fin 4)
  /-- RAND (R115). -/
  | rand (lane : Fin 16) (cmp : Compare)
  /-- MOVE (R116). -/
  | move (lane : Fin 16) (cmp : Compare)
  /-- LOADS (R116). -/
  | loads (lane : Fin 16) (cmp : Compare)
  /-- STORES (R116). -/
  | stores (lane : Fin 16) (cmp : Compare)
  /-- BRANCH (R75). -/
  | branch (lane : Fin 16) (cmp : Compare)
  /-- FENCE (R117). -/
  | fence (lane : Fin 16) (cmp : Compare)
  /-- EVENT (R118). -/
  | event (lane : Fin 16) (cmp : Compare)
  /-- END (R76). -/
  | endI (lane : Fin 16) (cmp : Compare)
  /-- JOB_END (R82). -/
  | jobEnd (lane : Fin 16) (cmp : Compare)
  /-- STATUS_WRITE (R45). -/
  | statusWrite (job : Nat)
  /-- LEDGER_RECORD (R339). -/
  | ledgerRecord
  /-- LEDGER_SWAP (R341). -/
  | ledgerSwap
  /-- SINK_COUNT (R316). -/
  | sinkCount
  /-- SINK_ACTION (R317). -/
  | sinkAction (sink : Fin 512)
  /-- PORTER_COMPLETE (R307). -/
  | porterComplete (chan : Fin 32)
  /-- FREEZE_OFF (R378). -/
  | freezeOff
  /-- IC_CLOCK_RETURN (R373). -/
  | icClockReturn
  deriving DecidableEq, Repr

end Sys2Proof
end

