-- ==== Sys2Proof/Config.lean ====
section
/-! DEFINITION. What the manual leaves to named standards, to the Well or to the implementation: constants without a body, so that
no proof can rest on a value of theirs (R5, R211, R276–R285). The log entries name each. -/

namespace Sys2Proof

/-- The standard functions that the manual names and does not define (Table 0.2). A constructor's fields select the variant. -/
inductive StdFn where
  /-- AES or SM4 on one block, by key type and direction -/
  | block (ktype : Nat) (decrypt : Bool)
  /-- The ChaCha20 block function: key, counter, nonce -/
  | chacha
  /-- A data unit of XTS-AES: data key, tweak key, tweak, data -/
  | xts (ktype : Nat) (decrypt : Bool)
  /-- The product of two blocks in the field of GHASH -/
  | gmul
  /-- The MAC of CCM before its encryption: key, nonce, AAD, payload and the tag's length -/
  | ccmMac (ktype : Nat)
  /-- MAC: ALG and key type -/
  | mac (alg ktype : Nat)
  /-- HASH: ALG of Table 4.4 -/
  | hash (alg : Nat)
  /-- The chaining value of a message split across jobs after a part (R97, R161) -/
  | part (alg : Nat)
  /-- SLH-DSA functions of R125: ALG and SET -/
  | slh (alg set : Nat)
  /-- HKDF of Table 4.5, and the PRF of its counter-mode KDFs -/
  | kdf (kdf : Nat)
  | prf (kdf : Nat)
  /-- HKDF and KMAC256 of Tables 7.1 and 7.2 -/
  | hkdf (label : String)
  | kmac256 (label : String)
  /-- AES-256-GCM-SIV (R189, R190, R204) -/
  | gcmSiv (decrypt : Bool)
  | gcmSivTag
  /-- PKOP: FN and PARAM (Table 4.7) -/
  | pkop (fn param : Nat)
  /-- LATOP: FN and SET (Table 4.8) -/
  | latop (fn set : Nat)
  /-- The public key of a unit or install key -/
  | ecPub
  | mlDsaPub
  | mlKemPub
  /-- The DER encoding of an X.509 v3 certificate (R412, RFC 5280): of the fields that are signed, and of those with the signature -/
  | certTbs
  | certificate
  /-- A digest without padding over whole blocks (R291) -/
  | rawDigest (alg : Nat)
  /-- SECDED check bits of fuse data words (R403) -/
  | fuseEcc
  /-- The DRBG of R279 on its state: 0 instantiates it from entropy input, nonce and personalisation string, 1 is the output of a Generate
  call, 2 the state after that call, 3 the state after a reseed with entropy input -/
  | drbg (step : Nat)
  deriving DecidableEq, Repr

/-- Byte `i` of a standard function's output for its inputs: what the standard says (R5, R109, R258).
DESIGN CHOICE: a free value, log entry 5. -/
opaque Config.std : StdFn → List (List Byte) → Nat → Byte

/-- The yes or no answer of a standard's check: a signature verifies, a tag or an encoding is valid (R109, R200, R240, R262).
DESIGN CHOICE: a free value, log entries 5 and 53. -/
opaque Config.stdOk : StdFn → List (List Byte) → Bool

/-- A number that a standard function gives: the length of a certificate, the attempts of a signature (R265, R413).
DESIGN CHOICE: a free value, log entry 5. -/
opaque Config.stdNat : StdFn → List (List Byte) → Nat

/-- Byte `n` of the values that nothing fixes: the Well's entropy input and captured raw bits (R279, R285), and bytes the manual leaves
undefined. DESIGN CHOICE: a free value, log entry 4. -/
opaque Config.noise : Nat → Byte

/-- Raw bit `n` of a noise source (R276).
DESIGN CHOICE: a free value, log entry 4. -/
opaque Config.rawBit : Nat → Bool

/-- The errors that strike the arrays in a control cycle, by free value: bits 0 to 15 a corrected one in the buffers of lanes 0 to 15, 16
route store, 17 reorder store, 18 ring context, 19 translation cache, 20 read return buffer, 21 Serai, 22 Counting House, 23 Scales, 24
Well, 25 Porter, 26 a word of the drain bank of the Ledger, and uncorrectable ones: 27 in a word of the Well's buffer, 28 in a word of the
Ledger's drain bank, 29 in one of its fill bank, and 32 to 47 a corrected one in the save slots of lanes 0 to 15 (R286, R344, R444, R447).
DESIGN CHOICE: a free value, log entry 47. -/
opaque Config.arrayErrors : Nat → BitVec 48

/-- The function h of R211: key, kind, tenant and index to a 32-bit number.
DESIGN CHOICE: a free value, log entry 6. -/
opaque Config.setHash : BitVec 128 → Nat → Nat → Nat → Nat

/-- The set of the translation cache in which a page lies, of 2,048 (R362).
DESIGN CHOICE: a free value, log entry 6. -/
opaque Config.atcSet : Nat → Nat → Nat → Nat

/-- The lane-cycle and public-key-cycle time of an engine operation when the manual gives no formula for it.
DESIGN CHOICE: a free value, log entry 7. -/
opaque Config.engineTime : StdFn → List (List Byte) → Nat

/-- Interconnect cycles in an epoch, by epoch number: the adapter's clock is asynchronous (Table 1.9, R431).
DESIGN CHOICE: a free value, log entry 7. -/
opaque Config.icCycles : Nat → Nat

/-- The public-key cycle of the epoch in which the run of an engine under the duty E starts, benches 0 to 7 and then contexts 8 to 11
(R435 staggers the lanes and gives the engines no numbers).
DESIGN CHOICE: a free value, log entry 7. -/
opaque Config.engineStart : Nat → Nat

/-- An always-on clock tick falls in a control cycle (Table 1.9: 32.768 kHz, asynchronous).
DESIGN CHOICE: a free value, log entry 7. -/
opaque Config.aonTick : Nat → Bool

/-- The copies that a yoke compares when a fill gives a KEY its slot differ (R171). DESIGN CHOICE: a free value, log entry 24. -/
opaque Config.copiesDiffer : Nat → Bool

/-- The code a LEASE_WOFF record gives a cause in its four CAUSE bits (Table 14.6 names the field and no codes).
DESIGN CHOICE: a free value, log entry 8. -/
opaque Config.leaseCause : Nat → Nat

/-- The generator's known-answer test after reseed number `n` passes (R280).
DESIGN CHOICE: a free value, log entry 8. -/
opaque Config.wellKat : Nat → Bool

/-- The nanoseconds that a PPS edge lies in the past when the Almanac times it are 4 to 8, by accepted edge (R331: ±2 ns about 6).
DESIGN CHOICE: a free value, log entry 7. -/
opaque Config.ppsError : Nat → Nat

/-- A correction of AL_FREQ that is no whole number of its units is rounded up, by accepted edge (R331 states no rounding).
DESIGN CHOICE: a free value, log entry 7. -/
opaque Config.freqUp : Nat → Bool

/-- The port bit of the record of a finish request that a sink count made: no port made it (R292, Table 14.6).
DESIGN CHOICE: a free value, log entry 8. -/
opaque Config.sinkPort : Bool

/-- The level of spn_link_lp in a control cycle (Table 15.1): no row of the table drives it.
DESIGN CHOICE: a free value, log entry 13. -/
opaque Config.linkLp : Nat → Bool

/-- The core rail was absent when an always-on event arrived while the block was held in reset (R423): no row of the table drives the rail.
DESIGN CHOICE: a free value, log entry 13. -/
opaque Config.railAbsent : Nat → Bool

/-- The levels that have fallen when a control cycle begins: bits 0 to 3 tamper inputs, 4 spn_zeroize. No row of the table lowers them.
DESIGN CHOICE: a free value, log entry 14. -/
opaque Config.lineFalls : Nat → BitVec 5

/-- The core domain's copy of the always-on registers is refreshed in a control cycle (R429: within 153 µs of a change).
DESIGN CHOICE: a free value, log entry 14. -/
opaque Config.aonRefresh : Nat → Bool

/-- What stands in a Ford when one side of it is reset, as items and as the credits that they hold (R374).
DESIGN CHOICE: a free value, log entry 19. -/
opaque Config.fordItems : Nat → W32

/-- `n` bytes of a standard function's output. -/
def stdBytes (f : StdFn) (args : List (List Byte)) (n : Nat) : List Byte :=
  (List.range n).map (Config.std f args)

/-- `n` free bytes, from free value `k` on. -/
def noiseBytes (k n : Nat) : List Byte :=
  (List.range n).map (fun i => Config.noise (k + i))

@[simp] theorem stdBytes_length (f : StdFn) (args : List (List Byte)) (n : Nat) : (stdBytes f args n).length = n := by
  simp [stdBytes]

@[simp] theorem noiseBytes_length (k n : Nat) : (noiseBytes k n).length = n := by
  simp [noiseBytes]

end Sys2Proof
end

