-- ==== Sys2Proof/Machine/Status.lean ====
section
/-! DEFINITION. The status codes, the operating modes and the other small enumerations that several parts share. -/

namespace Sys2Proof.Machine

/-- The status codes: one table serves the waybill STATUS field, the Ledger and the unit windows (R10). -/
inductive Status where
  | done
  | tagMismatch
  | compareFalse
  | baleInvalid
  | baleForeign
  | baleExpired
  | baleRevoked
  | keyConflict
  | keyUsage
  | encoding
  | manifestFault
  | routeEmpty
  | contextTamper
  | contextPoisoned
  | fabricError
  | hostLost
  | translationFault
  | contained
  | yokeMismatch
  | laneFault
  | storageFault
  | pkAborted
  | staleLease
  | flushed
  | notReins
  | accessFault
  | fuseNotBlank
  | fuseDisagree
  | fuseVerify
  | entropyFail
  deriving DecidableEq, Repr

/-- The 16-bit code of a status. -/
def Status.code : Status → W16
  | .done => 0x0000#16
  | .tagMismatch => 0x0101#16
  | .compareFalse => 0x0102#16
  | .baleInvalid => 0x0201#16
  | .baleForeign => 0x0202#16
  | .baleExpired => 0x0203#16
  | .baleRevoked => 0x0204#16
  | .keyConflict => 0x0205#16
  | .keyUsage => 0x0206#16
  | .encoding => 0x0301#16
  | .manifestFault => 0x0302#16
  | .routeEmpty => 0x0303#16
  | .contextTamper => 0x0401#16
  | .contextPoisoned => 0x0402#16
  | .fabricError => 0x0501#16
  | .hostLost => 0x0502#16
  | .translationFault => 0x0503#16
  | .contained => 0x0504#16
  | .yokeMismatch => 0x0601#16
  | .laneFault => 0x0602#16
  | .storageFault => 0x0603#16
  | .pkAborted => 0x0701#16
  | .staleLease => 0x0702#16
  | .flushed => 0x0801#16
  | .notReins => 0x0901#16
  | .accessFault => 0x0902#16
  | .fuseNotBlank => 0x0A01#16
  | .fuseDisagree => 0x0A02#16
  | .fuseVerify => 0x0A03#16
  | .entropyFail => 0x0B01#16

/-- The soft statuses (R63): every other status but DONE is hard. -/
def Status.soft : Status → Bool
  | .tagMismatch => true
  | .compareFalse => true
  | _ => false

/-- Endings that UW_FAULTS does not count (R18). -/
def Status.mild (st : Status) : Bool :=
  st = .done || st.soft

/-- What the Mode controller is in (R382): reset, the seven modes, and what Cold holds before the PLL locks. -/
inductive Mode where
  | inReset
  | cold
  | selfCheck
  | provision
  | service
  | containment
  | recovery
  | cleared
  deriving DecidableEq, Repr

/-- The state of a ring (Table 2.2). -/
inductive RingState where
  | disabled
  | running
  | stopping
  | stopped
  | resetting
  | frozen
  | faulted
  deriving DecidableEq, Repr

/-- WS_STATE.STATE (Table 2.2). -/
def RingState.code : RingState → Nat
  | .disabled => 0
  | .running => 1
  | .stopping => 2
  | .stopped => 3
  | .resetting => 4
  | .frozen => 5
  | .faulted => 6

/-- The four job classes (R126), in the order of the CLASS field. -/
inductive JobClass where
  | courier
  | post
  | freight
  | ballast
  deriving DecidableEq, Repr

/-- The CLASS code. -/
def JobClass.code : JobClass → Nat
  | .courier => 0
  | .post => 1
  | .freight => 2
  | .ballast => 3

end Sys2Proof.Machine
end

