-- ==== Sys2Proof/Machine/Table.lean ====
section
/-! DEFINITION. A sparse table: the machine's large arrays (4,096 rings, 32,768 slots, 512 fuse words, operand memories) as
canonical lists of key and value, in which an entry equal to what an unlisted key holds is never listed. -/

namespace Sys2Proof.Machine

/-- Keys rise strictly and no value equals the default: see `twf`. -/
abbrev Table (α : Type) := List (Nat × α)

/-- The value at `k`; `d` where nothing is listed. -/
def tget {α : Type} (d : α) : Table α → Nat → α
  | [], _ => d
  | (k', v) :: t, k => if k' = k then v else tget d t k

/-- The table without key `k`. -/
def terase {α : Type} : Table α → Nat → Table α
  | [], _ => []
  | (k', v) :: t, k => if k' = k then terase t k else (k', v) :: terase t k

/-- The table with `v` listed at `k`, in key order. -/
def tinsert {α : Type} : Table α → Nat → α → Table α
  | [], k, v => [(k, v)]
  | (k', v') :: t, k, v =>
    if k < k' then (k, v) :: (k', v') :: t
    else if k' = k then (k, v) :: t
    else (k', v') :: tinsert t k v

/-- Write `v` at `k`: writing the default removes the entry, so equal arrays are equal data. -/
def tset {α : Type} [DecidableEq α] (d : α) (t : Table α) (k : Nat) (v : α) : Table α :=
  if v = d then terase t k else tinsert t k v

/-- Change the value at `k` by `f`. -/
def tmod {α : Type} [DecidableEq α] (d : α) (t : Table α) (k : Nat) (f : α → α) : Table α :=
  tset d t k (f (tget d t k))

/-- Every key of the list is above `k`. -/
def tabove {α : Type} (k : Nat) : Table α → Bool
  | [] => true
  | (k', _) :: _ => decide (k < k')

/-- The canonical form: keys strictly rising, no entry equal to the default. -/
def twf {α : Type} [DecidableEq α] (d : α) : Table α → Bool
  | [] => true
  | (k, v) :: t => decide (v ≠ d) && tabove k t && twf d t

/-- Write the values of a list at consecutive keys. -/
def tfill {α : Type} [DecidableEq α] (d : α) (t : Table α) (k : Nat) : List α → Table α
  | [] => t
  | v :: vs => tfill d (tset d t k v) (k + 1) vs

/-- Read `n` consecutive values. -/
def tread {α : Type} (d : α) (t : Table α) (k n : Nat) : List α :=
  (List.range n).map (fun i => tget d t (k + i))

/-- Change every listed value (the default must be a fixed point of `f`). -/
def tmapv {α : Type} [DecidableEq α] (d : α) (f : Nat → α → α) (t : Table α) : Table α :=
  t.foldr (fun kv acc => tset d acc kv.1 (f kv.1 kv.2)) []

/-- The keys whose listed value satisfies `p`, rising. -/
def tkeys {α : Type} (p : Nat → α → Bool) (t : Table α) : List Nat :=
  (t.filter (fun kv => p kv.1 kv.2)).map Prod.fst

end Sys2Proof.Machine
end

