-- ==== Sys2Proof/Machine/StateControl.lean ====
section
/-! DEFINITION. The state of the Mode controller, the Fuse controller, Safe-conduct, the Watchman with its always-on domain, Ration
and the input pins ("Modes, reins and recovery", "Safe-conduct identity, fuses and the Watchman", "Ration power governor"). -/

namespace Sys2Proof.Machine

/-- The scope of a Containment or a Recovery (Table 16.4). -/
inductive Scope where
  | block
  | string
  | host
  deriving DecidableEq, Repr

/-- The SCOPE code. -/
def Scope.code : Scope → Nat
  | .block => 0
  | .string => 1
  | .host => 2

/-- The Recovery in progress (R393, R394). -/
structure Recov where
  scope : Scope := .block
  string : BitVec 2 := 0
  flush : Bool := false
  rlclr : Bool := false
  /-- TARGET: `true` is Provision -/
  target : Bool := false
  automatic : Bool := false
  /-- The step in progress, 1 to 9 -/
  step : Nat := 1
  /-- Outstanding counts at the step's start, by resource (fabric per port, reorder slots, Serai leases, bench leases, ...) -/
  atStart : List Nat := []
  /-- Jobs completed and flushed, rings published and faulted (RECOVERY_END) -/
  completed : Nat := 0
  flushed : Nat := 0
  published : List Nat := []
  faultedRings : List Nat := []
  /-- The rings of the scope -/
  rings : List Nat := []
  /-- Abandoned at the end of the current step: by a freeze or by a drain timeout (R397) -/
  abandonFreeze : Bool := false
  abandonDrain : Bool := false
  /-- spn_linklost is high at the start or has risen since: host rings stay FROZEN (R397) -/
  lost : Bool := false
  /-- Serai leases outstanding for the jobs in scope at the start -/
  leases : Nat := 0
  /-- Step 2 waits for credits since this control cycle: every request of the scope has its response or is written off -/
  creditsFrom : Option Nat := none
  deriving DecidableEq, Repr

/-- The Mode controller and the reins (Table 16.10). -/
structure ModeRec where
  mode : Mode := .inReset
  /-- The PLL is locked (R21) -/
  pllLocked : Bool := false
  stopping : Bool := false
  recov : Option Recov := none
  recScope : Scope := .block
  consErr : Bool := false
  cmdResult : W16 := 0
  /-- The control cycle of the last rise of spn_freeze (Table 16.6) -/
  freezeAt : Option Nat := none
  /-- 0 none, 1 host port, 2 sideband port -/
  holder : BitVec 2 := 0
  nonce : W32 := 0
  drainUs : W16 := 1000
  autoStr : Bool := false
  /-- MD_CONTAINED.STRINGS and HOST -/
  strings : BitVec 4 := 0
  hostContained : Bool := false
  /-- The touched rings of each contained string (Table 16.4): string and ring -/
  touched : List (Nat × Nat) := []
  recDone : BitVec 4 := 0
  scFault : BitVec 4 := 0
  scTime : W32 := 0
  irqMode : Bool := false
  irqCont : Bool := false
  transitions : W32 := 0
  recoveries : W32 := 0
  refused : W32 := 0
  deriving DecidableEq, Repr

/-- A fuse command in progress (R408, R409): the operation, WORD, ACC and the words still to be programmed with their data. -/
structure FuseJob where
  op : Nat
  word : Nat
  acc : Bool
  plan : List (Nat × W32)
  deriving DecidableEq, Repr

/-- The Fuse controller (Tables 17.1, 17.13). -/
structure FuseRec where
  /-- The fuse array itself, with the words that Haldevo programs before delivery (Table 17.1): not changed by any reset -/
  array : Table W32 := [(80, 0x5316), (81, 0x201)]
  /-- The sensed values of the public words (R404) -/
  sensed : Table W32 := []
  life : BitVec 3 := 0
  disagree : Bool := false
  fault : Bool := false
  rsOk : BitVec 3 := 0
  isOk : BitVec 3 := 0
  ownerV : Bool := false
  /-- RS and IS as decoded under the two-of-three rule (R405) -/
  rs : BitVec 256 := 0
  is : BitVec 256 := 0
  cmd : Option FuseJob := none
  cmdResult : W16 := 0
  pdata : W32 := 0
  ownData : BitVec 384 := 0
  blown : W32 := 0
  deriving DecidableEq, Repr

/-- A Safe-conduct command in progress. -/
inductive SafeCmd where
  | publish
  | attest (unit : Nat)
  deriving DecidableEq, Repr

/-- Where a Safe-conduct command stands. -/
inductive SafeStage where
  | idle
  /-- the signatures are being made -/
  | signing
  /-- the store or the report is being written -/
  | writing
  /-- the command is over with a status -/
  | over (st : Status)
  deriving DecidableEq, Repr

/-- Safe-conduct (Table 17.13) and the certificate store (R413). -/
structure SafeRec where
  held : Bool := false
  published : Bool := false
  cmd : Option SafeCmd := none
  cmdResult : W16 := 0
  storeAddr : W64 := 0
  attAddr : W64 := 0
  attNonce : BitVec 256 := 0
  reports : W32 := 0
  store : Table Byte := []
  /-- Where the command stands, and the number of its run: what remains of an earlier one finds it changed -/
  stage : SafeStage := .idle
  run : Nat := 0
  /-- The body of the report that is being signed (R415) -/
  body : List Byte := []
  /-- The signatures made so far: 2·unit, and one more for ML-DSA-65 -/
  sigs : Table (List Byte) := []
  deriving DecidableEq, Repr

/-- The Strongbox (Table 17.7): each field beside its stored complement; bytes 98–255 are zero. -/
structure Strongbox where
  os : BitVec 256 := 0
  osN : BitVec 256 := 0
  ver : W64 := 0
  verN : W64 := 0
  seq : W64 := 0
  seqN : W64 := 0
  flags : Byte := 0
  flagsN : Byte := 0
  deriving DecidableEq, Repr

/-- The always-on registers that the core domain reads (Table 17.12). -/
structure AonRegs where
  act : BitVec 4 := 15
  lock : Bool := false
  counter : BitVec 48 := 0
  log : Table W64 := []
  logSec : Table W32 := []
  logNext : Nat := 0
  logValid : Nat := 0
  logLost : Nat := 0
  deriving DecidableEq, Repr

/-- The Watchman and the always-on domain (Table 17.13). -/
structure WatchRec where
  box : Strongbox := {}
  act : BitVec 4 := 15
  lock : Bool := false
  counter : BitVec 48 := 0
  log : Table W64 := []
  logSec : Table W32 := []
  logNext : Nat := 0
  logValid : Nat := 0
  logLost : Nat := 0
  /-- The core domain's copy of the always-on registers, and the control cycle since which it differs from them (R429) -/
  shown : AonRegs := {}
  changed : Option Nat := none
  /-- Entries written since the last copy into AON_LOG records (R424) -/
  logNew : Nat := 0
  /-- WT_STATUS.TAMPER: inputs asserted now -/
  tamper : BitVec 4 := 0
  /-- The control cycle of the last tamper input that zeroized (Table 17.9) -/
  zeroAt : Option Nat := none
  cleared : Bool := false
  irqEn : Bool := false
  events : W32 := 0
  cmdResult : W16 := 0
  deriving DecidableEq, Repr

/-- The always-on registers as they are. -/
def WatchRec.aon (w : WatchRec) : AonRegs :=
  { act := w.act, lock := w.lock, counter := w.counter, log := w.log, logSec := w.logSec, logNext := w.logNext, logValid := w.logValid
    logLost := w.logLost }

/-- A power domain's phase (R439 to R442). -/
inductive PwrPhase where
  | gated
  | powered
  /-- drain steps 1 and 2 -/
  | draining
  /-- the request has fallen; the acknowledgement has not (step 5) -/
  | gating
  /-- the request is up; the acknowledgement is not -/
  | waking
  /-- the known-answer tests run -/
  | testing
  deriving DecidableEq, Repr

/-- RA_STATUS.T0, T1, ROW. -/
def PwrPhase.code : PwrPhase → Nat
  | .gated => 0
  | .powered => 1
  | .draining => 2
  | .gating => 0
  | .waking => 3
  | .testing => 3

/-- One power domain: T0, T1 or the bench row. -/
structure DomRec where
  phase : PwrPhase := .gated
  /-- spn_pwr_req -/
  req : Bool := false
  fault : Bool := false
  /-- A wake condition arose from step 3 onward (R442) -/
  wakeAfter : Bool := false
  deriving DecidableEq, Repr

/-- Ration (Table 18.9). -/
structure RationRec where
  doms : Table DomRec := []
  throttle : Bool := false
  thermal : Bool := false
  floorSet : Bool := false
  budget : BitVec 9 := 320
  /-- The budget of the epoch in progress: a write takes effect at the next one (R433) -/
  budgetNow : BitVec 9 := 320
  auto : BitVec 3 := 0
  idleUs : W16 := 100
  drainUs : W16 := 50
  pwrTo : Byte := 20
  /-- The RA_CMD in progress: `true` for UNGATE, and the domain -/
  cmd : Option (Bool × Nat) := none
  cmdResult : W16 := 0
  est : BitVec 9 := 0
  floor : BitVec 9 := 0
  dutyD : BitVec 7 := 64
  dutyE : BitVec 7 := 64
  /-- Epochs counted, and the epochs that were excess among the last 40,000 (R433) -/
  epoch : Nat := 0
  excessAt : List Nat := []
  irqThr : Bool := false
  irqGate : Bool := false
  irqFault : Bool := false
  throttles : W32 := 0
  gatings : W32 := 0
  estMax : BitVec 9 := 0
  /-- RA_ECC_L0–15: BUF and SAVE -/
  eccLane : Table W32 := []
  eccRoute : W32 := 0
  eccReorder : W32 := 0
  eccRing : W32 := 0
  eccAtc : W32 := 0
  eccRrb : W32 := 0
  ue : W32 := 0
  /-- Activity of the epoch: control cycles each domain was powered, lane cycles run, public-key cycles run by bench and by context, data
  beats on the ports -/
  runOn : Table Nat := []
  runLane : Table Nat := []
  runBench : Table Nat := []
  runCtx : Table Nat := []
  beats : Nat := 0
  /-- Control cycle within the epoch -/
  phase : Nat := 0
  deriving DecidableEq, Repr

/-- The levels of the input pins (Table 15.1). -/
structure Pins where
  linkLost : Bool := false
  linkLp : Bool := false
  freeze : Bool := false
  icRst : Bool := false
  thermal : Bool := false
  zeroize : Bool := false
  pwrAck : BitVec 3 := 0
  deriving DecidableEq, Repr

end Sys2Proof.Machine
end

