-- ==== Sys2Proof/Machine/Bits.lean ====
section
/-! DEFINITION. Bit fields and byte order: how registers and memory structures are cut into fields (R6) and how multi-byte values
lie in bytes (R7). -/

namespace Sys2Proof.Machine

/-- Bits [lo + len − 1 : lo] of a word, as a number. -/
def fld {w : Nat} (x : BitVec w) (lo len : Nat) : Nat := (x.toNat / 2 ^ lo) % 2 ^ len

/-- Bit `n` of a word. -/
def tb {w : Nat} (x : BitVec w) (n : Nat) : Bool := x.toNat.testBit n

/-- A Boolean as a field value at bit `n`. -/
def bitAt (b : Bool) (n : Nat) : Nat := b.toNat * 2 ^ n

/-- ⌈n / d⌉. -/
def ceilDiv (n d : Nat) : Nat := (n + d - 1) / d

/-- The `n` bytes of a number, least significant first (R7). -/
def leBytes : Nat → Nat → List Byte
  | 0, _ => []
  | n + 1, v => BitVec.ofNat 8 v :: leBytes n (v / 256)

/-- The number that bytes spell, least significant first (R7). -/
def ofLe : List Byte → Nat
  | [] => 0
  | b :: bs => b.toNat + 256 * ofLe bs

/-- The number that bytes spell, most significant first. -/
def ofBe (bs : List Byte) : Nat := ofLe bs.reverse

/-- The `n` bytes of a number, most significant first. -/
def beBytes (n v : Nat) : List Byte := (leBytes n v).reverse

/-- `n` zero bytes. -/
def zeros (n : Nat) : List Byte := List.replicate n 0

/-- The first `n` bytes, filled with zero. -/
def padTo (n : Nat) (bs : List Byte) : List Byte := bs.take n ++ zeros (n - bs.length)

/-- Bytewise exclusive or, as long as the first list. -/
def xorBytes : List Byte → List Byte → List Byte
  | [], _ => []
  | a :: as, [] => a :: xorBytes as []
  | a :: as, b :: bs => (a ^^^ b) :: xorBytes as bs

/-- `n` bytes of a list from byte `off`. -/
def slice (bs : List Byte) (off n : Nat) : List Byte := (bs.drop off).take n

/-- A 32-bit register value from a number. -/
def w32 (n : Nat) : W32 := BitVec.ofNat 32 n

/-- A 64-bit register value from a number. -/
def w64 (n : Nat) : W64 := BitVec.ofNat 64 n

/-- Replace the low or the high half of a pair (R456). -/
def setHalf (x : W64) (hi : Bool) (v : W32) : W64 :=
  if hi then v ++ x.setWidth 32 else (x >>> 32).setWidth 32 ++ v

/-- One half of a pair (R456). -/
def getHalf (x : W64) (hi : Bool) : W32 :=
  if hi then (x >>> 32).setWidth 32 else x.setWidth 32

/-- The least of two numbers, in the order used by limits (values above `cap` act as `cap`). -/
def capAt (cap n : Nat) : Nat := if cap < n then cap else n

end Sys2Proof.Machine
end

