-- ==== Sys2Proof/Machine/Operands.lean ====
section
/-! DEFINITION. The waybill machine's instructions as the lane sees them: word 0 of an entry (Table 2.3), the 64-bit instruction
format (R70), operand designators (Table 3.6), the algorithm identifiers (Table 4.4) and every check of Table 3.7 that does not
depend on the job (R78, R88, R89, R95, R96, R99, R100, R104–R111, R125, R165). -/

namespace Sys2Proof.Machine

/-- The opcodes of Table 3.5. -/
inductive WOp where
  | key
  | derive
  | stream
  | sealW
  | openW
  | cipher
  | xform
  | mac
  | hash
  | cmp
  | pkop
  | latop
  | rand
  | move
  | loads
  | stores
  | branch
  | fence
  | event
  | endW
  deriving DecidableEq, Repr

/-- Table 3.5. -/
def wopOf (n : Nat) : Option WOp :=
  match n with
  | 0x01 => some .key
  | 0x02 => some .derive
  | 0x03 => some .stream
  | 0x10 => some .sealW
  | 0x11 => some .openW
  | 0x12 => some .cipher
  | 0x13 => some .xform
  | 0x18 => some .mac
  | 0x19 => some .hash
  | 0x1A => some .cmp
  | 0x20 => some .pkop
  | 0x21 => some .latop
  | 0x28 => some .rand
  | 0x30 => some .move
  | 0x31 => some .loads
  | 0x32 => some .stores
  | 0x38 => some .branch
  | 0x3C => some .fence
  | 0x3D => some .event
  | 0x3F => some .endW
  | _ => none

/-- The byte fields of an instruction (R70). -/
def wOpcode (i : W64) : Nat := fld i 0 8
/-- Operand A. -/
def wA (i : W64) : Nat := fld i 8 8
/-- Operand B. -/
def wB (i : W64) : Nat := fld i 16 8
/-- Operand C. -/
def wC (i : W64) : Nat := fld i 24 8
/-- IMM32. -/
def wImm (i : W64) : Nat := fld i 32 32
/-- Bits [lo + len − 1 : lo] of IMM32. -/
def immF (i : W64) (lo len : Nat) : Nat := fld i (32 + lo) len

/-- A designator of Table 3.6. -/
inductive Desig where
  | none
  | src
  | sat (n : Nat)
  | key (k : Nat)
  | seg (s i : Nat)
  deriving DecidableEq, Repr

/-- Table 3.6: `Option.none` is a reserved encoding. -/
def desigOf (b : Nat) : Option Desig :=
  if b = 0 then some .none
  else if b = 1 then some .src
  else if b < 0x40 then Option.none
  else if b < 0x48 then some (.sat (b - 0x40))
  else if b < 0x80 then Option.none
  else if b < 0x84 then some (.key (b - 0x80))
  else if b < 0xC0 then Option.none
  else if b < 0xF8 then some (.seg ((b - 0xC0) / 8) ((b - 0xC0) % 8))
  else Option.none

/-- The kinds of Table 4.1: —, K, S, G, G(n), src. -/
inductive Kind where
  | dash
  | k
  | s
  | g
  | gn (n : Nat)
  | src
  deriving DecidableEq, Repr

/-- A designator is of a kind. -/
def Desig.isKind (d : Desig) : Kind → Bool
  | .dash => d = .none
  | .k => match d with | .key _ => true | _ => false
  | .s => match d with | .sat _ => true | _ => false
  | .g => match d with | .seg _ _ => true | _ => false
  | .gn n => match d with | .seg s _ => s = n | _ => false
  | .src => d = .src

/-- The operand byte names a designator of one of the kinds. -/
def accepts (b : Nat) (ks : List Kind) : Bool :=
  match desigOf b with
  | some d => ks.any (fun x => d.isKind x)
  | Option.none => false

/-- The kinds of operand A (Table 4.1). -/
def kindsA : WOp → List Kind
  | .key => [.k]
  | .derive => [.k]
  | .stream => [.gn 5]
  | .sealW => [.g, .s, .src]
  | .openW => [.g, .s, .src]
  | .cipher => [.g, .s, .src]
  | .xform => [.s]
  | .mac => [.g, .s, .src]
  | .hash => [.g, .s, .src]
  | .cmp => [.g, .s]
  | .pkop => [.g, .s, .k]
  | .latop => [.g, .s, .k]
  | .rand => [.g, .s, .src]
  | .move => [.g, .src]
  | .loads => [.s]
  | .stores => [.g, .src]
  | .branch => []
  | .fence => [.dash]
  | .event => [.dash]
  | .endW => [.dash]

/-- The kinds of operand B (Table 4.1). -/
def kindsB : WOp → List Kind
  | .key => [.dash, .gn 6]
  | .derive => [.k]
  | .stream => [.dash, .s]
  | .sealW => [.g, .s, .src]
  | .openW => [.g, .s, .src]
  | .cipher => [.g, .s, .src]
  | .xform => [.dash, .s]
  | .mac => [.g, .s, .src]
  | .hash => [.g, .s, .src]
  | .cmp => [.g, .s]
  | .pkop => [.dash, .g, .s]
  | .latop => [.dash, .g, .s]
  | .rand => [.dash]
  | .move => [.g, .src]
  | .loads => [.g, .src]
  | .stores => [.s]
  | .branch => []
  | .fence => [.dash]
  | .event => [.dash]
  | .endW => [.dash]

/-- The kinds of operand C (Table 4.1); LATOP ML-DSA verify takes none (Table 4.8). -/
def kindsC : WOp → List Kind
  | .key => [.dash]
  | .derive => [.dash, .s, .g]
  | .stream => [.dash]
  | .sealW => [.k]
  | .openW => [.k]
  | .cipher => [.k]
  | .xform => [.dash, .s]
  | .mac => [.k]
  | .hash => [.dash, .k]
  | .cmp => [.dash]
  | .pkop => [.dash, .k]
  | .latop => [.dash, .k]
  | .rand => [.dash]
  | .move => [.dash]
  | .loads => [.dash]
  | .stores => [.dash]
  | .branch => []
  | .fence => [.dash]
  | .event => [.dash]
  | .endW => [.dash]

/-- The IMM32 bits that Table 4.1 names; every other bit must be zero (R72, R88). -/
def immMask : WOp → Nat
  | .key => 0xFFFFFFFF
  | .derive => 0x00FFFFFF
  | .stream => 0x00FFFF03
  | .sealW => 0xFFFF7FFF
  | .openW => 0xFFFF7FFF
  | .cipher => 0xFFFF11FF
  | .xform => 0xFFFFFFFF
  | .mac => 0xFFFFFFFF
  | .hash => 0xFFFFFFFF
  | .cmp => 0xFFFF0000
  | .pkop => 0xFFFFFFFF
  | .latop => 0x0000FFFF
  | .rand => 0xFFFF0000
  | .move => 0xFFFF0000
  | .loads => 0x0000FFFF
  | .stores => 0x0000FFFF
  | .branch => 0xFFFFFFFF
  | .fence => 0
  | .event => 0x000001FF
  | .endW => 0

/-- IMM32 sets no bit outside the mask. -/
def immOk (op : WOp) (i : W64) : Bool := Nat.land (wImm i) (immMask op) = wImm i

/-! ### Fields of IMM32 -/

/-- ALG, IMM32[5:0]. -/
def wAlg (i : W64) : Nat := immF i 0 6
/-- PART, IMM32[7:6]. -/
def wPart (i : W64) : Nat := immF i 6 2
/-- LEN, IMM32[31:16] (R89). -/
def wLen (i : W64) : Nat := immF i 16 16
/-- The AEAD tag length, TAG + 1 bytes (R96). -/
def wTagLen (i : W64) : Nat := immF i 8 4 + 1
/-- ISAT of SEAL, OPEN and CIPHER, IMM32[12]. -/
def wIsat (i : W64) : Bool := tb i 44
/-- ASAT, IMM32[13]. -/
def wAsat (i : W64) : Bool := tb i 45
/-- TSAT, IMM32[14]. -/
def wTsat (i : W64) : Bool := tb i 46
/-- DEC of CIPHER, IMM32[8]. -/
def wDec (i : W64) : Bool := tb i 40
/-- TLEN of MAC, IMM32[13:8]. -/
def wTlen (i : W64) : Nat := immF i 8 6
/-- VERIFY of MAC, IMM32[14]. -/
def wVerify (i : W64) : Bool := tb i 46
/-- ISAT of MAC, IMM32[15]. -/
def wMacIsat (i : W64) : Bool := tb i 47
/-- OLEN or SET of HASH, IMM32[15:8]. -/
def wOlen (i : W64) : Nat := immF i 8 8
/-- FN of XFORM, PKOP and LATOP, KDF of DERIVE, IMM32[7:0]. -/
def wFn (i : W64) : Nat := immF i 0 8
/-- PARAM of PKOP, SET of LATOP, KTYPE of DERIVE, OFF of XFORM and STREAM, IMM32[15:8]. -/
def wParam (i : W64) : Nat := immF i 8 8
/-- LEN of XFORM and STREAM, USAGE of DERIVE, IMM32[23:16]. -/
def wField2 (i : W64) : Nat := immF i 16 8
/-- ARG of XFORM, IMM32[31:24]. -/
def wArg (i : W64) : Nat := immF i 24 8
/-- The 8-bit lengths count from 1 to 255, and 0 means 256 (R89). -/
def len8 (n : Nat) : Nat := if n = 0 then 256 else n

/-! ### Algorithm identifiers (Table 4.4) -/

/-- Which opcode an identifier belongs to. -/
inductive AlgFamily where
  | aead
  | cipher
  | mac
  | hash
  | slh
  | absent
  deriving DecidableEq, Repr

/-- The Opcodes column of Table 4.4. -/
def algFamily (a : Nat) : AlgFamily :=
  if 0x01 ≤ a ∧ a ≤ 0x04 then .aead
  else if 0x08 ≤ a ∧ a ≤ 0x0F then .cipher
  else if 0x10 ≤ a ∧ a ≤ 0x1C then .mac
  else if 0x20 ≤ a ∧ a ≤ 0x2A then .hash
  else if 0x30 ≤ a ∧ a ≤ 0x33 then .slh
  else .absent

/-- The PART column of Table 4.4. -/
def algPart (a : Nat) : Bool :=
  a = 0x01 || a = 0x03 || a = 0x04 || a = 0x08 || a = 0x09 || a = 0x0A || a = 0x0C || a = 0x0D || a = 0x0E || a = 0x0F ||
  a = 0x10 || a = 0x11 || a = 0x18 || a = 0x19 || a = 0x1A || a = 0x20 || a = 0x21 || a = 0x22 || a = 0x23 || a = 0x2A

/-- ECB, CBC, SM4-ECB and SM4-CBC: whole 16-byte blocks (R96). -/
def algBlock16 (a : Nat) : Bool := a = 0x08 || a = 0x09 || a = 0x0D || a = 0x0E

/-- CIPHER algorithms that read an IV (R91). -/
def algCipherIv (a : Nat) : Bool := !(a = 0x08 || a = 0x0D)

/-- The full output of a MAC algorithm, in bytes (R96). -/
def macFull (a : Nat) : Nat :=
  match a with
  | 0x10 => 28
  | 0x11 => 32
  | 0x12 => 48
  | 0x13 => 64
  | 0x14 => 28
  | 0x15 => 32
  | 0x16 => 48
  | 0x17 => 64
  | 0x18 => 32
  | 0x19 => 16
  | 0x1A => 16
  | 0x1B => 32
  | 0x1C => 64
  | _ => 0

/-- TLEN of a MAC is one that R96 accepts. -/
def macTlenOk (a t : Nat) : Bool :=
  t = 0 ||
  (if a ≤ 0x18 then 4 ≤ t && t ≤ macFull a
   else if a = 0x19 then 4 ≤ t && t ≤ 16
   else if a = 0x1A then 12 ≤ t && t ≤ 16
   else 1 ≤ t && t ≤ 64)

/-- The bytes a MAC writes or compares (R96). -/
def macLen (a t : Nat) : Nat := if t = 0 then macFull a else t

/-- AEAD tag lengths (R96). -/
def tagLenOk (a n : Nat) : Bool :=
  match a with
  | 0x02 => n = 4 || n = 6 || n = 8 || n = 10 || n = 12 || n = 14 || n = 16
  | 0x03 => n = 16
  | _ => 12 ≤ n && n ≤ 16

/-- IV lengths of the algorithms that read one (R96). -/
def ivLenOk (a n : Nat) : Bool :=
  match a with
  | 0x01 => 1 ≤ n && n ≤ 128
  | 0x04 => 1 ≤ n && n ≤ 128
  | 0x1A => 1 ≤ n && n ≤ 128
  | 0x02 => 7 ≤ n && n ≤ 13
  | 0x03 => n = 12
  | _ => n = 16

/-- The digest length of a fixed-length hash (Table 4.4). -/
def hashLen (a : Nat) : Nat :=
  match a with
  | 0x20 => 28
  | 0x21 => 32
  | 0x22 => 48
  | 0x23 => 64
  | 0x24 => 28
  | 0x25 => 32
  | 0x26 => 48
  | 0x27 => 64
  | 0x2A => 32
  | _ => 0

/-- SHAKE128 and SHAKE256. -/
def algShake (a : Nat) : Bool := a = 0x28 || a = 0x29

/-! ### Job-start checks of each opcode -/

/-- Checks on the length field of SEAL, OPEN, CIPHER, MAC and HASH (R89, R97): the source stream has no length of its own, a
satchel holds its own, and a first or middle part is a multiple of 128 bytes. -/
def lenOk (i : W64) : Bool :=
  match desigOf (wB i) with
  | some .src => wLen i ≠ 0
  | some (.sat _) => wLen i = 0
  | some (.seg _ _) => wLen i = 0 || !(wPart i = 1 || wPart i = 2) || wLen i % 128 = 0
  | _ => true

/-- B names a segment stream. -/
def bIsSeg (i : W64) : Bool :=
  match desigOf (wB i) with
  | some (.seg _ _) => true
  | _ => false

/-- PART is 0 or the algorithm allows it (R95). -/
def partOk (i : W64) : Bool := wPart i = 0 || algPart (wAlg i)

/-- SEAL and OPEN (R91, R95, R96). -/
def aeadOk (i : W64) : Bool :=
  algFamily (wAlg i) = .aead && partOk i && tagLenOk (wAlg i) (wTagLen i) && lenOk i &&
  (bIsSeg i || (wIsat i && wAsat i && wTsat i))

/-- CIPHER (R91, R95, R96). -/
def cipherOk (i : W64) : Bool :=
  algFamily (wAlg i) = .cipher && partOk i && lenOk i &&
  (if algCipherIv (wAlg i) then bIsSeg i || wIsat i else !wIsat i) &&
  (!algBlock16 (wAlg i) || wLen i % 16 = 0)

/-- MAC (R91, R95, R96, R105). -/
def macOk (i : W64) : Bool :=
  algFamily (wAlg i) = .mac && partOk i && lenOk i && macTlenOk (wAlg i) (wTlen i) &&
  (if wAlg i = 0x1A then bIsSeg i || wMacIsat i else !wMacIsat i)

/-- A names a segment stream. -/
def aIsSeg (i : W64) : Bool :=
  match desigOf (wA i) with
  | some (.seg _ _) => true
  | _ => false

/-- A names a satchel. -/
def aIsSat (i : W64) : Bool :=
  match desigOf (wA i) with
  | some (.sat _) => true
  | _ => false

/-- HASH (R95, R96, R106, R125). -/
def hashOk (i : W64) : Bool :=
  match algFamily (wAlg i) with
  | .hash =>
    partOk i && lenOk i && wC i = 0 &&
    (if algShake (wAlg i) then wOlen i ≠ 0 || aIsSeg i else wOlen i = 0)
  | .slh =>
    wPart i = 0 && wLen i = 0 && bIsSeg i && 1 ≤ wOlen i && wOlen i ≤ 12 &&
    (if wAlg i = 0x30 || wAlg i = 0x31 then wC i ≠ 0 else wC i = 0) &&
    (wAlg i ≠ 0x33 || aIsSat i)
  | _ => false

/-- The KDF identifiers of Table 4.5. -/
def kdfOk (k : Nat) : Bool := k = 1 || k = 2 || k = 3 || k = 5 || k = 6 || k = 7 || k = 9 || k = 0xA || k = 0xB || k = 0xC

/-- The key types that DERIVE may produce (Table 4.3). -/
def derivable (t : Nat) : Bool :=
  (1 ≤ t && t ≤ 0x0E) || t = 0x10 || t = 0x11 || (0x13 ≤ t && t ≤ 0x16) || t = 0x19 || t = 0x1A

/-- DERIVE (R99): an Extract produces the PRK type of matching length. -/
def deriveOk (i : W64) : Bool :=
  kdfOk (wFn i) && derivable (wParam i) &&
  (!(1 ≤ wFn i && wFn i ≤ 3) || wParam i = 0x0B + wFn i)

/-- KEY (R193): the flags byte of the handle; a PUT takes no bale stream. -/
def keyOk (i : W64) : Bool :=
  match wArg i with
  | 0 => true
  | 1 => wB i = 0
  | 0xFF => true
  | _ => false

/-- STREAM (R100, R165). -/
def streamOk (i : W64) : Bool :=
  match immF i 0 2 with
  | 1 => wB i = 0 && wParam i = 0 && wField2 i = 0
  | 2 => wB i = 0 && wParam i = 0 && wField2 i = 0
  | 3 => accepts (wB i) [.s] && 16 ≤ wParam i && 1 ≤ wField2 i && wField2 i ≤ 16 && wParam i + wField2 i ≤ 32
  | _ => false

/-- XFORM (Table 4.6). -/
def xformOk (i : W64) : Bool :=
  match wFn i with
  | 1 => accepts (wB i) [.s] && accepts (wC i) [.s] && wArg i = 0
  | 2 => accepts (wB i) [.s] && wC i = 0 && wArg i = 0
  | 3 => accepts (wB i) [.s] && wC i = 0
  | 4 => accepts (wB i) [.s] && wC i = 0 && wArg i = 0
  | 5 => wB i = 0 && wC i = 0
  | _ => false

/-- CMP (R89): a satchel A needs a length of 1 to 256, and a satchel B bounds the length of a stream A. -/
def cmpOk (i : W64) : Bool :=
  match desigOf (wA i), desigOf (wB i) with
  | some (.sat _), _ => 1 ≤ wLen i && wLen i ≤ 256
  | _, some (.sat _) => wLen i ≤ 256
  | _, _ => true

/-- PKOP: the functions of Table 4.7 with their operand kinds, PARAM and NLEN (R108). R108 gives the range of NLEN for RSA; the model
holds the public MODEXP to it too (DESIGN CHOICE, log entry 62). -/
def pkopOk (i : W64) : Bool :=
  let fn := wFn i
  let p := wParam i
  let n := wLen i
  let rsaN := decide (16 ≤ n) && decide (n ≤ 256)
  let hashP := decide (0x20 ≤ p) && decide (p ≤ 0x23)
  let digP := decide (20 ≤ p) && decide (p ≤ 64)
  let pub := accepts (wB i) [.g, .s]
  let noB := decide (wB i = 0)
  let cK := accepts (wC i) [.k]
  let noC := decide (wC i = 0)
  let out := accepts (wA i) [.g, .s]
  let outK := accepts (wA i) [.k]
  if fn = 0x01 ∨ fn = 0x02 then pub && cK && out && hashP && rsaN
  else if fn = 0x03 ∨ fn = 0x04 then pub && noC && out && hashP && rsaN
  else if fn = 0x05 then pub && noC && out && hashP && rsaN
  else if fn = 0x06 then pub && cK && out && hashP && rsaN
  else if fn = 0x08 then pub && noC && out && decide (p = 0) && rsaN
  else if fn = 0x09 then pub && cK && out && decide (p = 0) && rsaN
  else if 0x10 ≤ fn ∧ fn ≤ 0x12 then pub && cK && out && digP && decide (n = 0)
  else if 0x14 ≤ fn ∧ fn ≤ 0x16 then pub && noC && out && digP && decide (n = 0)
  else if 0x18 ≤ fn ∧ fn ≤ 0x1A then pub && cK && outK && decide (p = 0) && decide (n = 0)
  else if 0x1C ≤ fn ∧ fn ≤ 0x1E then noB && cK && out && decide (p = 0) && decide (n = 0)
  else if fn = 0x20 ∨ fn = 0x22 then pub && cK && out && decide (p = 0) && decide (n = 0)
  else if fn = 0x21 ∨ fn = 0x23 then pub && noC && out && decide (p = 0) && decide (n = 0)
  else if fn = 0x24 ∨ fn = 0x25 then pub && cK && outK && decide (p = 0) && decide (n = 0)
  else if fn = 0x26 then noB && cK && out && decide (1 ≤ p) && decide (p ≤ 4) && decide (n = 0)
  else if fn = 0x28 then noB && noC && out && decide (1 ≤ p) && decide (p ≤ 5) && decide (n = 0)
  else if fn = 0x29 then pub && noC && outK && decide (1 ≤ p % 128) && decide (p % 128 ≤ 5) && decide (n = 0)
  else false

/-- LATOP: the functions of Table 4.8 with their operand kinds and SET (R111). -/
def latopOk (i : W64) : Bool :=
  let pub := accepts (wB i) [.g, .s]
  let noB := decide (wB i = 0)
  let cK := accepts (wC i) [.k]
  let noC := decide (wC i = 0)
  let out := accepts (wA i) [.g, .s]
  let outK := accepts (wA i) [.k]
  decide (1 ≤ wParam i) && decide (wParam i ≤ 3) &&
  (match wFn i with
   | 0x01 => noB && cK && out
   | 0x02 => pub && cK && out
   | 0x03 => pub && cK && outK
   | 0x11 => (pub || noB) && cK && out
   | 0x12 => pub && noC && out
   | _ => false)

/-! ### Inputs and outputs of PKOP and LATOP (Tables 9.2 and 10.1) -/

/-- The digest length of the hash that PARAM names. -/
def pkHash (p : Nat) : Nat := hashLen p

/-- The coordinate length of a curve: P-256, P-384, P-521. -/
def coordLen (curve : Nat) : Nat := if curve = 0 then 32 else if curve = 1 then 48 else 66

/-- The length of a public key by the curve code of FN 0x28 and 0x29. -/
def codeLen (code : Nat) : Nat := if 1 ≤ code ∧ code ≤ 3 then 2 * coordLen (code - 1) else if code = 4 then 32 else 56

/-- The length of a public key by PARAM of FN 0x26. -/
def montLen (p : Nat) : Nat := if p = 1 ∨ p = 3 then 32 else if p = 2 then 57 else 56

/-- Lengths of the fixed inputs, in order. -/
def pkFixed (fn p n : Nat) : List Nat :=
  let k := 8 * n
  if fn = 0x01 ∨ fn = 0x02 then [pkHash p]
  else if fn = 0x03 ∨ fn = 0x04 then [k, 8, k, pkHash p]
  else if fn = 0x05 then [k, 8]
  else if fn = 0x06 ∨ fn = 0x09 then [k]
  else if fn = 0x08 then [k, k, k]
  else if 0x10 ≤ fn ∧ fn ≤ 0x12 then [p]
  else if 0x14 ≤ fn ∧ fn ≤ 0x16 then [2 * coordLen (fn - 0x14), 2 * coordLen (fn - 0x14), p]
  else if 0x18 ≤ fn ∧ fn ≤ 0x1A then [2 * coordLen (fn - 0x18)]
  else if fn = 0x21 then [32, 64]
  else if fn = 0x23 then [57, 114]
  else if fn = 0x24 then [32]
  else if fn = 0x25 then [56]
  else if fn = 0x29 then [8, codeLen (p % 128)]
  else []

/-- The greatest length of the variable input; none: there is no variable input. A message longer than it is ENCODING at issue. -/
def pkVar (fn p n : Nat) : Option Nat :=
  if fn = 0x05 then some (8 * n - 2 * pkHash p - 2)
  else if 0x20 ≤ fn ∧ fn ≤ 0x23 then some 32768
  else none

/-- OAEP has room for a message at all. -/
def oaepRoom (fn p n : Nat) : Bool := !(fn = 0x05) || decide (2 * pkHash p + 2 ≤ 8 * n)

/-- The length of the output to A, where it is known at issue. -/
def pkOutLen (fn p n : Nat) : Option Nat :=
  if fn = 0x01 ∨ fn = 0x02 ∨ fn = 0x05 ∨ fn = 0x08 ∨ fn = 0x09 then some (8 * n)
  else if fn = 0x03 ∨ fn = 0x04 ∨ (0x14 ≤ fn ∧ fn ≤ 0x16) ∨ fn = 0x21 ∨ fn = 0x23 then some 16
  else if 0x10 ≤ fn ∧ fn ≤ 0x12 then some (2 * coordLen (fn - 0x10))
  else if 0x1C ≤ fn ∧ fn ≤ 0x1E then some (2 * coordLen (fn - 0x1C))
  else if fn = 0x20 then some 64
  else if fn = 0x22 then some 114
  else if fn = 0x26 then some (montLen p)
  else if fn = 0x28 then some (codeLen p + 8)
  else none

/-- A value by SET, 1 to 3. -/
def setPick (a b c set : Nat) : Nat := if set = 1 then a else if set = 2 then b else c

/-- Table 10.1: ML-KEM encapsulation key and ciphertext, ML-DSA public key and signature. -/
def ekSize (set : Nat) : Nat := setPick 800 1184 1568 set
/-- See `ekSize`. -/
def ctSize (set : Nat) : Nat := setPick 768 1088 1568 set
/-- See `ekSize`. -/
def pkSize (set : Nat) : Nat := setPick 1312 1952 2592 set
/-- See `ekSize`. -/
def sigSize (set : Nat) : Nat := setPick 2420 3309 4627 set

/-- The fixed inputs of a LATOP, in order. -/
def latFixed (fn set : Nat) : List Nat :=
  match fn with
  | 0x02 => [ekSize set]
  | 0x03 => [ctSize set]
  | 0x12 => [pkSize set, sigSize set]
  | _ => []

/-- FN 0x11 with B = 0x00 computes the public key only (R261). -/
def latPubOnly (i : W64) : Bool := wFn i = 0x11 && wB i = 0

/-- The length of the output to A, when A is no key register. -/
def latOutLen (i : W64) : Option Nat :=
  let set := wParam i
  match wFn i with
  | 0x01 => some (ekSize set)
  | 0x02 => some (ctSize set)
  | 0x11 => some (if latPubOnly i then pkSize set else sigSize set)
  | 0x12 => some 16
  | _ => none

/-- The message is the variable input of signing and verifying. -/
def latMsg (fn : Nat) : Bool := fn = 0x11 || fn = 0x12

/-! ### SLH-DSA (R125) -/

/-- FIPS 205 by SET 1 to 12: n, h, d, a, k. -/
def slhParam (set : Nat) : Nat × Nat × Nat × Nat × Nat :=
  match (set - 1) % 6 with
  | 0 => (16, 63, 7, 12, 14)
  | 1 => (16, 66, 22, 6, 33)
  | 2 => (24, 63, 7, 14, 17)
  | 3 => (24, 66, 22, 8, 33)
  | 4 => (32, 64, 8, 14, 22)
  | _ => (32, 68, 17, 9, 35)

/-- The bytes of R ‖ SIG_FORS, and of SIG_HT. -/
def slhForsLen (set : Nat) : Nat :=
  let (n, _, _, a, k) := slhParam set
  n + k * (a + 1) * n
/-- See `slhForsLen`. -/
def slhHtLen (set : Nat) : Nat :=
  let (n, h, d, _, _) := slhParam set
  (h + d * (2 * n + 3)) * n

/-! ### The other opcodes -/

/-- RAND (R115). -/
def randOk (i : W64) : Bool :=
  1 ≤ wLen i && (!aIsSat i || wLen i ≤ 256)

/-- MOVE (R89): the source stream needs a length. -/
def moveOk (i : W64) : Bool := wB i ≠ 1 || wLen i ≠ 0

/-- BRANCH at position `pos` of a program of `P` instructions (R75). -/
def branchOk (P pos : Nat) (i : W64) : Bool :=
  wA i < 64 && Nat.land (wB i) 0x7C = 0 && wB i % 4 ≠ 3 && (if wB i % 4 = 0 then wA i = 0 else wA i ≠ 0) &&
  wC i = 0 && 1 ≤ wImm i && pos + 1 + wImm i ≤ P

/-- Every check of Table 3.7 that does not depend on the job, for the instruction at `pos` of a program of `P`
instructions (R78). -/
def staticOk (P pos : Nat) (i : W64) : Bool :=
  match wopOf (wOpcode i) with
  | none => false
  | some .branch => branchOk P pos i
  | some op =>
    accepts (wA i) (kindsA op) && accepts (wB i) (kindsB op) && accepts (wC i) (kindsC op) && immOk op i &&
    (match op with
     | .key => keyOk i
     | .derive => deriveOk i
     | .stream => streamOk i
     | .sealW => aeadOk i
     | .openW => aeadOk i
     | .cipher => cipherOk i
     | .xform => xformOk i
     | .mac => macOk i
     | .hash => hashOk i
     | .cmp => cmpOk i
     | .pkop => pkopOk i
     | .latop => latopOk i
     | .rand => randOk i
     | .move => moveOk i
     | .event => 256 ≤ immF i 0 9
     | _ => true)

/-- R113: what a CLASS 0 job of a COURIER = 1 ring must not contain. -/
def courierBanned (i : W64) : Bool :=
  match wopOf (wOpcode i) with
  | some .pkop => true
  | some .latop => true
  | some .hash => algFamily (wAlg i) = .slh
  | _ => false

/-! ### Word 0 of a waybill entry (Table 2.3) -/

/-- PHASE. -/
def e0Phase (w : W64) : Bool := tb w 0
/-- CLASS. -/
def e0Class (w : W64) : Nat := fld w 1 2
/-- MANIFEST. -/
def e0Manifest (w : W64) : Bool := tb w 3
/-- YOKE. -/
def e0Yoke (w : W64) : Bool := tb w 4
/-- STAMP. -/
def e0Stamp (w : W64) : Bool := tb w 5
/-- NINST. -/
def e0Ninst (w : W64) : Nat := fld w 8 3
/-- ROUTE. -/
def e0Route (w : W64) : Nat := fld w 16 10
/-- JOBTAG. -/
def e0Tag (w : W64) : Nat := fld w 32 16

/-- R34: the entry ends with ENCODING when taken. -/
def entryRefused (w : W64) : Bool :=
  fld w 6 2 ≠ 0 || fld w 11 5 ≠ 0 || fld w 26 6 ≠ 0 || e0Ninst w = 7 || (e0Ninst w = 0 && e0Route w = 0)

/-- R36: the phase an owned entry carries after `taken` entries of a ring of 2 ^ logsize. -/
def expectedPhase (taken logsize : Nat) : Bool := (taken / 2 ^ logsize) % 2 = 0

end Sys2Proof.Machine
end

