-- ==== Sys2Proof/Machine/Flags.lean ====
section
/-! DEFINITION. A job's flags and pending status: Table 3.2, the soft and hard status rule (R63) and the branch condition (R75). -/

namespace Sys2Proof.Machine

/-- The flags of Table 3.2. -/
structure JobFlags where
  tf : Bool := false
  cf : Bool := false
  hit : Bool := false
  man : Bool := false
  yok : Bool := false
  sft : Bool := false
  deriving DecidableEq, Repr

/-- The flags in the layout of Table 3.2. -/
def flagsCode (f : JobFlags) : Nat :=
  bit f.tf + 2 * bit f.cf + 4 * bit f.hit + 8 * bit f.man + 16 * bit f.yok + 32 * bit f.sft

/-- Job-start flags (Table 3.2). -/
def flagsStart (manifest onYoke : Bool) : JobFlags := { man := manifest, yok := onYoke }

/-- CLR: TF, CF and SFT are cleared; HIT, MAN and YOK stay (R75). -/
def flagsClear (f : JobFlags) : JobFlags := { f with tf := false, cf := false, sft := false }

/-- R63: a soft status is kept only while the pending status is DONE. -/
def softPend (pend st : Status) : Status := if pend = .done then st else pend

/-- R62, R63: a verification that failed (`ok = false`) sets TF and records TAG_MISMATCH, one that passed clears TF. -/
def flagsVerify (f : JobFlags) (pend : Status) (ok : Bool) : JobFlags × Status :=
  if ok then ({ f with tf := false }, pend)
  else ({ f with tf := true, sft := f.sft || pend = .done }, softPend pend .tagMismatch)

/-- R62, R63, R107: a compare whose operands differ sets CF and records COMPARE_FALSE, an equal one clears CF. -/
def flagsCompare (f : JobFlags) (pend : Status) (eq : Bool) : JobFlags × Status :=
  if eq then ({ f with cf := false }, pend)
  else ({ f with cf := true, sft := f.sft || pend = .done }, softPend pend .compareFalse)

/-- R75: the branch of kind `kind` with mask `mask` is taken. -/
def branchTaken (f : JobFlags) (mask kind : Nat) : Bool :=
  match kind with
  | 0 => true
  | 1 => Nat.land (flagsCode f) mask ≠ 0
  | _ => Nat.land (flagsCode f) mask = 0

end Sys2Proof.Machine
end

