-- ==== Sys2Proof/Machine/StateJobs.lean ====
section
/-! DEFINITION. The state of the units, the rings, the jobs, the lanes, the route store and Muster ("The caravan", "Waystation
rings", "The waybill machine", "Muster", "Cipher lanes"). -/

namespace Sys2Proof.Machine

/-! ### Unit windows -/

/-- The stored registers of one unit window (Table 1.2); the identity registers and UW_STATUS are computed. -/
structure UnitRec where
  /-- UW_CTRL.ENABLE (reset 1) -/
  enable : Bool := true
  /-- UW_CTRL.YOKE, lanes at positions 0 and 2 -/
  yoke : Bool := false
  /-- UW_CTRL.QUARANTINE, leaves -/
  quarantine : Bool := false
  /-- UW_LASTCODE -/
  lastCode : W16 := 0
  /-- UW_JOBS -/
  jobs : W64 := 0
  /-- UW_BYTES -/
  bytes : W64 := 0
  /-- UW_BUSY -/
  busy : W64 := 0
  /-- UW_FAULTS -/
  faults : W32 := 0
  /-- UW_PREEMPTS -/
  preempts : W32 := 0
  /-- UW_SC_KEYHASH0–11, set in Self-check -/
  keyHash : BitVec 384 := 0
  /-- UW_SC_CERTPTR -/
  certPtr : W32 := 0
  /-- UW_SC_CERTLEN -/
  certLen : W32 := 0
  deriving DecidableEq, Repr

/-! ### Rings -/

/-- One ring: its window (Table 2.2) and what the Waystation keeps beside it. -/
structure RingRec where
  base : W64 := 0
  headAddr : W64 := 0
  courier : Bool := false
  /-- SPACE: `true` is adapter-local memory -/
  spaceLocal : Bool := false
  logSize : BitVec 5 := 6
  bound : Bool := false
  tenant : BitVec 12 := 0
  func : W16 := 0
  pv : Bool := false
  pasid : BitVec 20 := 0
  irqHoldoff : Byte := 0
  irqEn : Bool := false
  evtEn : Bool := false
  evtSrc : BitVec 9 := 0
  cmdBusy : Bool := false
  cmdResult : W16 := 0
  lastErr : W16 := 0
  pending : Bool := false
  state : RingState := .disabled
  /-- TAKEN, the free-running count of entries taken -/
  taken : W32 := 0
  count : W32 := 0
  inflight : Nat := 0
  doorbells : W64 := 0
  takenTotal : W64 := 0
  /-- WOFF of R29 -/
  woff : Nat := 0
  /-- The state before freezing (R52) -/
  frozenFrom : RingState := .running
  /-- A scan is in progress (R39) -/
  scanning : Bool := false
  /-- The scan stopped because INFLIGHT reached 1,024 and resumes by itself (R40) -/
  scanHeld : Bool := false
  /-- The scan waits for a reorder slot at the examined entry (R128) -/
  waitSlot : Bool := false
  /-- Number of entries the scan has asked for, counted as TAKEN counts (R41) -/
  scanNext : W32 := 0
  /-- The last scan was ended by the third stop of R40: the ring left RUNNING, or it may not scan -/
  scanCut : Bool := false
  /-- Entries returned and not yet decided: index position counted as TAKEN counts, with the eight words of the entry -/
  scanGot : List (Nat × List W64) := []
  /-- Jobs of the ring not yet released, oldest first (R139) -/
  order : List Nat := []
  /-- The highest count released so far (R48) -/
  released : W32 := 0
  /-- COUNT at the last acknowledged count write (R50, R51) -/
  countAcked : W32 := 0
  /-- The HOLDOFF interval of the last message request runs (R50) -/
  holding : Bool := false
  /-- COUNT has changed since the last message request (R50) -/
  msgHeld : Bool := false
  /-- A STATUS write or a count write of the ring has failed: no count write is issued any more (R57) -/
  countStop : Bool := false
  /-- RESET ends the ring for a Function Level Reset (R364) -/
  flrPend : Bool := false
  /-- Jobs discarded by the RESET in progress, with TAKEN and COUNT before it (R54) -/
  rstJobs : Nat := 0
  rstTaken : W32 := 0
  rstCount : W32 := 0
  /-- The expected time of R141, in ns (0: not yet set, so LAG_FLOOR is used) -/
  expTime : Nat := 0
  /-- The control cycle of the earliest doorbell merged into PENDING, and of the one that started the scan (R143) -/
  bellAt : Nat := 0
  scanBell : Nat := 0
  /-- Such doorbells of jobs that a count covers whose write has not been issued (R143) -/
  bells : List Nat := []
  deriving DecidableEq, Repr

/-! ### Routes -/

/-- One route: its 32 slots, VALID and RLEN (Table 3.4). -/
structure RouteRec where
  valid : Bool := false
  rlen : Nat := 0
  slots : Table W64 := []
  deriving DecidableEq, Repr

/-- The route store and MU_RT_CMD. -/
structure RouteStore where
  routes : Table RouteRec := []
  busy : Bool := false
  result : W16 := 0
  badv : Bool := false
  badpos : BitVec 5 := 0
  /-- The VALIDATE in progress: route and RLEN -/
  route : Nat := 0
  rlen : Nat := 0
  deriving DecidableEq, Repr

/-! ### Jobs -/

/-- A key register's reference (R61): slot, tenant, usage mask and the generation under which the slot was leased. -/
structure KeyRef where
  slot : Nat
  tenant : BitVec 12
  usage : W16
  gen : W32
  deriving DecidableEq, Repr

/-- The running state of a message split across jobs (R97): its algorithm, the step it stands at, its 80 bytes (R161), and whether a
STREAM LOAD of the job brought it in. -/
structure RunState where
  alg : Nat
  step : Nat
  bytes : List Byte
  loaded : Bool
  deriving DecidableEq, Repr

/-- Where a job is (R131, R137, R139). -/
inductive Seat where
  /-- taken, handed to Muster and not yet admitted -/
  | arriving
  /-- in a class queue or the Courier queue -/
  | queued
  /-- placed on a lane and not yet in execution -/
  | staged (lane : Nat)
  /-- in execution -/
  | running (lane : Nat)
  /-- saved on its lane -/
  | saved (lane : Nat)
  /-- ended; its data writes may be outstanding (R82 steps 1 to 4) -/
  | ended
  /-- its STATUS write is outstanding -/
  | statusOut
  /-- its STATUS write is acknowledged; it waits for release in ring order -/
  | acked
  /-- its STATUS write failed, or Recovery wrote its reads off: never released -/
  | held
  deriving DecidableEq, Repr

/-- What the instruction in progress waits for (R137). -/
inductive JobWait where
  | nothing
  /-- a Mint fill (R214) -/
  | mint (fill : Nat)
  /-- the Counting House; `ready` once the result is kept with a saved job -/
  | bench (ticket : Nat)
  /-- the Scales -/
  | scales (ticket : Nat)
  /-- the Well: bytes still to come -/
  | well (draw : Nat)
  /-- OPEN and the zero writes of R84: phase 1 waits for the acknowledgement of the instruction's writes, phase 2 for the zero writes -/
  | zeroing (phase : Nat)
  /-- a poison write (R166) or the tenant record -/
  | poison
  deriving DecidableEq, Repr

/-- One job: its waybill entry and the state of Table 3.1. -/
structure Job where
  ring : Nat := 0
  seq : W32 := 0
  /-- The address of the entry -/
  entry : W64 := 0
  word0 : W64 := 0
  word1 : W64 := 0
  slots : List W64 := []
  cls : JobClass := .post
  seat : Seat := .arriving
  /-- The job has ended in execution and its JOB_END is to come (R82) -/
  isOver : Bool := false
  /-- The job-start work of R80 is done (preparation, or the start in execution) -/
  started : Bool := false
  /-- The setup of the first instruction is done (R154) -/
  setUp : Bool := false
  /-- Leading KEYs that preparation performed -/
  preparedTo : Nat := 0
  /-- Satchels S0–S7: byte 256·n + i -/
  sat : Table Byte := []
  /-- Key registers K0–K3 -/
  keys : Table (Option KeyRef) := []
  /-- Cursors: 8·SEG + INST, source read 56, source write 57 -/
  cursors : Table Nat := []
  flags : JobFlags := {}
  pend : Status := .done
  pos : Nat := 0
  /-- The running state (R97), and USER of the last LOAD (R167) -/
  run : Option RunState := none
  user : List Byte := []
  /-- Manifest fragments that have arrived, by index; blocks asked for -/
  frags : Table (BitVec 128) := []
  fragBlocks : Nat := 0
  fragAsked : Nat := 0
  /-- Pieces of streams that have arrived: key stream · 2^48 + offset, and the bytes from there; streams are numbered as cursors -/
  buf : List (Nat × List Byte) := []
  /-- How far each stream has been asked for -/
  asked : Table Nat := []
  /-- How far the interrupted instruction of a saved job has consumed each stream (R155) -/
  eaten : Table Nat := []
  /-- A fault to take at the next stop point (R43, R352) -/
  stop : Option Status := none
  wait : JobWait := .nothing
  /-- The bytes kept for a result that came while the job was saved, or while the instruction waits -/
  kept : Option (List Byte) := none
  /-- Where the failing OPEN wrote: stream and offset and length (R84) -/
  wrote : Option (Nat × Nat × Nat) := none
  /-- How many bytes of its output to memory the running instruction has issued (R155) -/
  done : Nat := 0
  /-- The runs of bytes, by address, that each source of the running instruction has in memory (R81) -/
  source : List (List (Nat × Nat)) := []
  status : Status := .done
  /-- A STATUS write is suppressed (R54, R367) -/
  noStatus : Bool := false
  /-- The bucket is settled for the job (R127) -/
  settled : Bool := false
  /-- The job's place in the order of admission (R136) -/
  adm : Nat := 0
  /-- What the yoke's compare port finds for the KEY that waits for a fill (R171) -/
  cmp : Compare := .same
  /-- Lane cycles since an instruction has completed, in which the lane waited for nothing outside it (Table 6.8) -/
  stuck : Nat := 0
  /-- The leading lane on which the job ended (R18) -/
  endLane : Option Nat := none
  /-- Lane cycles since the start on the lane (R127) -/
  occ : Nat := 0
  /-- The job has entered execution (R80): its occupancy counts -/
  onLane : Bool := false
  /-- Run time in lane cycles of 0.5 ns: the time saved or held off is not in it (R141) -/
  ran : Nat := 0
  /-- The doorbell of MU_CR_LATMAX (R143) -/
  bell : Nat := 0
  deriving DecidableEq, Repr

/-- The record of a job that is not there. -/
def Job.blank : Job := {}

/-! ### Lanes -/

/-- One lane; on a yoke the leading lane's record holds the jobs. -/
structure LaneRec where
  faulted : Bool := false
  /-- The known-answer test runs (R160) -/
  kat : Bool := false
  /-- Released from quarantine, and no test has passed since (R174) -/
  retest : Bool := false
  run : Option Nat := none
  /-- Saved jobs, the most recent first (R135) -/
  saved : List Nat := []
  /-- Staged jobs, the oldest first -/
  staged : List Nat := []
  /-- The job in preparation or prepared, and the job in setup (R154) -/
  prep : Option Nat := none
  setup : Option Nat := none
  /-- The Courier job that Muster placed and that has not entered execution (R132, R175) -/
  courier : Option Nat := none
  /-- A preemption request waits for a stop point (R137) -/
  preempt : Bool := false
  /-- The lane is a laggard (R142) -/
  laggard : Bool := false
  /-- CK-E and CK-T of a job's tenant, which the context unit keeps from the job's first STREAM on (R163) -/
  ctxKeys : Table (List Byte) := []
  /-- The two save slots: the job in each, and its 4 KiB (R157) -/
  slots : List (Nat × List Byte) := []
  deriving DecidableEq, Repr

/-! ### Muster -/

/-- Muster's registers and queues (Tables 5.4, 5.5). -/
structure MusterRec where
  lagEn : Bool := true
  stage : BitVec 6 := 2
  reserve : W16 := 0
  sharePost : Byte := 96
  shareFreight : Byte := 64
  cbRate : BitVec 13 := 1024
  cbDepth : BitVec 24 := 32768
  cbCharge : W16 := 4096
  /-- The bucket level in 1/1,024 lane cycle, signed (R127) -/
  cbLevel : Int := 32768 * 1024
  cbAdmitted : W64 := 0
  cbDemoted : W64 := 0
  roResv : BitVec 13 := 1024
  roFree : Nat := 65536
  /-- An uncorrectable error has struck the reorder store (R444) -/
  roBad : Bool := false
  lagFloor : W16 := 500
  expSel : BitVec 12 := 0
  /-- The last complete window's shares (R133) -/
  measPost : Byte := 0
  measFreight : Byte := 0
  measBallast : Byte := 0
  /-- Lane occupancy of the classes and the lane cycles of eligible targets in the current window (R133) -/
  occPost : Nat := 0
  occFreight : Nat := 0
  occBallast : Nat := 0
  occCourier : Nat := 0
  winCycles : Nat := 0
  /-- Ration throttles (R148), and the shares wait for the next window -/
  throttle : Bool := false
  sharesOff : Bool := false
  /-- Jobs admitted to a class queue so far -/
  admitSeq : Nat := 0
  /-- Entries handed over by the Waystation and not admitted: the Courier path and the others (R129) -/
  arrCourier : List Nat := []
  arrOther : List Nat := []
  courierQ : List Nat := []
  postQ : List Nat := []
  freightQ : List Nat := []
  ballastQ : List Nat := []
  /-- The last ring served of each class (R133) and the last target placed (R134) -/
  lastPost : Nat := 4095
  lastFreight : Nat := 4095
  lastBallast : Nat := 4095
  lastLane : Nat := 15
  deriving DecidableEq, Repr

end Sys2Proof.Machine
end

