-- ==== Sys2Proof/Machine/StateEngines.lean ====
section
/-! DEFINITION. The state of the Counting House, the Scales, the Well and the Tollgate ("Counting House big-number engine",
"Scales lattice engine", "Well entropy source", "Tollgate snoop digests"). -/

namespace Sys2Proof.Machine

/-! ### Counting House -/

/-- The owner of a bench (R233). -/
inductive Owner where
  | none
  | tenant (t : BitVec 12)
  | internal
  | direct
  deriving DecidableEq, Repr

/-- CH_B_STATUS.OWNER. -/
def Owner.code : Owner → Nat
  | .none => 0
  | .tenant _ => 1
  | .internal => 2
  | .direct => 3

/-- The requester of a Counting House or Scales operation (R236, SC_C_STATUS.REQ). -/
inductive ScWho where
  | lane
  | mint
  | safeConduct
  deriving DecidableEq, Repr

/-- A PKOP request (R236): the requesting job, its ring and tenant, the function and its public input bytes. Of an internal request `job`
is the number of the Mint's or Safe-conduct's run, and `part` the operation of it. -/
structure PkReq where
  ticket : Nat := 0
  who : ScWho := .lane
  job : Nat := 0
  part : Nat := 0
  ring : Nat := 0
  tenant : BitVec 12 := 0
  fn : Nat := 0
  param : Nat := 0
  nlen : Nat := 0
  input : List Byte := []
  /-- Randomness drawn from the Well when the operation starts -/
  rnd : List Byte := []
  key : Option KeyRef := none
  /-- The Mint's own key, for a request of its own -/
  keyBytes : List Byte := []
  /-- Where the key lies in the secret working area, after a holding -/
  keyAt : Nat := 0x8000
  /-- Length of the key that the bench took into its secret working area, for a key that is no holding -/
  klen : Nat := 0
  /-- The lease cell of FN 0x28 and 0x29 once placed -/
  cell : Nat := 0
  /-- What the yoke's compare port finds for the instruction -/
  cmp : Compare := .same
  deriving DecidableEq, Repr

/-- A lease cell (R244). -/
structure CellRec where
  live : Bool := false
  gen : W32 := 0
  curve : Nat := 0
  ring : Nat := 0
  tenant : BitVec 12 := 0
  /-- Control cycle of the deadline -/
  deadline : Nat := 0
  deriving DecidableEq, Repr

/-- A direct operation in progress (R250). -/
structure DirectOp where
  op : Nat
  nlen : Nat
  elen : Nat
  /-- CH_B_OPS as the command found it -/
  ops : W64 := 0
  deriving DecidableEq, Repr

/-- One bench. -/
structure BenchRec where
  /-- 64 KiB of operand memory (Table 9.1) -/
  mem : Table Byte := []
  owner : Owner := .none
  run : Option PkReq := none
  direct : Option DirectOp := none
  /-- The job whose long-bale holding is on the bench (R196), and the bytes the holding takes from 0x8000 -/
  holder : Option Nat := none
  holdLen : Nat := 0
  holdType : BitVec 6 := 0
  cells : Table CellRec := []
  cmdResult : W16 := 0
  /-- CH_B_OPS: A, B, M and D of 12 bits each -/
  ops : W64 := 0
  lastTime : W32 := 0
  faulted : Bool := false
  kat : Bool := false
  /-- The control cycle in which the last operation ended, and the job whose it was if it ended by itself (R247) -/
  endedAt : Option Nat := none
  endedJob : Option Nat := none
  deriving DecidableEq, Repr

/-- The bench row (Table 9.9) and the benches. -/
structure HouseRec where
  benches : Table BenchRec := []
  queue : List PkReq := []
  nextTicket : Nat := 0
  /-- CH_ROW_CFG.DIRECT as written -/
  direct : Byte := 0
  pinMax : BitVec 3 := 4
  leaseTtl : BitVec 24 := 10000
  opsEnded : W64 := 0
  leaseIssued : W64 := 0
  leaseReturned : W64 := 0
  leaseRevoked : W64 := 0
  wipes : W32 := 0
  eccCorr : W32 := 0
  irqDirect : Bool := true
  irqQueued : Bool := false
  zeroed : Bool := false
  deriving DecidableEq, Repr

/-! ### Scales -/

/-- A LATOP request (R266). -/
structure LatReq where
  ticket : Nat := 0
  who : ScWho := .lane
  job : Nat := 0
  part : Nat := 0
  lane : Nat := 0
  fn : Nat := 0
  set : Nat := 0
  input : List Byte := []
  context : List Byte := []
  key : Option KeyRef := none
  /-- The key from the Serai, for a key that is no holding -/
  keyBytes : List Byte := []
  /-- Randomness drawn for the operation -/
  rnd : List Byte := []
  /-- FN 0x11 with B = 0x00: the public key only (R261) -/
  pubOnly : Bool := false
  /-- What the yoke's compare port finds for the instruction -/
  cmp : Compare := .same
  deriving DecidableEq, Repr

/-- One context (R256). -/
structure CtxRec where
  /-- 16 KiB public area, then 16 KiB secret area -/
  mem : Table Byte := []
  run : Option LatReq := none
  holder : Option Nat := none
  holdLen : Nat := 0
  holdType : BitVec 6 := 0
  holdLane : Nat := 0
  faulted : Bool := false
  kat : Bool := false
  lastTime : W32 := 0
  lastAtt : BitVec 9 := 0
  /-- The control cycle in which the last operation ended (Table 10.5) -/
  endedAt : Option Nat := none
  deriving DecidableEq, Repr

/-- The Scales (Table 10.7). -/
structure ScalesRec where
  ctxs : Table CtxRec := []
  queue : List LatReq := []
  nextTicket : Nat := 0
  holdMax : BitVec 2 := 2
  disable : BitVec 4 := 0
  cmdResult : W16 := 0
  charter : Bool := false
  zeroed : Bool := false
  ops : W64 := 0
  attempts : W64 := 0
  aborts : W32 := 0
  wipes : W32 := 0
  eccCorr : W32 := 0
  irqFault : Bool := false
  deriving DecidableEq, Repr

/-! ### Well -/

/-- The Well's state (R278). -/
inductive WellState where
  | notInst
  | healthy
  | degraded
  | failed
  deriving DecidableEq, Repr

/-- WL_STATUS.STATE. -/
def WellState.code : WellState → Nat
  | .notInst => 0
  | .healthy => 1
  | .degraded => 2
  | .failed => 3

/-- The WL_CMD command in progress. -/
inductive WellCmd where
  | retest
  | capture (source : Nat)
  deriving DecidableEq, Repr

/-- Who waits for bytes of the Well (R282): the re-masking engine, the request `ticket` of a bench or a context, GENROOT, an instruction of
a job on a lane, or the Serai's replacement draw. -/
inductive Drawer where
  | remask
  | bench (bench ticket : Nat)
  | ctx (ctx ticket : Nat)
  | genroot
  | lane (job lane : Nat)
  | replacement
  deriving DecidableEq, Repr

/-- Its place in the rotation of its class: the sixteen lanes, and then the replacement draw (R282). -/
def Drawer.place : Drawer → Nat
  | .lane _ l => l
  | _ => 16

/-- An instruction of job `j` waits. -/
def Drawer.isOf (j : Nat) : Drawer → Bool
  | .lane k _ => k = j
  | _ => false

/-- A draw that waits (R282): its class, how many bytes it needs and what it has. -/
structure DrawRec where
  draw : Nat := 0
  cls : Nat := 4
  who : Drawer := .replacement
  need : Nat := 0
  got : List Byte := []
  deriving DecidableEq, Repr

/-- The health tests of one source (Table 11.1): its last bit and the length of the run that ends with it; the first bit of the current
window, how many bits the window has and how often its first bit stands among them; and the test that failed first since they began, 1
repetition or 2 proportion. -/
structure SrcRec where
  last : Bool := false
  run : Nat := 0
  first : Bool := false
  pos : Nat := 0
  hits : Nat := 0
  fail : Nat := 0
  deriving DecidableEq, Repr

/-- The last reseed (R284): the control cycle of it, the sources whose bits its input held, and what stood before it. -/
structure ReseedRec where
  cycle : Nat
  of_ : BitVec 4
  drbg : List Byte
  calls : Nat
  deriving DecidableEq, Repr

/-- The Well (Table 11.3). -/
structure WellRec where
  state : WellState := .notInst
  srcOk : BitVec 4 := 0
  katFail : Bool := false
  zeroed : Bool := false
  /-- Bytes in the output buffer -/
  level : Nat := 0
  reseedInt : BitVec 21 := 1024
  cmd : Option WellCmd := none
  cmdResult : W16 := 0
  irqEn : Bool := false
  bytes : W64 := 0
  reseeds : W64 := 0
  srcFails : W32 := 0
  denied : W32 := 0
  eccCorr : W32 := 0
  /-- Generate calls since the last reseed (R279), and bytes of those calls that are not in the buffer yet -/
  genCalls : Nat := 0
  genLeft : Nat := 0
  /-- The DRBG's state, empty while it is not instantiated, and the states from which the Generate calls came whose bytes are not all
  delivered, the oldest first (R279) -/
  drbg : List Byte := []
  gens : List (List Byte) := []
  /-- The health tests of the sources, and the sources whose start-up test in progress has failed or passed already (R276, R277) -/
  sources : Table SrcRec := []
  startFail : BitVec 4 := 0
  startPass : BitVec 4 := 0
  /-- The raw bits of the entropy input being gathered, the first first (R279), and the sources of which it holds bits, and bits of their
  current windows (R277, R284) -/
  input : List Bool := []
  inputOf : BitVec 4 := 0
  inputNow : BitVec 4 := 0
  /-- The sources that failed in the control cycle of that number, and the last reseed: what meets there (R284) -/
  failedAt : Nat := 0
  failedOf : BitVec 4 := 0
  reseed : Option ReseedRec := none
  /-- The capture window, and the capture in progress with the bits that it has (R285) -/
  capture : Table Byte := []
  capBits : Table Byte := []
  capCount : Nat := 0
  draws : List DrawRec := []
  nextDraw : Nat := 0
  /-- The last lanes served of class 3 and class 4 (R282) -/
  last3 : Nat := 15
  last4 : Nat := 15
  deriving DecidableEq, Repr

/-! ### Tollgate -/

/-- The state of a context (Table 12.2). -/
inductive TgState where
  | idle
  | armed
  | running
  | finishing
  | done
  | error
  deriving DecidableEq, Repr

/-- TG_C_STATUS.STATE. -/
def TgState.code : TgState → Nat
  | .idle => 0
  | .armed => 1
  | .running => 2
  | .finishing => 3
  | .done => 4
  | .error => 5

/-- One Tollgate context (Table 12.5). -/
structure TgCtx where
  alg : Byte := 0
  src : BitVec 2 := 0
  auto : Bool := false
  cmpEn : Bool := false
  chan : BitVec 5 := 0
  wstart : W64 := 0
  wend : W64 := 0
  cmdResult : W16 := 0
  state : TgState := .idle
  matched : Bool := false
  cmpv : Bool := false
  err : BitVec 3 := 0
  tailLen : BitVec 9 := 0
  count : W64 := 0
  next : W64 := 0
  expect : W512 := 0
  digest : W512 := 0
  tail : Table Byte := []
  /-- The hash state: the bytes absorbed since ARM, the first first -/
  stream : List Byte := []
  /-- The snoop buffer of a window, of 512 bytes: the first arrival of each byte not yet absorbed, by address (R290) -/
  snoop : Table (Option Byte) := []
  /-- The snoop buffer of a Porter source, the first byte first (R289) -/
  fifo : List Byte := []
  /-- Fabric cycles until the hash core takes bytes again (Table 12.1) -/
  busy : Nat := 0
  /-- The channel's transfer that was in progress at ARM is not hashed (R288) -/
  skip : Bool := false
  /-- The end of a Porter source has come (R292) -/
  srcEnded : Bool := false
  deriving DecidableEq, Repr

/-- The Tollgate (Table 12.5). -/
structure TollgateRec where
  ctxs : Table TgCtx := []
  cleared : Bool := false
  cause : BitVec 3 := 0
  irqEn : Bool := false
  clears : W32 := 0
  missed : W32 := 0
  bytes : W64 := 0
  deriving DecidableEq, Repr

end Sys2Proof.Machine
end

