-- ==== Sys2Proof/Machine/StateFabric.lean ====
section
/-! DEFINITION. The state of Porter, the Relay, the Almanac, the Ledger and the adapter interface ("Porter transfers and the Relay
event fabric", "Almanac time base and the Ledger", "Adapter interface and Fords"). -/

namespace Sys2Proof.Machine

/-! ### Porter -/

/-- One register set of a channel (Table 13.2). -/
structure PtSet where
  src : W64 := 0
  dst : W64 := 0
  index : W64 := 0
  len : W32 := 0
  step : BitVec 17 := 0
  mode : BitVec 2 := 0
  pace : Bool := false
  arm : Bool := false
  en : Bool := false
  ledger : Bool := false
  ns : Bool := false
  esize : BitVec 12 := 0
  deriving DecidableEq, Repr

/-- A transfer in progress, in bytes: what the started steps cover, what reads have been issued for and what has left the buffer; the
index blocks asked for, the index entries held, and data that has returned before what precedes it: its position, destination and
bytes. -/
structure Xfer where
  granted : Nat := 0
  issued : Nat := 0
  out : Nat := 0
  idxAsked : Nat := 0
  idx : Table (Option Nat) := []
  early : List (Nat × W64 × List Byte) := []
  deriving DecidableEq, Repr

/-- One channel. -/
structure PtChan where
  act : PtSet := {}
  shadow : PtSet := {}
  xfer : Option Xfer := none
  /-- Returns of an abandoned transfer still to be discarded (R309) -/
  epoch : Nat := 0
  /-- The control cycle in which the last transfer completed (Table 13.3) -/
  doneAt : Option Nat := none
  deriving DecidableEq, Repr

/-- Porter (Table 13.2). -/
structure PorterRec where
  chans : Table PtChan := []
  stopped : Bool := false
  dir : Bool := false
  cause : BitVec 2 := 0
  cmdResult : W16 := 0
  errAddr : W64 := 0
  maxRd : BitVec 10 := 512
  irqEn : Bool := false
  stops : W32 := 0
  abandoned : W32 := 0
  refused : W32 := 0
  eccCorr : W32 := 0
  /-- The channels that read and wrote last, in the rotation (R306) -/
  lastRd : Nat := 31
  lastWr : Nat := 31
  /-- The control cycle in which Porter stopped -/
  stopAt : Option Nat := none
  /-- The last failure that found Porter stopped: control cycle, DIR, CAUSE and address (Table 13.3) -/
  lateFail : Option (Nat × Bool × Nat × W64) := none
  deriving DecidableEq, Repr

/-! ### Relay -/

/-- One sink (Table 13.8). -/
structure SinkRec where
  srcA : BitVec 10 := 0
  enA : Bool := false
  srcB : BitVec 10 := 0
  enB : Bool := false
  count : Nat := 0
  /-- What the current control cycle adds (R316) -/
  adds : Nat := 0
  /-- The control cycles of the last action and of the last CLEAR, and a CLEAR that came after its cycle's action (R317, R319) -/
  actedAt : Option Nat := none
  clearedAt : Option Nat := none
  clearDue : Bool := false
  ovf : Bool := false
  cmdResult : W16 := 0
  ring : BitVec 12 := 0
  en : Bool := false
  /-- Control cycle after which the output may pulse again (R317) -/
  pulseAfter : Nat := 0
  deriving DecidableEq, Repr

/-- One timer (Table 13.8). -/
structure TimerRec where
  base : Bool := false
  periodic : Bool := false
  cmdResult : W16 := 0
  period : W32 := 0
  frac : W16 := 0
  startSec : BitVec 48 := 0
  startNs : BitVec 30 := 0
  limit : W32 := 0
  fired : W32 := 0
  missed : W32 := 0
  running : Bool := false
  /-- BASE 0: time since START or entry to Service, in 1/65,536 ns -/
  elapsed : Nat := 0
  /-- BASE 0: the next target on that scale. BASE 1: the next target in 1/65,536 ns of Almanac time; none: no target lies ahead -/
  target : Option Nat := none
  deriving DecidableEq, Repr

/-- The Relay (Table 13.8). -/
structure RelayRec where
  sinks : Table SinkRec := []
  timers : Table TimerRec := []
  ovf : Bool := false
  irqEn : Bool := false
  added : W64 := 0
  consumed : W64 := 0
  dropped : W32 := 0
  woff : W32 := 0
  merged : W32 := 0
  seen : Table Bool := []
  /-- Raisings that reached the Relay and are not yet counted: control cycle and source, the oldest first (R315) -/
  raised : List (Nat × Nat) := []
  /-- Counts from lane EVENT instructions not yet counted (R316) -/
  laneAdds : Table Nat := []
  /-- Pulses that each adapter output has made (R361) -/
  pulses : Table Nat := []
  deriving DecidableEq, Repr

/-! ### Almanac -/

/-- The Almanac's state (R325). -/
inductive AlState where
  | unset
  | free
  | locked
  | holdover
  deriving DecidableEq, Repr

/-- AL_STATUS.STATE. -/
def AlState.code : AlState → Nat
  | .unset => 0
  | .free => 1
  | .locked => 2
  | .holdover => 3

/-- A port's shadow and staging registers (R326, R327). -/
structure AlPort where
  sec : BitVec 48 := 0
  frac : W16 := 0
  stagedLow : Option W32 := none
  stagedHigh : Option W16 := none
  deriving DecidableEq, Repr

/-- One alarm (Table 14.3). -/
structure AlarmRec where
  sec : BitVec 48 := 0
  ns : BitVec 30 := 0
  en : Bool := false
  fired : Bool := false
  deriving DecidableEq, Repr

/-- A time of the Almanac: seconds, nanoseconds, FRAC and the 32 hidden bits (R324). -/
structure AlTime where
  sec : BitVec 48 := 0
  nsec : Nat := 0
  frac : W16 := 0
  hidden : W32 := 0
  deriving DecidableEq, Repr

/-- The Almanac (Table 14.3). -/
structure AlmanacRec where
  time : AlTime := {}
  state : AlState := .unset
  todv : Bool := false
  disc : Bool := true
  wlock : Bool := false
  stepUs : BitVec 9 := 100
  lockNs : BitVec 10 := 200
  host : AlPort := {}
  sideband : AlPort := {}
  /-- AL_FREQ, two's complement, in 2⁻³² of the nominal rate -/
  freq : W32 := 0
  phase : W32 := 0
  /-- The slews in progress: the phase error that each removes, in ns, and the control cycles it has run (R331) -/
  slews : List (Int × Nat) := []
  /-- The control cycle of the last entry to HOLDOVER -/
  holdSince : Nat := 0
  holdMax : W16 := 0
  steps : W32 := 0
  ppsAcc : W32 := 0
  ppsRej : W32 := 0
  hbAddr : W64 := 0
  hbEn : Bool := false
  hbSkipped : W32 := 0
  /-- The control cycle in which a heartbeat last fell due in this stay in Service (R335) -/
  hbAt : Option Nat := none
  /-- The control cycle and port of the last accepted write of AL_NSEC (Table 14.1) -/
  wroteAt : Option (Nat × CtlPort) := none
  irqEn : Bool := false
  /-- Consecutive accepted edges within LOCK_NS, and the control cycle of the last accepted edge -/
  lockRun : Nat := 0
  lastEdge : Option Nat := none
  alarms : Table AlarmRec := []
  /-- The copy of the lane, fabric and public-key domains, with the set flag (R333) -/
  snap : AlTime := {}
  snapSet : Bool := false
  deriving DecidableEq, Repr

/-! ### Ledger -/

/-- A record that a producer has offered: producer (1 to 18 of R339), TYPE, CODE and body, the control cycle in which the producer made it,
and the unit or context that it is about. -/
structure LedgerRec where
  producer : Nat
  type : Nat
  code : W16
  body : List W32
  madeAt : Nat := 0
  unit : Nat := 0
  deriving DecidableEq, Repr

/-- One Ledger word of the drain bank: 28 bytes, how many are valid, and whether the word is uncorrectable or corrected (R344). -/
structure LedgerWord where
  data : BitVec 224
  nbytes : Nat
  ue : Bool := false
  ce : Bool := false
  deriving DecidableEq, Repr

/-- The Ledger (Table 14.8). -/
structure LedgerState where
  waiting : List LedgerRec := []
  /-- The producer served last (R339); 0 after block reset -/
  last : Nat := 0
  /-- Producer words of the fill bank, the first first (R340) -/
  fill : List W32 := []
  /-- The bank now filling -/
  bank : Bool := false
  /-- Uncorrectable errors that struck words of the fill bank, by word index -/
  fillBad : List Nat := []
  drain : List LedgerWord := []
  rseq : W16 := 0
  wseq : BitVec 23 := 0
  ovf : Bool := false
  ue : Bool := false
  hiwat : BitVec 10 := 384
  irqAvail : Bool := false
  irqHiwat : Bool := false
  irqDrop : Bool := false
  bytesIn : W64 := 0
  bytesOut : W64 := 0
  bytesWoff : W32 := 0
  records : W32 := 0
  droppedRecs : W32 := 0
  droppedBytes : W32 := 0
  eccCorr : W32 := 0
  eccUncorr : W32 := 0
  /-- Drops since the last LEDGER_OVERFLOW record (R343) -/
  newDrops : Nat := 0
  newDropBytes : Nat := 0
  /-- A swap has come after those drops: the overflow record goes first -/
  ovfDue : Bool := false
  latchHost : BitVec 256 := 0
  latchSide : BitVec 256 := 0
  deriving DecidableEq, Repr

/-! ### Adapter interface -/

/-- Who asked for a fabric access. -/
inductive Requester where
  /-- a scan read; `first` is the position of its first entry, counted as TAKEN counts -/
  | scan (ring first : Nat)
  /-- a read of a scan that has ended: its data is discarded (R41) -/
  | scanGone (ring : Nat)
  /-- a manifest block of a job -/
  | manifest (job block : Nat)
  /-- stream bytes of a job, from a stream offset -/
  | jobRead (job stream off : Nat)
  /-- output of the instruction at a position of a job -/
  | jobWrite (job pos : Nat)
  /-- the poison write of R166 -/
  | poison (job : Nat)
  | status (job : Nat)
  | count (ring : Nat)
  /-- the tenant record (R182) or the bale of a Mint fill -/
  | record (fill : Nat)
  | bale (fill : Nat)
  /-- the bale write of PUT (R198) -/
  | put (job : Nat) (tenant : BitVec 12) (index : BitVec 24)
  /-- the Mint's reads of a charter and of the tally, and its writes of the new tally (R183, R203) -/
  | charterRead
  | tallyRead
  | tallyWrite
  /-- Safe-conduct's writes of the certificate store and of a report (R414, R415) -/
  | storeWrite
  | reportWrite
  | ptIndex (chan epoch block : Nat)
  /-- data of a channel, by its position in the transfer -/
  | ptRead (chan epoch pos : Nat) (dst : W64)
  | ptWrite (chan epoch : Nat)
  | heartbeat
  /-- nobody any more: what returns is discarded -/
  | nobody
  deriving DecidableEq, Repr

/-- One access: requests may split it (R351), and it ends when every part has its response or is written off (R352). -/
structure Access where
  who : Requester
  /-- The ring it serves, when it serves one -/
  ring : Option Nat := none
  write : Bool := false
  spaceLocal : Bool := true
  addr : W64
  /-- Parts still to end -/
  left : Nat
  /-- The lowest-addressed failing part and its status, and whether it failed by an answer (1) or was written off (2) -/
  fail : Option (Nat × Status) := none
  cause : Nat := 1
  /-- Bytes that have arrived, by offset -/
  data : Table Byte := []
  len : Nat
  /-- A count write not yet issued: the doorbells from which the Courier jobs that it covers are measured (R143) -/
  bells : List Nat := []
  deriving DecidableEq, Repr

/-- A request (Table 15.2). -/
structure Req where
  access : Nat
  write : Bool
  addr : W64
  /-- The address on the header: translated when AT = 2 -/
  busAddr : W64
  translated : Bool := false
  /-- Log2 of the size of the page whose cache entry translated it (R363) -/
  pageLog : Nat := 12
  len : Nat
  spaceLocal : Bool
  func : W16 := 0
  pv : Bool := false
  pasid : BitVec 20 := 0
  ns : Bool := false
  rlx : Bool := false
  prio : Bool := false
  data : List Byte := []
  /-- Beats still to arrive, those that have arrived, and the lowest-addressed failing beat with its status -/
  beats : Nat := 0
  came : List Nat := []
  fail : Option (Nat × Status) := none
  /-- spn_linklost has been high since the issue (R357) -/
  sawLost : Bool := false
  /-- Control cycles that its timer has run (R357) -/
  age : Nat := 0
  deriving DecidableEq, Repr

/-- One master port (Table 15.10). -/
structure PortRec where
  reqCrd : Nat := 0
  dataCrd : Nat := 0
  issued : W64 := 0
  resp : W64 := 0
  woff : W32 := 0
  err : W32 := 0
  late : W32 := 0
  overgrant : W32 := 0
  /-- The first discarded grant has its record (R353) -/
  overNoted : Bool := false
  reads : Table (Option Req) := []
  writes : Table (Option Req) := []
  /-- Tags in quarantine: one more than the control cycles that each has been there; 0 for a tag that is not (R357) -/
  quarReads : Table Nat := []
  quarWrites : Table Nat := []
  /-- Requests that wait for credits or tags, the oldest first -/
  queue : List Req := []
  deriving DecidableEq, Repr

/-- An entry of the address translation cache (R362). -/
structure AtcEntry where
  func : W16
  pv : Bool
  pasid : BitVec 20
  logSize : Nat
  page : W64
  frame : W64
  r : Bool
  w : Bool
  deriving DecidableEq, Repr

/-- What an invalidation names: function, PASID (none: every one), base and log2 of the size (none: everything). -/
structure InvScope where
  func : Option W16
  pasid : Option (BitVec 20)
  range : Option (Nat × Nat)
  deriving DecidableEq, Repr

/-- An outstanding translation request (R362). -/
structure AtsReq where
  func : W16
  pv : Bool
  pasid : BitVec 20
  write : Bool
  addr : W64
  /-- Discarded by a Function Level Reset (R364): the completion is ignored -/
  dropped : Bool := false
  /-- Invalidations accepted since it was made: a completion for a page that one of them overlaps is discarded, and the request made
  again (R363) -/
  since : List InvScope := []
  deriving DecidableEq, Repr

/-- An invalidation in progress: its tag (none: AI_ATC_CMD) and the reads that still use its entries, as port and tag. -/
structure InvRec where
  itag : Option (BitVec 5)
  uses : List (Nat × Nat)
  deriving DecidableEq, Repr

/-- A response of a control port (Table 15.1): its error bit and its read data. -/
structure PortRsp where
  err : Bool
  data : W64
  deriving DecidableEq, Repr

/-- The adapter interface (Table 15.10). -/
structure AdapterRec where
  ports : Table PortRec := []
  accesses : Table (Option Access) := []
  nextAccess : Nat := 0
  /-- Requests that wait for a translation -/
  untranslated : List Req := []
  contained : Bool := false
  icStop : Bool := false
  /-- Function Level Resets in progress: function and rings reset -/
  flrs : List W16 := []
  ats : Bool := true
  resvCrd : BitVec 3 := 4
  resvTags : Byte := 16
  cplTo : BitVec 17 := 10000
  ltrActive : W16 := 0x8801
  ltrIdle : W16 := 0x9001
  ltrIdleUs : W16 := 100
  irqLink : Bool := false
  atcBusy : Bool := false
  atcResult : W16 := 0
  /-- The cache, the most recently used entry first -/
  atc : List AtcEntry := []
  atsOut : Table (Option AtsReq) := []
  invs : List InvRec := []
  atcHits : W64 := 0
  atcMisses : W64 := 0
  atcFaults : W32 := 0
  atcInvals : W32 := 0
  flrCount : W32 := 0
  fordFlushes : W32 := 0
  /-- MU_CR_LATMAX, measured where count writes are issued (R143) -/
  crLatMax : W32 := 0
  linkLosses : W32 := 0
  /-- Pending interrupt vectors, ring vectors 0–4095 and block-level vectors from 4096, and the vector taken last (R360) -/
  irqPending : Table Bool := []
  irqLast : Nat := 4159
  /-- The latency tolerance now proposed on spn_ltr, and pulses on spn_ltr_upd (R365) -/
  ltr : W16 := 0
  ltrUpdates : Nat := 0
  /-- spn_flr_done and spn_inv_done pulses presented, the latest first -/
  flrDone : List W16 := []
  invDone : List (BitVec 5) := []
  deriving DecidableEq, Repr

/-- The control ports: the last write that the sideband port applied, as control cycle, offset and bytes (Table 19.2), and the response
that each port presented last (R359). -/
structure PortsRec where
  sideWrote : Option (Nat × Nat × Nat) := none
  rspHost : Option PortRsp := none
  rspSide : Option PortRsp := none
  deriving DecidableEq, Repr

end Sys2Proof.Machine
end

