-- ==== Sys2Proof/Machine/StateKeys.lean ====
section
/-! DEFINITION. The state of the Mint and the Serai ("Key hierarchy, sealed bales and charters", "Serai key cache"). -/

namespace Sys2Proof.Machine

/-- The KIND of a slot (Table 8.2). -/
inductive SlotKind where
  | free
  | tenant
  | internal
  | privateKey
  | holding
  | unit
  | retired
  | dead
  deriving DecidableEq, Repr

/-- The KIND code (Table 8.2). -/
def SlotKind.code : SlotKind → Nat
  | .free => 0
  | .tenant => 1
  | .internal => 2
  | .privateKey => 3
  | .holding => 4
  | .unit => 5
  | .retired => 6
  | .dead => 7

/-- One Serai slot: the metadata of Table 8.1 and 64 bytes of material, stored as key ⊕ mask (R221). -/
structure SlotRec where
  index : BitVec 24 := 0
  tenant : BitVec 12 := 0
  kind : SlotKind := .free
  gen : BitVec 4 := 0
  epoch : Byte := 0
  usage : BitVec 15 := 0
  ktype : BitVec 6 := 0
  algLock : Byte := 0
  leases : Nat := 0
  notAfter : BitVec 40 := 0
  material : W512 := 0
  /-- The key's length in bytes as its bale or its making gave it: the model's own field (Table 8.1 has no place for it in a
  TENANT slot, and PUT writes it, R197) -/
  klen : Nat := 0
  /-- The slot stands for a holding, also once it is RETIRED (R218): the model's own field -/
  held : Bool := false
  /-- The key is one of DERIVE, whose form Table 10.2 tells from that of FN 0x01: the model's own field -/
  derived : Bool := false
  deriving DecidableEq, Repr

/-- A register that names the slot names a holding (R212). -/
def SlotRec.isHolding (r : SlotRec) : Bool := r.held && (r.kind = .holding || r.kind = .retired)

/-- The flush walk in progress (R225). -/
inductive FlushOp where
  | entry (tenant : BitVec 12) (index : BitVec 24)
  | tenant (tenant : BitVec 12)
  | stale (tenant : BitVec 12)
  | all
  deriving DecidableEq, Repr

/-- The Serai (Tables 8.1 to 8.6). -/
structure SeraiRec where
  slots : Table SlotRec := []
  /-- The mask store: one mask per group of 64 slots (R221) -/
  masks : Table W512 := []
  /-- Groups whose mask has aged and which have no fresh mask yet (R223) -/
  aged : Table Bool := []
  /-- The control cycle in which each group's mask was drawn (R223) -/
  ages : Table Nat := []
  /-- The set-index key of R211 and whether it is drawn -/
  hkey : BitVec 128 := 0
  hkeyDrawn : Bool := false
  /-- The rotating pointer of R216 -/
  pointer : Nat := 0
  /-- The group the re-masking engine takes next (R222) -/
  remaskNext : Nat := 0
  flush : Option FlushOp := none
  cmdBusy : Bool := false
  cmdResult : W16 := 0
  maskLate : Bool := false
  zeroed : Bool := false
  cmdIndex : BitVec 24 := 0
  leaseIssued : W64 := 0
  leaseReturned : W64 := 0
  leaseWoff : W32 := 0
  hits : W64 := 0
  misses : W64 := 0
  evictions : W64 := 0
  conflicts : W32 := 0
  overflows : W32 := 0
  eccCorr : W32 := 0
  remaskPasses : W32 := 0
  maskAgeMax : W32 := 0
  probeSel : BitVec 15 := 0
  /-- Replacement bits that the Well has granted and no fill has used (R215): draws of four bytes -/
  bits : List Nat := []
  /-- Keys that an engine has made for a job's key register and that no slot holds yet, by job: they wait while the job is saved (R138),
  or for a fresh mask (R223) -/
  incoming : Table (List Byte) := []
  /-- The latched metadata of SER_PROBE0–3 -/
  probe : BitVec 128 := 0
  deriving DecidableEq, Repr

/-- Where a Mint fill stands (R214). -/
inductive FillPhase where
  /-- the read of the tenant record (R182) or of the bale (Table 7.4 step 4) is outstanding -/
  | reading
  /-- the bytes are there -/
  | arrived
  /-- a read failed with this status -/
  | failed (st : Status)
  deriving DecidableEq, Repr

/-- One pending fill: its triple, the KEYs that joined it and what its read returned. -/
structure FillRec where
  tenant : BitVec 12 := 0
  index : BitVec 24 := 0
  /-- The triple is that of the tenant record (R182), not a tenant's key -/
  recordOnly : Bool := false
  phase : FillPhase := .reading
  /-- The tenant record by which a bale is checked -/
  record : List Byte := []
  /-- The bytes that the read returned -/
  bale : List Byte := []
  /-- Jobs whose KEY joined, oldest first -/
  joined : List Nat := []
  /-- The address the record or the bale was read from -/
  addr : W64 := 0
  deriving DecidableEq, Repr

/-- Where a charter's processing stands (Table 7.7). -/
inductive ChStage where
  | idle
  /-- step 1: the read of the charter is outstanding -/
  | reading
  /-- the charter lies in contexts 2 and 3 -/
  | here
  /-- engine operation `k` of the charter is queued or runs -/
  | engine (k : Nat)
  /-- engine operation `k` of the charter has ended well -/
  | passed (k : Nat)
  /-- the read of the tally is outstanding (R183 step 1) -/
  | tally
  /-- the tally is there, or its read has failed -/
  | checked (ok : Bool)
  /-- the new tally is being written (R183 steps 3 and 4) -/
  | writing
  /-- every step before the commit has passed -/
  | ready
  /-- a step has failed: RESULT, REASON, INDEX -/
  | refused (st : Status) (reason index : Nat)
  deriving DecidableEq, Repr

/-- The Mint (Tables 7.1, 7.10). -/
structure MintRec where
  root : Bool := false
  tallyBad : Bool := false
  chBusy : Bool := false
  tallyAddr : W64 := 0
  chAddr : W64 := 0
  chIndex : BitVec 6 := 0
  chReason : BitVec 5 := 0
  chResult : W16 := 0
  unwraps : W64 := 0
  puts : W64 := 0
  baleFail : W32 := 0
  chAccepted : W32 := 0
  chRefused : W32 := 0
  /-- DK, OK and TK (Table 7.1) -/
  dk : BitVec 384 := 0
  okey : BitVec 384 := 0
  tk : BitVec 256 := 0
  /-- Unit seeds U by unit (Table 7.1) -/
  unitSeeds : Table W512 := []
  /-- The install keys: d ‖ z and the P-384 scalar (Table 7.1) -/
  installKem : W512 := 0
  installEc : BitVec 384 := 0
  /-- Pending fills by number, and the next number -/
  fills : Table FillRec := []
  nextFill : Nat := 0
  /-- Entries held busy by a PUT: the job, with tenant and index (R198) -/
  busy : List (Nat × BitVec 12 × BitVec 24) := []
  /-- Slots of tenant records that a fill has leased to the instructions of jobs which waited for it (R214, R217) -/
  lent : Table (Option Nat) := []
  /-- Where the charter stands, and the number of the run: requests and accesses of an earlier one find it changed -/
  chStage : ChStage := .idle
  chRun : Nat := 0
  /-- SEQ of the charter as read -/
  chSeq : W64 := 0
  /-- The tally as read, and the secrets ss₁ ‖ ss₂ of the charter's OWNER_INSTALL commands, the first 0 (R204) -/
  chTally : List Byte := []
  chSecrets : Table (List Byte) := []
  deriving DecidableEq, Repr

end Sys2Proof.Machine
end

