-- ==== Sys2Proof/Machine/State.lean ====
section
/-! DEFINITION. The machine's whole state: a record for each part of the block (R19), the queue of commands that wait, and the
model's own counters. The part records stand in StateJobs, StateKeys, StateEngines, StateFabric and StateControl. -/

namespace Sys2Proof.Machine

/-- The state of the block. -/
structure State where
  /-- Commands that wait, the first to be taken first: the model's own field -/
  pending : List Instr := []
  units : Table UnitRec := []
  rings : Table RingRec := []
  routes : RouteStore := {}
  jobs : Table Job := []
  /-- The number the next job gets -/
  nextJob : Nat := 0
  lanes : Table LaneRec := []
  muster : MusterRec := {}
  serai : SeraiRec := {}
  mint : MintRec := {}
  house : HouseRec := {}
  scales : ScalesRec := {}
  well : WellRec := {}
  tollgate : TollgateRec := {}
  porter : PorterRec := {}
  relay : RelayRec := {}
  almanac : AlmanacRec := {}
  ledger : LedgerState := {}
  ai : AdapterRec := {}
  ports : PortsRec := {}
  mode : ModeRec := {}
  fuse : FuseRec := {}
  safe : SafeRec := {}
  watch : WatchRec := {}
  ration : RationRec := {}
  pins : Pins := {}
  /-- Control cycles since block reset: the model's own field (deadlines and spacings are counted on it) -/
  cycle : Nat := 0
  /-- Free values drawn so far: the model's own field -/
  free : Nat := 0
  deriving DecidableEq, Repr

/-- The machine right after reset: every register at the value its table gives (R451, Table 19.7). -/
def State.reset : State := {}

/-- The reasons for which a step stops the machine with a fault. There is none: what the manual calls a fault (a lane fault, a
storage fault, a ring that becomes FAULTED) is a state of the machine, in which it goes on. Safe: nothing raises it. -/
inductive Fault where
  deriving DecidableEq, Repr

/-- The reasons for which a command has no meaning. -/
inductive Refusal where
  /-- The command's meaning is not in the model; raised by the dispatch alone. Safe: the machine stops. -/
  | notModelled (mnemonic : String)
  deriving DecidableEq, Repr

end Sys2Proof.Machine
end

