-- ==== Sys2Proof/Machine/Access.lean ====
section
/-! DEFINITION. Access to the machine's arrays: reading one element, writing it, changing it, and changing one part of the state. -/

namespace Sys2Proof.Machine

/-- UnitRec `k`. -/
def getUnit (s : State) (k : Nat) : UnitRec := tget {} s.units k

/-- Change UnitRec `k`. -/
def modUnit (s : State) (k : Nat) (f : UnitRec → UnitRec) : State := { s with units := tmod {} s.units k f }

/-- RingRec `k`. -/
def getRing (s : State) (k : Nat) : RingRec := tget {} s.rings k

/-- Change RingRec `k`. -/
def modRing (s : State) (k : Nat) (f : RingRec → RingRec) : State := { s with rings := tmod {} s.rings k f }

/-- Job `k`. -/
def getJob (s : State) (k : Nat) : Job := tget {} s.jobs k

/-- Change Job `k`. -/
def modJob (s : State) (k : Nat) (f : Job → Job) : State := { s with jobs := tmod {} s.jobs k f }

/-- LaneRec `k`. -/
def getLane (s : State) (k : Nat) : LaneRec := tget {} s.lanes k

/-- Change LaneRec `k`. -/
def modLane (s : State) (k : Nat) (f : LaneRec → LaneRec) : State := { s with lanes := tmod {} s.lanes k f }

/-- SlotRec `k`. -/
def getSlot (s : State) (k : Nat) : SlotRec := tget {} s.serai.slots k

/-- Change SlotRec `k`. -/
def modSlot (s : State) (k : Nat) (f : SlotRec → SlotRec) : State :=
  { s with serai := { s.serai with slots := tmod {} s.serai.slots k f } }

/-- FillRec `k`. -/
def getFill (s : State) (k : Nat) : FillRec := tget {} s.mint.fills k

/-- Change FillRec `k`. -/
def modFill (s : State) (k : Nat) (f : FillRec → FillRec) : State :=
  { s with mint := { s.mint with fills := tmod {} s.mint.fills k f } }

/-- BenchRec `k`. -/
def getBench (s : State) (k : Nat) : BenchRec := tget {} s.house.benches k

/-- Change BenchRec `k`. -/
def modBench (s : State) (k : Nat) (f : BenchRec → BenchRec) : State :=
  { s with house := { s.house with benches := tmod {} s.house.benches k f } }

/-- CtxRec `k`. -/
def getCtx (s : State) (k : Nat) : CtxRec := tget {} s.scales.ctxs k

/-- Change CtxRec `k`. -/
def modCtx (s : State) (k : Nat) (f : CtxRec → CtxRec) : State :=
  { s with scales := { s.scales with ctxs := tmod {} s.scales.ctxs k f } }

/-- TgCtx `k`. -/
def getTg (s : State) (k : Nat) : TgCtx := tget {} s.tollgate.ctxs k

/-- Change TgCtx `k`. -/
def modTg (s : State) (k : Nat) (f : TgCtx → TgCtx) : State :=
  { s with tollgate := { s.tollgate with ctxs := tmod {} s.tollgate.ctxs k f } }

/-- PtChan `k`. -/
def getChan (s : State) (k : Nat) : PtChan := tget {} s.porter.chans k

/-- Change PtChan `k`. -/
def modChan (s : State) (k : Nat) (f : PtChan → PtChan) : State :=
  { s with porter := { s.porter with chans := tmod {} s.porter.chans k f } }

/-- SinkRec `k`. -/
def getSink (s : State) (k : Nat) : SinkRec := tget {} s.relay.sinks k

/-- Change SinkRec `k`. -/
def modSink (s : State) (k : Nat) (f : SinkRec → SinkRec) : State :=
  { s with relay := { s.relay with sinks := tmod {} s.relay.sinks k f } }

/-- TimerRec `k`. -/
def getTimer (s : State) (k : Nat) : TimerRec := tget {} s.relay.timers k

/-- Change TimerRec `k`. -/
def modTimer (s : State) (k : Nat) (f : TimerRec → TimerRec) : State :=
  { s with relay := { s.relay with timers := tmod {} s.relay.timers k f } }

/-- AlarmRec `k`. -/
def getAlarm (s : State) (k : Nat) : AlarmRec := tget {} s.almanac.alarms k

/-- Change AlarmRec `k`. -/
def modAlarm (s : State) (k : Nat) (f : AlarmRec → AlarmRec) : State :=
  { s with almanac := { s.almanac with alarms := tmod {} s.almanac.alarms k f } }

/-- PortRec `k`. -/
def getPort (s : State) (k : Nat) : PortRec := tget {} s.ai.ports k

/-- Change PortRec `k`. -/
def modPort (s : State) (k : Nat) (f : PortRec → PortRec) : State :=
  { s with ai := { s.ai with ports := tmod {} s.ai.ports k f } }

/-- DomRec `k`. -/
def getDom (s : State) (k : Nat) : DomRec := tget {} s.ration.doms k

/-- Change DomRec `k`. -/
def modDom (s : State) (k : Nat) (f : DomRec → DomRec) : State :=
  { s with ration := { s.ration with doms := tmod {} s.ration.doms k f } }

/-- RouteRec `k`. -/
def getRoute (s : State) (k : Nat) : RouteRec := tget {} s.routes.routes k

/-- Change RouteRec `k`. -/
def modRoute (s : State) (k : Nat) (f : RouteRec → RouteRec) : State :=
  { s with routes := { s.routes with routes := tmod {} s.routes.routes k f } }

/-- Change the record of muster. -/
def upMuster (s : State) (f : MusterRec → MusterRec) : State := { s with muster := f s.muster }

/-- Change the record of serai. -/
def upSerai (s : State) (f : SeraiRec → SeraiRec) : State := { s with serai := f s.serai }

/-- Change the record of mint. -/
def upMint (s : State) (f : MintRec → MintRec) : State := { s with mint := f s.mint }

/-- Change the record of house. -/
def upHouse (s : State) (f : HouseRec → HouseRec) : State := { s with house := f s.house }

/-- Change the record of scales. -/
def upScales (s : State) (f : ScalesRec → ScalesRec) : State := { s with scales := f s.scales }

/-- Change the record of well. -/
def upWell (s : State) (f : WellRec → WellRec) : State := { s with well := f s.well }

/-- Change the record of tollgate. -/
def upTollgate (s : State) (f : TollgateRec → TollgateRec) : State := { s with tollgate := f s.tollgate }

/-- Change the record of porter. -/
def upPorter (s : State) (f : PorterRec → PorterRec) : State := { s with porter := f s.porter }

/-- Change the record of relay. -/
def upRelay (s : State) (f : RelayRec → RelayRec) : State := { s with relay := f s.relay }

/-- Change the record of almanac. -/
def upAlmanac (s : State) (f : AlmanacRec → AlmanacRec) : State := { s with almanac := f s.almanac }

/-- Change the record of ledger. -/
def upLedger (s : State) (f : LedgerState → LedgerState) : State := { s with ledger := f s.ledger }

/-- Change the record of ai. -/
def upAi (s : State) (f : AdapterRec → AdapterRec) : State := { s with ai := f s.ai }

/-- Change the control ports. -/
def upPorts (s : State) (f : PortsRec → PortsRec) : State := { s with ports := f s.ports }

/-- Change the record of mode. -/
def upMode (s : State) (f : ModeRec → ModeRec) : State := { s with mode := f s.mode }

/-- Change the record of fuse. -/
def upFuse (s : State) (f : FuseRec → FuseRec) : State := { s with fuse := f s.fuse }

/-- Change the record of safe. -/
def upSafe (s : State) (f : SafeRec → SafeRec) : State := { s with safe := f s.safe }

/-- Change the record of watch. -/
def upWatch (s : State) (f : WatchRec → WatchRec) : State := { s with watch := f s.watch }

/-- Change the record of ration. -/
def upRation (s : State) (f : RationRec → RationRec) : State := { s with ration := f s.ration }

/-- Change the record of routes. -/
def upRoutes (s : State) (f : RouteStore → RouteStore) : State := { s with routes := f s.routes }

/-- Change the record of pins. -/
def upPins (s : State) (f : Pins → Pins) : State := { s with pins := f s.pins }

/-- `n` free values have been taken. -/
def drewFree (s : State) (n : Nat) : State := { s with free := s.free + n }

/-- The bytes of a bench's operand memory, a context's working memory, a certificate store: read and written by position. -/
def readBytes (t : Table Byte) (off n : Nat) : List Byte := tread 0 t off n

/-- Run `f` over a list of numbers, the first first. -/
def forAll (l : List Nat) (f : State → Nat → State) (s : State) : State := l.foldl f s

/-- `f` if `c` holds, and nothing otherwise. -/
def whenS (c : Bool) (f : State → State) (s : State) : State := if c then f s else s

end Sys2Proof.Machine
end

