-- ==== Sys2Proof/Machine/Ops.lean ====
section
/-! DEFINITION. Shared operations: Ledger records offered by a producer (R339), Relay events (R315), interrupt requests (R360), unit
endings (R18), yokes (R169), and the additions to a sink (R316). -/

namespace Sys2Proof.Machine

/-! ### Ports, addresses, modes -/

/-- 0 for the host port, 1 for the sideband port. -/
def portBit (p : CtlPort) : Nat :=
  match p with
  | .host => 0
  | .sideband => 1

/-- The low and the high half of an address, as records carry it (R347). -/
def loHi (a : W64) : List W32 := [getHalf a false, getHalf a true]

/-- MD_STATUS.MODE (Table 16.1); reset reads as Cold. -/
def Mode.code (m : Mode) : Nat :=
  match m with
  | .inReset => 0
  | .cold => 0
  | .selfCheck => 1
  | .provision => 2
  | .service => 3
  | .containment => 4
  | .recovery => 5
  | .cleared => 6

/-- The block is in mode `m`. -/
def inMode (s : State) (m : Mode) : Bool := s.mode.mode = m

/-- STOP fields are writable (R9, R384). -/
def stopWritable (s : State) : Bool := inMode s .provision

/-- The control clock runs and the block is out of reset (R21, R325). -/
def awake (s : State) : Bool := !inMode s .inReset

/-- Both ports are served in full: every mode but reset, Cold and Cleared (Table 15.5). -/
def portsServed (s : State) : Bool := awake s && !inMode s .cold && !inMode s .cleared

/-- The Relay counts events and acts on them (R313). -/
def relayOn (s : State) : Bool := portsServed s

/-! ### Records, events, interrupts -/

/-- The unit, context or ring number among those of its producer that a record is about (R339, Table 14.6): 0 where it names none. -/
def recordUnit (type : Nat) (body : List W32) : Nat :=
  let b := fun (k : Nat) => (body.getD k 0).toNat
  match type with
  | 0x101 => b 0
  | 0x102 => b 0
  | 0x202 => b 0 % 16
  | 0x203 => b 0
  | 0x204 => if 256 ≤ b 0 then b 0 - 256 else if 24 ≤ b 0 then b 0 - 24 else b 0 - 7
  | 0x305 => if b 0 = 1 then b 2 % 8 else 0
  | 0x401 => b 0
  | 0x402 => b 0 % 4
  | 0x501 => ((List.range 8).find? (fun c => (b 0).testBit c)).getD 0
  | 0x502 => b 0
  | _ => 0

/-- A producer offers a record about one of its units (R339): it waits until the record writer takes it. -/
def emitFor (s : State) (unit producer type : Nat) (code : W16) (body : List W32) : State :=
  upLedger s (fun l => { l with
    waiting := l.waiting ++ [{ producer := producer, type := type, code := code, body := body, madeAt := s.cycle, unit := unit }] })

/-- A producer offers a record about the unit that its body names. -/
def emit (s : State) (producer type : Nat) (code : W16) (body : List W32) : State :=
  emitFor s (recordUnit type body) producer type code body

/-- Relay source `src` is raised in this control cycle (R315): its event is seen, and merges with one of the same source and cycle. In
Cold and Cleared the Relay takes no notice (R313). -/
def raise (s : State) (src : Nat) : State :=
  if !relayOn s then s
  else if s.relay.raised.contains (s.cycle, src) then upRelay s (fun r => { r with merged := r.merged + 1 })
  else upRelay s (fun r => { r with raised := r.raised ++ [(s.cycle, src)], seen := tset false r.seen src true })

/-- Request interrupt vector `v`: ring vectors 0 to 4,095, block-level vector `b` as 4,096 + `b` (R360). -/
def irq (s : State) (v : Nat) : State :=
  upAi s (fun a => { a with irqPending := tset false a.irqPending v true })

/-- Request block-level vector `b`. -/
def irqBlock (s : State) (b : Nat) : State := irq s (4096 + b)

/-- A FORD_FLUSH record for Ford `row` of Table 15.6, its first side reset or its second, with the items discarded and the credits returned
(R374). -/
def fordFlush (s : State) (row side : Nat) (items credits : W32) : State :=
  emit (upAi s (fun a => { a with fordFlushes := a.fordFlushes + 1 })) 14 0x602 0 [w32 row, w32 side, items, credits]

/-- R374 on a Ford that may hold items: how many they are is a free value, since a command that has not come is all that they can carry
(DESIGN CHOICE, log entry 19). -/
def flushFord (s : State) (row side : Nat) : State :=
  fordFlush (drewFree s 2) row side (Config.fordItems s.free) (Config.fordItems (s.free + 1))

/-- Propose a latency tolerance: each change is presented on spn_ltr (R365). -/
def proposeLtr (s : State) (v : W16) : State :=
  if s.ai.ltr = v then s else upAi s (fun a => { a with ltr := v, ltrUpdates := a.ltrUpdates + 1 })

/-- Next free value of the Well: `n` bytes that nothing constrains (R283). -/
def drawNoise (s : State) (n : Nat) : List Byte × State :=
  (noiseBytes s.free n, drewFree s n)

/-! ### The Well's output (R278 to R283) -/

/-- The Well delivers (R278, R284). -/
def wellCan (s : State) : Bool := (s.well.state = .healthy || s.well.state = .degraded) && !s.well.zeroed

/-- A request fails because the Well is FAILED (R283). -/
def wellDeny (s : State) : State := upWell s (fun w => { w with denied := w.denied + 1 })

/-- RESEED_INT in effect (Table 11.3). -/
def reseedInt (s : State) : Nat := Nat.max 1 (capAt (2 ^ 20) s.well.reseedInt.toNat)

/-- A Generate call (R279): 2 KiB come from the DRBG's state, which then goes on. -/
def generate (w : WellRec) : WellRec :=
  { w with gens := w.gens ++ [w.drbg], drbg := stdBytes (.drbg 2) [w.drbg] 48, genCalls := w.genCalls + 1, genLeft := w.genLeft + 2048 }

/-- `n` Generate calls. -/
def generates : Nat → WellRec → WellRec
  | 0, w => w
  | n + 1, w => generates n (generate w)

/-- Bytes that are generated and not delivered: those in the buffer, and the rest of the last Generate calls. -/
def wellMade (w : WellRec) : Nat := w.level + w.genLeft

/-- `n` bytes can be had before the reseed that falls due (R280). -/
def wellGives (s : State) (n : Nat) : Bool := n ≤ wellMade s.well + 2048 * (reseedInt s - s.well.genCalls)

/-- Byte `i` of what is generated and not delivered: bytes leave in the order in which the Generate calls made them. -/
def wellByte (w : WellRec) (i : Nat) : Byte :=
  let p := 2048 * w.gens.length - wellMade w + i
  Config.std (.drbg 1) [w.gens.getD (p / 2048) []] (p % 2048)

/-- `n` bytes leave the Well: those in the buffer first. -/
def wellLess (w : WellRec) (n : Nat) : WellRec :=
  let level := w.level - n
  let left := w.genLeft - (n - w.level)
  { w with level := level, genLeft := left, gens := w.gens.drop (w.gens.length - ceilDiv (level + left) 2048) }

/-- The Well delivers `n` bytes (R282). -/
def wellTake (s : State) (n : Nat) : List Byte × State :=
  let w := generates (ceilDiv (n - wellMade s.well) 2048) s.well
  ((List.range n).map (wellByte w), upWell s (fun _ => { wellLess w n with bytes := w.bytes + w64 n }))

/-- A draw of `n` bytes in class `cls` waits for its grants (R282). -/
def askDraw (s : State) (cls : Nat) (who : Drawer) (n : Nat) : State :=
  upWell s (fun w => { w with nextDraw := w.nextDraw + 1, draws := w.draws ++ [{ draw := w.nextDraw, cls := cls, who := who, need := n }] })

/-- The draws of `p` are withdrawn: no bytes are lost from the buffer (R284). -/
def dropDraws (s : State) (p : Drawer → Bool) : State := upWell s (fun w => { w with draws := w.draws.filter (fun d => !p d.who) })

/-- The draw of what bench `b` runs. -/
def Drawer.onBench (b : Nat) : Drawer → Bool
  | .bench k _ => k = b
  | _ => false

/-- The draw of what context `c` runs. -/
def Drawer.onCtx (c : Nat) : Drawer → Bool
  | .ctx k _ => k = c
  | _ => false

/-! ### Relay sinks -/

/-- `n` counts reach sink `k` in this control cycle: they stand in its count from the next one on (R316, R317). -/
def sinkOffer (s : State) (k n : Nat) : State := modSink s k (fun x => { x with adds := x.adds + n })

/-- `n` counts are added to sink `k` (R316): the count saturates at 65,535, the excess is dropped, and OVF sets. -/
def sinkAdd (s : State) (k n : Nat) : State :=
  let c := (getSink s k).count
  let room := 65535 - c
  if n ≤ room then
    upRelay (modSink s k (fun x => { x with count := x.count + n })) (fun r => { r with added := r.added + w64 n })
  else
    let first := !(getSink s k).ovf
    let rose := !s.relay.ovf
    let s := modSink s k (fun x => { x with count := 65535, ovf := true })
    let s := upRelay s (fun r => { r with added := r.added + w64 room, dropped := r.dropped + w32 (n - room), ovf := true })
    let s := whenS first (fun s => emit s 11 0x504 0 [w32 k, 1, w32 (n - room)]) s
    whenS (rose && s.relay.irqEn) (fun s => irqBlock s 28) s

/-- The counts of sink `k` are written off with cause `cause` (R319). -/
def sinkWriteOff (s : State) (k cause : Nat) : State :=
  let c := (getSink s k).count
  let s := modSink s k (fun x => { x with count := 0 })
  let s := upRelay s (fun r => { r with woff := r.woff + w32 c })
  emit s 11 0x504 0 [w32 k, w32 cause, w32 c]

/-- CLEAR acts on sink `k` (R319): what it held at the start of the control cycle is written off, with a record when there is any. -/
def sinkClear (s : State) (k : Nat) : State :=
  let s := modSink s k (fun x => { x with clearedAt := some s.cycle, clearDue := false })
  if (getSink s k).count = 0 then s else sinkWriteOff s k 2

/-- What a control cycle has added to the sinks is counted as it ends, and a CLEAR that came after its cycle's action acts at the start of
the next (R316, R319, Table 13.6). -/
def sinksLand (s : State) : State :=
  let s := forAll (tkeys (fun _ (x : SinkRec) => x.adds ≠ 0) s.relay.sinks) (fun s k =>
    sinkAdd (modSink s k (fun x => { x with adds := 0 })) k (getSink s k).adds) s
  forAll (tkeys (fun _ (x : SinkRec) => x.clearDue) s.relay.sinks) sinkClear s

/-- RL_PENDING: the sum of all sink counts (R319). -/
def relayPending (s : State) : Nat := (s.relay.sinks.map (fun kv => kv.2.count)).sum

/-! ### Units (R11) -/

/-- The parent of a unit (Table 1.1). -/
def unitParent (u : Nat) : Nat :=
  if u ≤ 2 then 0
  else if u ≤ 4 then 1
  else if u ≤ 6 then 2
  else if u ≤ 22 then 3 + (u - 7) / 4
  else if u = 23 then 0
  else 23

/-- A unit and its ancestors. -/
def unitPath (u : Nat) : List Nat :=
  let p := unitParent u
  let q := unitParent p
  if u = 0 then [0] else if p = 0 then [u, 0] else if q = 0 then [u, p, 0] else [u, p, q, 0]

/-- Lane and bench units, the leaves. -/
def isLeaf (u : Nat) : Bool := (7 ≤ u && u ≤ 22) || (24 ≤ u && u ≤ 31)

/-- The leaves below a unit, the unit itself when it is a leaf. -/
def leavesOf (u : Nat) : List Nat := (List.range 32).filter (fun v => isLeaf v && (unitPath v).contains u)

/-- The unit of lane `l`, and of bench `b`. -/
def laneUnit (l : Nat) : Nat := 7 + l
/-- Bench `b` is unit 24 + `b`. -/
def benchUnit (b : Nat) : Nat := 24 + b

/-- The string of a lane. -/
def stringOf (l : Nat) : Nat := l / 4
/-- The train of a lane. -/
def trainOf (l : Nat) : Nat := l / 8

/-- An ending with status `st` on leaf unit `u` (R18): UW_JOBS, UW_FAULTS and UW_LASTCODE. -/
def unitEnding (s : State) (u : Nat) (st : Status) : State :=
  let s := modUnit s u (fun x => { x with jobs := x.jobs + 1, faults := if st.mild then x.faults else x.faults + 1 })
  if st = .done then s else forAll (unitPath u) (fun s v => modUnit s v (fun x => { x with lastCode := st.code })) s

/-- Every unit from `u` to the caravan has ENABLE set. -/
def enabledPath (s : State) (u : Nat) : Bool := (unitPath u).all (fun v => (getUnit s v).enable)

/-! ### Yokes (R169) -/

/-- The lane is out of use for a yoke: quarantined or faulted, or released and not yet tested (R169, R174). -/
def laneOut (s : State) (l : Nat) : Bool := (getUnit s (laneUnit l)).quarantine || (getLane s l).faulted || (getLane s l).retest

/-- A yoke is formed between lane `l` (at position 0 or 2) and the lane above it. -/
def yokeFormed (s : State) (l : Nat) : Bool :=
  l % 2 = 0 && (getUnit s (laneUnit l)).yoke && !laneOut s l && !laneOut s (l + 1)

/-- The leading lane of the target that lane `l` belongs to. -/
def leadOf (s : State) (l : Nat) : Nat := if l % 2 = 1 && yokeFormed s (l - 1) then l - 1 else l

/-- The lanes of the target led by `l`. -/
def members (s : State) (l : Nat) : List Nat := if yokeFormed s l then [l, l + 1] else [l]

/-- The target led by `l` is a yoke. -/
def isYoke (s : State) (l : Nat) : Bool := yokeFormed s l

/-- The leading lanes of every target (R131). -/
def targets (s : State) : List Nat := (List.range 16).filter (fun l => leadOf s l = l)

/-- Some yoke is formed anywhere in the block (R130). -/
def anyYoke (s : State) : Bool := (List.range 16).any (fun l => yokeFormed s l)

/-! ### Power (R439) -/

/-- The domain is powered: its switch is on and its clocks run, draining and testing included. -/
def domOn (s : State) (d : Nat) : Bool :=
  (getDom s d).phase = .powered || (getDom s d).phase = .draining || (getDom s d).phase = .testing

/-- The domain takes new work (R136, R439): it is powered and does not drain. -/
def domTakes (s : State) (d : Nat) : Bool := (getDom s d).phase = .powered || (getDom s d).phase = .testing

/-- EN_EFF of a lane (Table 1.5): a lane whose own test is over counts, whether or not those of its train are. -/
def laneEnEff (s : State) (l : Nat) : Bool :=
  enabledPath s (laneUnit l) && !(getUnit s (laneUnit l)).quarantine && domOn s (trainOf l) && !(getLane s l).kat &&
  !(getLane s l).faulted

/-- EN_EFF of a bench. -/
def benchEnEff (s : State) (b : Nat) : Bool :=
  enabledPath s (benchUnit b) && !(getUnit s (benchUnit b)).quarantine && domOn s 2 && !(getBench s b).kat &&
  !(getBench s b).faulted

/-! ### Time -/

/-- The Almanac time is set (R325). -/
def timeSet (s : State) : Bool := s.almanac.state ≠ .unset

/-- Seconds and nanoseconds in the layout of the stamp and the heartbeat (R46, R335). -/
def stampOf (t : AlTime) : W64 := w64 ((t.sec.toNat % 2 ^ 34) * 2 ^ 30 + t.nsec)

/-- A time of the Almanac in units of 1/65,536 ns. -/
def almTicks (t : AlTime) : Nat := (t.sec.toNat * 1000000000 + t.nsec) * 65536 + t.frac.toNat

/-! ### The reins (R388) -/

/-- The port holds the reins. -/
def holdsReins (s : State) (p : CtlPort) : Bool := s.mode.holder = BitVec.ofNat 2 (portBit p + 1)

/-! ### Refused writes (R9, Table 14.6) -/

/-- The producer whose part owns a register offset (Table 19.1). -/
def producerOf (off : Nat) : Nat :=
  if off < 0x100000 then 2
  else if off < 0x200000 then 1
  else if off < 0x300000 then 2
  else if off < 0x380000 then 4
  else if off < 0x400000 then 5
  else if off < 0x500000 then 6
  else if off < 0x580000 then 7
  else if off < 0x600000 then 8
  else if off < 0x700000 then 9
  else if off < 0x780000 then 10
  else if off < 0x7C0000 then 11
  else if off < 0x7D0000 then 12
  else if off < 0x800000 then 13
  else if off < 0x900000 then 14
  else if off < 0xA00000 then 15
  else if off < 0xB00000 then 16
  else if off < 0xC00000 then 17
  else 18

/-- A REG_ACCESS record with a CODE: kind 1 STOP write, 2 narrow write, 3 guarded write, 4 refused command; `wide` for an 8-byte
access to a pair, which carries both data words. -/
def regLog (s : State) (p : CtlPort) (kind off : Nat) (code : W16) (wide : Bool) (data : W64) : State :=
  emit s (producerOf off) 0x001 code
    (w32 (off + 2 ^ 24 * portBit p + 2 ^ 25 * kind) :: getHalf data false :: if wide then [getHalf data true] else [])

/-- A REG_ACCESS record with CODE ACCESS_FAULT. -/
def regAccess (s : State) (p : CtlPort) (kind off : Nat) (wide : Bool) (data : W64) : State :=
  regLog s p kind off Status.accessFault.code wide data

/-- A refused CMD write is logged as kind 4, with the status it was refused with (R458). -/
def refuseCmd (s : State) (p : CtlPort) (off : Nat) (st : Status) (data : Nat) : State :=
  regLog s p 4 off st.code false (w64 data)

/-- The port reaches the registers (Table 15.5): in Self-check, Provision, Service, Containment and Recovery, while the
interconnect side is neither in reset nor without a clock (R373, R376). -/
def served (s : State) : Bool := portsServed s && !s.pins.icRst && !s.ai.icStop

/-! ### Accesses of the control ports (R359, R452, R459 to R461) -/

/-- A port presents a response (Table 15.1). -/
def answer (s : State) (p : CtlPort) (r : PortRsp) : State :=
  match p with
  | .host => upPorts s (fun x => { x with rspHost := some r })
  | .sideband => upPorts s (fun x => { x with rspSide := some r })

/-- The response to a write: normal, or an error, with data zero. -/
def respond (s : State) (p : CtlPort) (err : Bool) : State := answer s p { err := err, data := 0 }

/-- The sideband port's write of this control cycle reaches the host port's `n` bytes at `off`. -/
def sideMeets (s : State) (p : CtlPort) (off n : Nat) : Bool :=
  decide (p = .host) && (match s.ports.sideWrote with
  | some (c, o, m) => decide (c = s.cycle) && decide (off < o + m) && decide (o < off + n)
  | none => false)

/-- A write of this control cycle is noted of which the `n` bytes at `off` are part. -/
def sideNoted (s : State) (off n : Nat) : Bool :=
  match s.ports.sideWrote with
  | some (c, o, m) => decide (c = s.cycle) && decide (o ≤ off) && decide (off + n ≤ o + m)
  | none => false

/-- The sideband port's write of `n` bytes is noted for its control cycle; a wider write that it is part of stays noted. -/
def noteSide (s : State) (p : CtlPort) (off n : Nat) : State :=
  if p = .sideband && n ≠ 0 && !sideNoted s off n then upPorts s (fun x => { x with sideWrote := some (s.cycle, off, n) }) else s

/-- A port is there at all: the interconnect side is neither in reset nor without a clock (R373, R376). -/
def portThere (s : State) : Bool := !s.pins.icRst && !s.ai.icStop

/-- A write of `n` bytes at `off`: an error response where the port does not serve it (R461); `beaten` when the sideband port writes the same
register in the same control cycle (Table 19.2); otherwise `act`, which the response does not wait for (R459). -/
def portWrite (s : State) (p : CtlPort) (off n : Nat) (beaten : State → State) (act : State → Host.Outcome State Fault Refusal) :
    Host.Outcome State Fault Refusal :=
  if !portThere s then .next s
  else if !served s then .next (respond s p true)
  else if sideMeets s p off n then .next (beaten (respond s p false))
  else act (noteSide (respond s p false) p off n)

/-- A write of a CMD register: the host port's is refused beside the sideband port's, without a change of RESULT. -/
def portCmd (s : State) (p : CtlPort) (off word : Nat) (act : State → Host.Outcome State Fault Refusal) : Host.Outcome State Fault Refusal :=
  portWrite s p off 4 (fun s => refuseCmd s p off .accessFault word) act

/-- A write of RW or STOP fields: the host port's is ignored beside the sideband port's, and logged as kind 3. -/
def portSet (s : State) (p : CtlPort) (off : Nat) (wide : Bool) (data : W64) (act : State → Host.Outcome State Fault Refusal) :
    Host.Outcome State Fault Refusal :=
  portWrite s p off (if wide then 8 else 4) (fun s => regAccess s p 3 off wide data) act

/-- A write for which both ports act, or whose register has a rule of its own for the two of them. -/
def portBoth (s : State) (p : CtlPort) (act : State → Host.Outcome State Fault Refusal) : Host.Outcome State Fault Refusal :=
  portWrite s p 0 0 id act

end Sys2Proof.Machine
end

