-- ==== Sys2Proof/Machine/Fabric.lean ====
section
/-! DEFINITION. The master ports: an access is cut into requests (R351), which pass address translation (R362) and wait at their
port for credits and tags (R353, R354); an access ends when each of its parts has ended (R352). -/

namespace Sys2Proof.Machine

/-- What a requester says of an access besides its address (Table 15.2). -/
structure FabAttr where
  spaceLocal : Bool := true
  func : W16 := 0
  pv : Bool := false
  pasid : BitVec 20 := 0
  ns : Bool := false
  rlx : Bool := false
  prio : Bool := false
  ring : Option Nat := none
  /-- A count write: see `Access.bells` -/
  bells : List Nat := []
  deriving DecidableEq, Repr

/-- R30: the attributes of an access made for ring `r`. FUNC and PASID are meaningful only for host memory. -/
def ringAttr (s : State) (r : Nat) (prio : Bool) : FabAttr :=
  let g := getRing s r
  if g.spaceLocal then { spaceLocal := true, prio := prio, ring := some r }
  else { spaceLocal := false, func := g.func, pv := g.pv, pasid := if g.pv then g.pasid else 0, prio := prio, ring := some r }

/-- R354: a job admitted as Courier uses the reserved credits; so do scan, STATUS and count accesses of a COURIER ring. -/
def jobPrio (s : State) (j : Nat) : Bool := (getJob s j).cls = .courier

/-- R351: the port of an address, ADDR[11:10] XOR ADDR[13:12]. -/
def portOf (a : W64) : Nat := Nat.xor (fld a 10 2) (fld a 12 2)

/-- R351: the pieces of an access that do not cross a 1 KiB boundary, lowest address first. -/
def splitKiB : Nat → Nat → Nat → List (Nat × Nat)
  | 0, _, _ => []
  | fuel + 1, addr, len =>
    if len = 0 then []
    else
      let room := 1024 - addr % 1024
      if len ≤ room then [(addr, len)] else (addr, room) :: splitKiB fuel (addr + room) (len - room)

/-- The aligned 128-byte blocks that a request touches. -/
def beatsOf (addr len : Nat) : Nat := if len = 0 then 0 else (addr + len - 1) / 128 - addr / 128 + 1

/-! ### Outstanding accesses -/

/-- The accesses of requesters that satisfy `p`. -/
def accessesOf (s : State) (p : Requester → Bool) : List Access :=
  s.ai.accesses.filterMap (fun kv => match kv.2 with
    | some a => if p a.who then some a else none
    | none => none)

/-- Some access of a requester that satisfies `p` is outstanding. -/
def busyFor (s : State) (p : Requester → Bool) : Bool := !(accessesOf s p).isEmpty

/-- The job whose writes an access is, if it is one (R82 step 4). -/
def isWriteOf (j : Nat) (w : Requester) : Bool :=
  match w with
  | .jobWrite k _ => k = j
  | .poison k => k = j
  | .put k _ _ => k = j
  | _ => false

/-- An access reads for the job. -/
def isReadOf (j : Nat) (w : Requester) : Bool :=
  match w with
  | .jobRead k _ _ => k = j
  | .manifest k _ => k = j
  | _ => false

/-- Every data write of the job is acknowledged. -/
def writesDone (s : State) (j : Nat) : Bool := !busyFor s (isWriteOf j)

/-! ### Ports -/

/-- RESV_CRD in effect. -/
def resvCrd (s : State) : Nat := capAt 4 s.ai.resvCrd.toNat

/-- RESV_TAGS in effect. -/
def resvTags (s : State) : Nat := capAt 64 s.ai.resvTags.toNat

/-- AI_CPL_TO in effect, in control cycles: values below 50 µs act as 50, above 64,000 as 64,000 (Table 15.10). -/
def cplCycles (s : State) : Nat := 500 * Nat.max 50 (capAt 64000 s.ai.cplTo.toNat)

/-- How many tags of a kind are in use or in quarantine. -/
def tagsHeld (out : Table (Option Req)) (quar : Table Nat) : Nat := out.length + quar.length

/-- The lowest free tag. -/
def freeTag (out : Table (Option Req)) (quar : Table Nat) : Option Nat :=
  (List.range 256).find? (fun t => tget none out t = none && tget 0 quar t = 0)

/-- Requests of the Mint and Safe-conduct: charter, tally and key table accesses, the certificate store and reports (Table 15.5). -/
def isMintSide (w : Requester) : Bool :=
  match w with
  | .record _ => true
  | .bale _ => true
  | .put _ _ _ => true
  | .charterRead => true
  | .tallyRead => true
  | .tallyWrite => true
  | .storeWrite => true
  | .reportWrite => true
  | _ => false

/-- The mode lets a requester present a header (Table 15.5, R393): every one in Service, those of the Mint and Safe-conduct in Provision,
and in a Recovery from its third step, which a scoped Recovery may run in Provision, every one but the heartbeat (R335). -/
def modeAllows (s : State) (w : Requester) : Bool :=
  inMode s .service ||
  (inMode s .provision && isMintSide w) ||
  ((inMode s .recovery || inMode s .provision) && s.mode.recov.any (fun r => 3 ≤ r.step) && decide (w ≠ .heartbeat))

/-- New headers may be presented at all (R368, R373, R376). -/
def headersAllowed (s : State) : Bool := !s.pins.freeze && !s.pins.icRst && !s.ai.icStop

/-- The mode lets the request of an access present its header, and the host link is there for one to host memory (R367). -/
def reqAllowed (s : State) (r : Req) : Bool :=
  (r.spaceLocal || !s.pins.linkLost) && (match tget none s.ai.accesses r.access with
  | some a => modeAllows s a.who
  | none => false)

/-- Read return buffer entries that the outstanding reads of a port hold, one for each beat, of 256 (Table 1.11). -/
def entriesHeld (p : PortRec) : Nat := (p.reads.map (fun kv => match kv.2 with
  | some r => beatsOf r.addr.toNat r.len
  | none => 0)).sum

/-- R353, R354: the port holds the credits and a tag for the request, and a read has its return buffer entries. -/
def mayIssue (s : State) (p : PortRec) (r : Req) : Bool :=
  let rc := if r.prio then 0 else resvCrd s
  let rt := if r.prio then 0 else resvTags s
  1 + rc ≤ p.reqCrd &&
  (if r.write then decide (r.beats + rc ≤ p.dataCrd) && decide (tagsHeld p.writes p.quarWrites < 256)
   else decide (tagsHeld p.reads p.quarReads + 1 + rt ≤ 256) && decide (entriesHeld p + r.beats ≤ 256))

/-- The header of a request is presented on its port under tag `t`. -/
def presentReq (p : PortRec) (t : Nat) (r : Req) : PortRec :=
  if r.write then
    { p with reqCrd := p.reqCrd - 1, dataCrd := p.dataCrd - r.beats, issued := p.issued + 1, writes := tset none p.writes t (some r) }
  else { p with reqCrd := p.reqCrd - 1, issued := p.issued + 1, reads := tset none p.reads t (some r) }

/-- The waiting request that goes next: the first PRIO request, otherwise the first (R354). Among requests of one kind the spec gives no order:
here the one that has waited longest goes first (DESIGN CHOICE, log entry 17). -/
def nextReq (q : List Req) : Option Req :=
  match q.find? (fun r => r.prio) with
  | some r => some r
  | none => q.head?

/-- MU_CR_LATMAX when a count write is issued at the master port: the latency of each Courier job that it covers, once (R143). -/
def noteLatency (s : State) (id : Nat) : State :=
  let bells := match tget none s.ai.accesses id with
    | some a => a.bells
    | none => []
  let s := bells.foldl (fun s b =>
    let ns := 2 * (s.cycle - b)
    if s.ai.crLatMax.toNat < ns then upAi s (fun a => { a with crLatMax := w32 (Nat.min ns (2 ^ 32 - 1)) }) else s) s
  upAi s (fun x => { x with accesses := tmod none x.accesses id (fun o => o.map (fun (a : Access) => { a with bells := [] })) })

/-- Issue from one port while its next request may go. -/
def pumpPort : Nat → State → Nat → State
  | 0, s, _ => s
  | fuel + 1, s, k =>
    let p := getPort s k
    match nextReq (p.queue.filter (reqAllowed s)) with
    | none => s
    | some r =>
      if mayIssue s p r then
        match freeTag (if r.write then p.writes else p.reads) (if r.write then p.quarWrites else p.quarReads) with
        | none => s
        | some t =>
          let s := noteLatency (modPort s k (fun p => presentReq { p with queue := p.queue.erase r } t r)) r.access
          let s := upRation s (fun x => { x with beats := x.beats + if r.write then r.beats else 0 })
          pumpPort fuel s k
      else s

/-- Issue on every port what may go. -/
def pump (s : State) : State :=
  if headersAllowed s then
    forAll [0, 1, 2, 3] (fun s k => pumpPort ((getPort s k).queue.length) s k) s
  else s

/-- A request joins the queue of its port. -/
def queueReq (s : State) (r : Req) : State :=
  modPort s (portOf r.busAddr) (fun p => { p with queue := p.queue ++ [r] })

/-! ### Address translation (R362) -/

/-- A cache entry maps the request's address. -/
def atcMatches (e : AtcEntry) (func : W16) (pv : Bool) (pasid : BitVec 20) (addr : Nat) : Bool :=
  e.func = func && e.pv = pv && (!pv || e.pasid = pasid) && addr / 2 ^ e.logSize = e.page.toNat / 2 ^ e.logSize

/-- The entry has the permission that an access needs. -/
def atcAllows (e : AtcEntry) (write : Bool) : Bool := if write then e.w else e.r

/-- The request with its translated address. -/
def atcApply (e : AtcEntry) (r : Req) : Req :=
  { r with
    busAddr := w64 (e.frame.toNat / 2 ^ e.logSize * 2 ^ e.logSize + r.addr.toNat % 2 ^ e.logSize), translated := true
    pageLog := e.logSize }

/-- A translation request is outstanding for the page (4 KiB) of a request. -/
def atsShared (s : State) (r : Req) : Bool :=
  s.ai.atsOut.any (fun kv => match kv.2 with
    | some a => !a.dropped && a.func = r.func && a.pv = r.pv && a.pasid = r.pasid && a.addr.toNat / 4096 = r.addr.toNat / 4096
    | none => false)

/-- The lowest free translation tag of 64. -/
def freeAts (s : State) : Option Nat := (List.range 64).find? (fun t => tget none s.ai.atsOut t = none)

/-- A miss asks for a translation unless one is outstanding for its page or all 64 are in use. -/
def atsAsk (s : State) (r : Req) : State :=
  if atsShared s r then s
  else match freeAts s with
    | none => s
    | some t =>
      upAi s (fun a => { a with
        atcMisses := a.atcMisses + 1
        atsOut := tset none a.atsOut t (some { func := r.func, pv := r.pv, pasid := r.pasid, write := r.write, addr := r.addr }) })

/-- Look the request up: a hit goes to its port, a miss waits. -/
def translate (s : State) (r : Req) : State :=
  match s.ai.atc.find? (fun e => atcMatches e r.func r.pv r.pasid r.addr.toNat && atcAllows e r.write) with
  | some e =>
    queueReq (upAi s (fun a => { a with atcHits := a.atcHits + 1, atc := e :: a.atc.erase e })) (atcApply e r)
  | none => atsAsk (upAi s (fun a => { a with untranslated := a.untranslated ++ [r] })) r

/-- A request takes the path of its address space. -/
def routeReq (s : State) (r : Req) : State :=
  if r.spaceLocal || !s.ai.ats then queueReq s r else translate s r

/-! ### Accesses -/

/-- The request for one part of an access. -/
def partReq (id : Nat) (a : FabAttr) (base : Nat) (data : Option (List Byte)) (part : Nat × Nat) : Req :=
  { access := id, write := data.isSome, addr := w64 part.1, busAddr := w64 part.1, len := part.2, spaceLocal := a.spaceLocal
    func := a.func, pv := a.pv, pasid := a.pasid, ns := a.ns, rlx := a.rlx, prio := a.prio
    data := slice (data.getD []) (part.1 - base) part.2, beats := beatsOf part.1 part.2 }

/-- Make an access of `len` bytes at `addr`: a write of `data`, or a read. -/
def issueAccess (s : State) (who : Requester) (a : FabAttr) (addr : W64) (len : Nat) (data : Option (List Byte)) : State :=
  let id := s.ai.nextAccess
  let parts := splitKiB (len / 1024 + 2) addr.toNat len
  if parts.isEmpty then s
  else
    let acc : Access := { who := who, ring := a.ring, write := data.isSome, spaceLocal := a.spaceLocal, addr := addr,
                          left := parts.length, len := len, bells := a.bells }
    let s := upAi s (fun x => { x with accesses := tset none x.accesses id (some acc), nextAccess := id + 1 })
    pump ((parts.map (partReq id a addr.toNat data)).foldl routeReq s)

/-- The lower-addressed of two failing parts (R352). -/
def lowerFail (a b : Option (Nat × Status)) : Option (Nat × Status) :=
  match a, b with
  | none, y => y
  | x, none => x
  | some x, some y => if y.1 < x.1 then some y else some x

/-- One part of access `id` has ended, with its failure if it failed, by an answer (`cause` 1) or a write-off (2); the access is answered once
every part has ended. -/
def partEnd (s : State) (id : Nat) (fail : Option (Nat × Status)) (cause : Nat) : State × Option Access :=
  match tget none s.ai.accesses id with
  | none => (s, none)
  | some a =>
    let worst := lowerFail a.fail fail
    let a' := { a with left := a.left - 1, fail := worst, cause := if worst = a.fail then a.cause else cause }
    if a.left ≤ 1 then (upAi s (fun x => { x with accesses := tset none x.accesses id none }), some a')
    else (upAi s (fun x => { x with accesses := tset none x.accesses id (some a') }), none)

/-- Bytes of a read beat join the data of their access. -/
def partData (s : State) (id : Nat) (addr : Nat) (bytes : List Byte) : State :=
  upAi s (fun x => { x with accesses := tmod none x.accesses id (fun o => o.map (fun a =>
    { a with data := tfill 0 a.data (addr - a.addr.toNat) bytes })) })

/-- The bytes that a finished read returned. -/
def accessBytes (a : Access) : List Byte := tread 0 a.data 0 a.len

/-- The requester of access `id` satisfies `p`. -/
def accessIs (s : State) (p : Access → Bool) (id : Nat) : Bool :=
  match tget none s.ai.accesses id with
  | some a => p a
  | none => false

/-- Requests not yet issued, of accesses that satisfy `p`, are withdrawn; an access none of whose parts is outstanding is gone. -/
def withdraw (s : State) (p : Access → Bool) : State :=
  let drop := fun (q : List Req) => q.filter (fun r => accessIs s p r.access)
  let keep := fun (q : List Req) => q.filter (fun r => !accessIs s p r.access)
  let gone := drop s.ai.untranslated ++ (([0, 1, 2, 3].map (fun k => drop (getPort s k).queue)).flatten)
  let s := forAll [0, 1, 2, 3] (fun s' k => modPort s' k (fun pr => { pr with queue := keep pr.queue })) s
  let s := upAi s (fun a => { a with untranslated := keep a.untranslated })
  gone.foldl (fun s r => (partEnd s r.access none 1).1) s

/-- AI_ATC_CMD is done once no read uses the entries it invalidated (Table 15.10). -/
def atcCommandEnd (s : State) : State :=
  if s.ai.invs.any (fun v => v.itag = none && v.uses = []) then
    upAi s (fun a => { a with
      invs := a.invs.filter (fun v => !(v.itag = none && v.uses = [])), atcBusy := false, atcResult := Status.done.code
      atcInvals := a.atcInvals + 1 })
  else s

/-- A read no longer holds its tag: its use of the translation cache is over (R363 step 3). -/
def endUse (s : State) (port tag : Nat) : State :=
  atcCommandEnd (upAi s (fun a => { a with invs := a.invs.map (fun v => { v with uses := v.uses.filter (fun u => u ≠ (port, tag)) }) }))

end Sys2Proof.Machine
end

