-- ==== Sys2Proof/Machine/KeyOps.lean ====
section
/-! DEFINITION. The Serai's slots (R209 to R219), the Mint's derivations (R177, R179), tenant records (R182) and bales (R188 to R194):
the shared operations that KEY, PUT, DERIVE, the fills and the flushes use. -/

namespace Sys2Proof.Machine

/-! ### Slots and masks -/

/-- The mask of a slot's group (R221). -/
def maskOf (s : State) (slot : Nat) : W512 := tget 0 s.serai.masks (slot / 64)

/-- The key in a slot: the stored material without its mask (R221). -/
def slotKey (s : State) (slot : Nat) : List Byte := leBytes 64 ((getSlot s slot).material ^^^ maskOf s slot).toNat

/-- Material as stored in a slot for a key, padded with zero (R221). -/
def maskedKey (s : State) (slot : Nat) (key : List Byte) : W512 := BitVec.ofNat 512 (ofLe (padTo 64 key)) ^^^ maskOf s slot

/-- The slot becomes FREE: its material is zero and its generation is one more (Table 8.1). -/
def freeSlot (s : State) (slot : Nat) : State := modSlot s slot (fun r => { gen := r.gen + 1 })

/-- R224: a flush frees a slot without leases and retires a leased one (R218). -/
def flushSlot (s : State) (slot : Nat) : State :=
  if (getSlot s slot).leases = 0 then freeSlot s slot else modSlot s slot (fun r => { r with kind := .retired })

/-- Flush every listed slot that satisfies `p`. -/
def flushWhere (s : State) (p : Nat → SlotRec → Bool) : State := forAll (tkeys p s.serai.slots) flushSlot s

/-- A lease is issued on a slot (R217). -/
def takeLease (s : State) (slot : Nat) : State :=
  upSerai (modSlot s slot (fun r => { r with leases := r.leases + 1 })) (fun x => { x with leaseIssued := x.leaseIssued + 1 })

/-- A lease is returned (R217): a RETIRED or PRIVATE slot becomes FREE when its last lease is returned (Table 8.2). The leases of
a DEAD slot are written off by Recovery only (R227). -/
def returnLease (s : State) (slot : Nat) : State :=
  let r := getSlot s slot
  if r.kind = .dead || r.leases = 0 then s
  else
    let s := upSerai (modSlot s slot (fun r => { r with leases := r.leases - 1 })) (fun x => { x with leaseReturned := x.leaseReturned + 1 })
    if r.leases = 1 && (r.kind = .retired || r.kind = .privateKey) then freeSlot s slot else s

/-- SER_LEASES: the sum of the LEASES fields (R220). -/
def leasesOut (s : State) : Nat := (s.serai.slots.map (fun kv => kv.2.leases)).sum

/-- The Serai's LEASE_WOFF record (Table 14.6): the count, and in the third word the cause; a code of the cause is free. -/
def seraiWoff (s : State) (n cause : Nat) : State := emit s 4 0x305 0 [0, w32 n, w32 (2 ^ 20 * (Config.leaseCause cause % 16))]

/-- The device-internal indices of R179. -/
def idxKek (t : Nat) : Nat := t
/-- CK-E. -/
def idxCkE (t : Nat) : Nat := 0x010000 + t
/-- CK-T. -/
def idxCkT (t : Nat) : Nat := 0x020000 + t
/-- The tenant record. -/
def idxRecord (t : Nat) : Nat := 0x030000 + t

/-- R211: the set of a triple. -/
def setOf (s : State) (kind : SlotKind) (tenant index : Nat) : Nat := Config.setHash s.serai.hkey kind.code tenant index % 4088

/-- The eight ways of a set (R209). -/
def waysOf (set : Nat) : List Nat := (List.range 8).map (fun w => 8 * set + w)

/-- The flush command in progress covers a triple held with this epoch (R225); `cur` is the epoch of the resident record. -/
def flushCovers (f : FlushOp) (kind : SlotKind) (tenant : BitVec 12) (index : BitVec 24) (epoch : Byte) (cur : Option Byte) : Bool :=
  match f with
  | .entry t i => kind = .tenant && tenant = t && index = i
  | .tenant t => (kind = .tenant || kind = .internal) && tenant = t
  | .stale t => kind = .tenant && tenant = t && (match cur with
    | some e => epoch ≠ e
    | none => true)
  | .all => kind = .tenant || kind = .internal

/-! ### Tenant records (Table 7.2) -/

/-- The fields of a tenant record. -/
structure TenantRec where
  ktv : Bool := false
  logSize : Nat := 0
  epoch : W32 := 0
  base : W64 := 0
  spaceLocal : Bool := false
  pv : Bool := false
  func : W16 := 0
  pasid : BitVec 20 := 0
  deriving DecidableEq, Repr

/-- The record that 64 bytes spell. -/
def parseRecord (bs : List Byte) : TenantRec :=
  { ktv := ofLe (slice bs 2 1) ≠ 0, logSize := ofLe (slice bs 3 1), epoch := w32 (ofLe (slice bs 4 4)), base := w64 (ofLe (slice bs 8 8))
    spaceLocal := ofLe (slice bs 16 1) ≠ 0, pv := ofLe (slice bs 17 1) ≠ 0, func := BitVec.ofNat 16 (ofLe (slice bs 18 2))
    pasid := BitVec.ofNat 20 (ofLe (slice bs 20 4)) }

/-- Bytes 0 to 47 of a tenant's record in tally version `ver`. -/
def recordBody (t : Nat) (r : TenantRec) (ver : Nat) : List Byte :=
  leBytes 2 t ++ leBytes 1 r.ktv.toNat ++ leBytes 1 r.logSize ++ leBytes 4 r.epoch.toNat ++ leBytes 8 r.base.toNat ++
  leBytes 1 r.spaceLocal.toNat ++ leBytes 1 r.pv.toNat ++ leBytes 2 r.func.toNat ++ leBytes 4 r.pasid.toNat ++ leBytes 8 ver ++ zeros 16

/-- The record's TAG under the tally key. -/
def recordTag (s : State) (body : List Byte) : List Byte :=
  stdBytes (.kmac256 "SPN-TALLY") [leBytes 32 s.mint.tk.toNat, body] 16

/-- R182: the checks of a tenant record as read. -/
def recordOk (s : State) (t : Nat) (bs : List Byte) : Bool :=
  let b := fun o n => ofLe (slice bs o n)
  decide (bs.length = 64) && slice bs 48 16 = recordTag s (bs.take 48) && b 0 2 = t && b 24 8 = s.watch.box.ver.toNat &&
  b 20 4 < 2 ^ 20 && b 32 16 = 0 && b 2 1 ≤ 1 && b 16 1 ≤ 1 && b 17 1 ≤ 1 &&
  (if b 2 1 = 1 then decide (6 ≤ b 3 1) && decide (b 3 1 ≤ 24) && decide (b 8 8 % 4096 = 0)
   else b 3 1 = 0 && b 8 8 = 0 && b 16 1 = 0 && b 17 1 = 0 && b 18 2 = 0 && b 20 4 = 0)

/-- The ways of a triple's set that match it and that no flush in progress covers (R213, R225); `cur` is the tenant's epoch where the
lookup knows it. -/
def matchSlots (s : State) (kind : SlotKind) (tenant : BitVec 12) (index : Nat) (cur : Option Byte) : List Nat :=
  (waysOf (setOf s kind tenant.toNat index)).filter (fun k =>
    let r := getSlot s k
    r.kind = kind && r.tenant = tenant && r.index.toNat = index &&
    !(match s.serai.flush with
      | some f => flushCovers f kind tenant r.index r.epoch cur
      | none => false))

/-- The slot of a device-internal triple, the lowest that matches. -/
def residentSlot (s : State) (t : BitVec 12) (index : Nat) : Option Nat := (matchSlots s .internal t index none).head?

/-- The resident tenant record (R182); while the tally version is 0 every tenant has epoch 0 and no key table. -/
def tenantRecord (s : State) (t : BitVec 12) : Option TenantRec :=
  if s.watch.box.ver = 0 then some {} else (residentSlot s t (idxRecord t.toNat)).map (fun k => parseRecord (slotKey s k))

/-- The epoch that a FLUSH_STALE compares with: that of the resident tenant record (Table 8.4). -/
def flushCur (s : State) (f : FlushOp) : Option Byte :=
  match f with
  | .stale t => (tenantRecord s t).map (fun q => BitVec.ofNat 8 q.epoch.toNat)
  | _ => none

/-- The address of a tenant's record in the current tally slot (R181). -/
def recordAddr (s : State) (t : Nat) : W64 :=
  s.mint.tallyAddr + w64 ((s.watch.box.ver.toNat % 2) * 0x40000 + 64 * t)

/-- An owner secret is held (FLAGS bit 0 of the Strongbox). -/
def ownerHeld (s : State) : Bool := tb s.watch.box.flags 0

/-! ### Choosing a slot (R215, R216) -/

/-- The group of a set has an aged mask and no fresh one yet: a fill waits (R223). -/
def setAged (s : State) (set : Nat) : Bool := tget false s.serai.aged (set / 8)

/-- A way that a fill may evict: an unleased TENANT or INTERNAL one. -/
def evictable (r : SlotRec) : Bool := (r.kind = .tenant || r.kind = .internal) && r.leases = 0

/-- The set has a way for a fill: one that is FREE or may be evicted. The others are leased or DEAD. -/
def hasWay (s : State) (set : Nat) : Bool := (waysOf set).any (fun k => (getSlot s k).kind = .free || evictable (getSlot s k))

/-- What the choice of a way meets. -/
inductive WayRes where
  | way (slot : Nat) (s : State)
  /-- the fill waits: for replacement bits (R282), or for the fresh mask of its group (R223) -/
  | waits (bits : Bool)
  /-- the set has no way -/
  | none

/-- Replacement bits (R215): those granted already, or zero, the lowest way, when the Well is FAILED. -/
def evictBits (s : State) : Option (Nat × State) :=
  match s.serai.bits with
  | b :: bs => some (b, upSerai s (fun x => { x with bits := bs }))
  | [] =>
    if !wellCan s then some (0, wellDeny s) else none

/-- The way of a set that a fill writes: the lowest FREE way, otherwise one that may be evicted, chosen by the Well's bits; the key it held
is evicted (R215). -/
def fillWay (s : State) (set : Nat) : WayRes :=
  let ev := (waysOf set).filter (fun k => evictable (getSlot s k))
  if !hasWay s set then .none
  else if setAged s set then .waits false
  else match (waysOf set).find? (fun k => (getSlot s k).kind = .free) with
    | some k => .way k s
    | Option.none =>
      match evictBits s with
      | Option.none => .waits true
      | some (b, s) =>
        let k := ev.getD (b % ev.length) 0
        .way k (upSerai (freeSlot s k) (fun x => { x with evictions := x.evictions + 1 }))

/-- The first set with a way, beginning with `set` (R216). -/
def privateSet : Nat → State → Nat → Option Nat
  | 0, _, _ => none
  | fuel + 1, s, set => if hasWay s set then some set else privateSet fuel s ((set + 1) % 4088)

/-- R216: a way for a PRIVATE or HOLDING slot, from the rotating pointer on; the pointer then stands one set further. -/
def privateWay (s : State) : WayRes :=
  match privateSet 4088 s (s.serai.pointer % 4088) with
  | Option.none => .none
  | some set =>
    match fillWay s set with
    | .way k s => .way k (upSerai s (fun x => { x with pointer := (set + 1) % 4088 }))
    | w => w

/-- The Serai's replacement draw joins the draws of class 4, unless it waits among them already (R282). -/
def askBits (s : State) : State :=
  if s.well.draws.any (fun d => d.who = .replacement) then s
  else askDraw s 4 .replacement 4

/-- What waits for a way does so in the state `s` that it found. -/
def waitWay (s : State) (bits : Bool) : State := if bits then askBits s else s

/-- Go on with a way. While the fill waits nothing of it has happened: `s0` is the state before it. -/
def withWay (s0 : State) (w : WayRes) (no : State) (k : Nat → State → State) : State :=
  match w with
  | .way slot s => k slot s
  | .waits bits => waitWay s0 bits
  | .none => no

/-- Write a slot: metadata with the slot's own generation, and the key under the group's mask. -/
def fillSlot (s : State) (slot : Nat) (r : SlotRec) (key : List Byte) : State :=
  modSlot s slot (fun old => { r with gen := old.gen, material := maskedKey s slot key })

/-! ### Counter-mode KDF (R99, R177) -/

/-- The counter-mode KDF of SP 800-108 with a PRF of `h` bytes: `n` bytes. A 32-bit big-endian counter from 1 precedes the input, and the
output length in bits follows it. -/
def counterKdf (prf : List Byte → List Byte) (h n : Nat) (input : List Byte) : List Byte :=
  ((List.range ((n + h - 1) / h)).flatMap (fun k => prf (beBytes 4 (k + 1) ++ input ++ beBytes 4 (8 * n)))).take n

/-- The ASCII bytes of a label. -/
def labelBytes (label : String) : List Byte := label.toList.map (fun c => BitVec.ofNat 8 c.toNat)

/-- KDF108 of R177: HMAC-SHA-384 (KDF 0x0A of Table 4.5) over label, a zero byte and context. -/
def kdf108 (key : List Byte) (label : String) (context : List Byte) (n : Nat) : List Byte :=
  counterKdf (fun m => stdBytes (.prf 0x0A) [key, m] 48) 48 n (labelBytes label ++ [0] ++ context)

/-! ### Device-internal keys (R177, R179) -/

/-- KEK(t, e) of Table 7.1. -/
def deriveKek (s : State) (t : Nat) (e : W32) : List Byte :=
  kdf108 (leBytes 48 s.mint.okey.toNat) "SPN-KEK" (leBytes 2 t ++ leBytes 4 e.toNat) 32

/-- A SERAI_SLOT record (R213, R218, R219, R227). -/
def seraiRecord (s : State) (slot cause : Nat) (code : W16) : State :=
  let r := getSlot s slot
  emit s 4 0x303 code [w32 (slot + 2 ^ 15 * r.kind.code + 2 ^ 18 * cause), w32 r.tenant.toNat, w32 r.index.toNat]

/-- R219: several ways match one triple: each has its record and is invalidated. -/
def conflictSlots (s : State) (ms : List Nat) : State :=
  upSerai (forAll ms (fun s k => flushSlot (seraiRecord s k 1 Status.keyConflict.code) k) s) (fun x => { x with conflicts := x.conflicts + 1 })

/-- A key register's use of a slot that ends at once: its lease is issued and returned (R217). -/
def briefLease (s : State) : State :=
  upSerai s (fun x => { x with leaseIssued := x.leaseIssued + 1, leaseReturned := x.leaseReturned + 1 })

/-- What the use of a device-internal key meets. -/
inductive Use where
  | got (key : List Byte) (s : State)
  | waits (bits : Bool)
  | fails (st : Status) (s : State)

/-- A job-private slot takes a key of a set without a way (R215), and is freed with the end of the use. -/
def briefPrivate (s : State) (key : List Byte) : Use :=
  match privateWay s with
  | .way k s => .got key (briefLease (upSerai (freeSlot s k) (fun x => { x with overflows := x.overflows + 1 })))
  | .waits b => .waits b
  | .none => .fails .storageFault s

/-- Use a device-internal key (R179): a hit, or a fill with what `mk` derives; the lease ends with the use (R217). Two ways that match are
a conflict (R219), and while a flush covers the triple a fill of it waits (R225). -/
def useInternal (s : State) (t : BitVec 12) (index : Nat) (mk : List Byte) : Use :=
  match matchSlots s .internal t index none with
  | [k] => .got ((slotKey s k).take (getSlot s k).klen) (briefLease (upSerai s (fun x => { x with hits := x.hits + 1 })))
  | [] =>
    if s.serai.flush.any (fun f => flushCovers f .internal t (BitVec.ofNat 24 index) 0 none) then .waits false
    else
      let s := upSerai s (fun x => { x with misses := x.misses + 1 })
      match fillWay s (setOf s .internal t.toNat index) with
      | .way k s =>
        .got mk (briefLease (fillSlot s k { index := BitVec.ofNat 24 index, tenant := t, kind := .internal, notAfter := 0xFFFFFFFFFF#40
                                            klen := mk.length } mk))
      | .waits b => .waits b
      | .none => briefPrivate s mk
  | ms => .fails .keyConflict (conflictSlots s ms)

/-- One use after another. -/
def bindUse (u : Use) (f : List Byte → State → Use) : Use :=
  match u with
  | .got key s => f key s
  | u => u

/-- The tenant's KEK under its current epoch. -/
def useKek (s : State) (t : BitVec 12) (e : W32) : Use := useInternal s t (idxKek t.toNat) (deriveKek s t.toNat e)

/-- CK-E ‖ CK-T (R162, R179); the KEK from which they come is used when one of them is not resident. -/
def useCtxKeys (s : State) (t : BitVec 12) (e : W32) : Use :=
  let have_ := fun (i : Nat) => (residentSlot s t i).isSome
  bindUse (if have_ (idxCkE t.toNat) && have_ (idxCkT t.toNat) then .got [] s else useKek s t e) (fun kek s =>
  bindUse (useInternal s t (idxCkE t.toNat) (kdf108 kek "SPN-CK-E" [] 32)) (fun cke s =>
  bindUse (useInternal s t (idxCkT t.toNat) (kdf108 kek "SPN-CK-T" [] 32)) (fun ckt s => .got (cke ++ ckt) s)))

/-! ### Bales (R188 to R194) -/

/-- Key lengths of Table 4.3 for a short bale; none: no such short form. -/
def shortLenOk (ktype klen : Nat) : Bool :=
  match ktype with
  | 0x01 => klen = 16
  | 0x02 => klen = 24
  | 0x03 => klen = 32
  | 0x04 => klen = 32
  | 0x05 => klen = 64
  | 0x06 => klen = 32
  | 0x07 => klen = 16
  | 0x08 => klen = 32
  | 0x09 => klen = 48
  | 0x0A => klen = 64
  | 0x0B => klen = 32
  | 0x0C => klen = 32
  | 0x0D => klen = 48
  | 0x0E => klen = 64
  | 0x10 => klen = 32
  | 0x11 => klen = 48
  | 0x13 => klen = 32
  | 0x14 => klen = 57
  | 0x15 => klen = 32
  | 0x16 => klen = 56
  | 0x19 => klen = 64
  | 0x1A => klen = 32
  | 0x1C => klen = 32 || klen = 48 || klen = 64
  | 0x20 => 32 ≤ klen && klen ≤ 64
  | _ => false

/-- The length of a derivable key type (Table 4.3). -/
def ktypeLen (ktype : Nat) : Nat := ((List.range 65).find? (fun n => shortLenOk ktype n)).getD 0

/-- Sizes of Table 10.1: the ML-KEM decapsulation key and the ML-DSA expanded private key of a set. -/
def dkSize (set : Nat) : Nat := if set = 1 then 1632 else if set = 2 then 2400 else 3168
/-- See `dkSize`. -/
def skSize (set : Nat) : Nat := if set = 1 then 2560 else if set = 2 then 4032 else 4896

/-- Long forms (R189, R190, Tables 4.3 and 10.2). -/
def longLenOk (ktype len : Nat) : Bool :=
  8 ≤ len && len ≤ 16384 && len % 8 = 0 &&
  (match ktype with
   | 0x12 => true
   | 0x18 => true
   | 0x19 => len = dkSize 1 || len = dkSize 2 || len = dkSize 3
   | 0x1B => len = skSize 1 || len = skSize 2 || len = skSize 3
   | _ => false)

/-- Step 5 of Table 7.4 on the 32 header bytes. -/
def headerOk (h : List Byte) (long : Bool) : Bool :=
  let b := fun o n => ofLe (slice h o n)
  (if long then decide (b 0 1 = 2) && decide (b 5 1 = 0) && longLenOk (b 1 1) (b 26 4)
   else decide (b 0 1 = 1) && decide (b 26 4 = 0) && shortLenOk (b 1 1) (b 5 1)) &&
  b 2 2 < 32768 && !tb (w32 (b 2 2)) 7 && b 6 2 < 4096 && b 15 1 = 0 && b 30 2 = 0

/-- The slot metadata that a bale's header gives (Table 8.1). -/
def headerSlot (h : List Byte) : SlotRec :=
  let b := fun o n => ofLe (slice h o n)
  { index := BitVec.ofNat 24 (b 12 3), tenant := BitVec.ofNat 12 (b 6 2), kind := .tenant, epoch := BitVec.ofNat 8 (b 8 4)
    usage := BitVec.ofNat 15 (b 2 2), ktype := BitVec.ofNat 6 (b 1 1), algLock := BitVec.ofNat 8 (b 4 1)
    notAfter := BitVec.ofNat 40 (b 21 5), klen := b 5 1 }

/-- Step 9 of Table 7.4: the window holds now; while the time is not set only an unlimited window does. The value 0xFF_FFFF_FFFF, which
Table 7.3 calls no upper limit, is compared like any other, as R194 has it, so it ends where the Almanac passes 2^40 s (DESIGN CHOICE, log
entry 69). -/
def windowOk (isSet : Bool) (now nb na : Nat) : Bool :=
  if isSet then nb ≤ now && now ≤ na else nb = 0 && na = 0xFFFFFFFFFF

/-- Now, for a lane (R333): the lane domain's copy. -/
def laneWindowOk (s : State) (nb na : Nat) : Bool := windowOk s.almanac.snapSet s.almanac.snap.sec.toNat nb na

/-- Steps 5 to 7 and 9 of Table 7.4 for a bale whose header is `h` (step 8 between them), in order; none: all pass. -/
def baleFault (s : State) (h : List Byte) (long : Bool) (t : BitVec 12) (index : Nat) (epoch : W32) (tagOk : Bool) : Option Status :=
  let b := fun o n => ofLe (slice h o n)
  if !headerOk h long then some .baleInvalid
  else if !(b 6 2 = t.toNat && b 12 3 = index) then some .baleForeign
  else if b 8 4 < epoch.toNat then some .baleRevoked
  else if epoch.toNat < b 8 4 then some .baleInvalid
  else if !tagOk then some .baleInvalid
  else if !laneWindowOk s (b 16 5) (b 21 5) then some .baleExpired
  else none

/-- A KEY ending with a bale status counts in MI_BALEFAIL (Table 7.10). -/
def countBaleFail (s : State) (st : Status) : State :=
  if st = .baleInvalid || st = .baleForeign || st = .baleExpired || st = .baleRevoked then
    upMint s (fun m => { m with baleFail := m.baleFail + 1 })
  else s

/-- A BALE_REJECT record (R182, R194). -/
def baleReject (s : State) (st : Status) (t : BitVec 12) (index : Nat) (addr : W64) : State :=
  emit s 5 0x301 st.code (w32 t.toNat :: w32 index :: loHi addr)

/-- A GEN fault (R218): its record, and its count (Table 8.6). -/
def genFault (s : State) (slot : Nat) : State :=
  upSerai (seraiRecord s slot 2 Status.keyConflict.code) (fun x => { x with conflicts := x.conflicts + 1 })

/-! ### Lookup (R213) -/

/-- The result of a lookup. -/
inductive Lookup where
  | miss
  | hit (slot : Nat)
  | conflict
  deriving DecidableEq, Repr

/-- Look up (TENANT, index) under the tenant's current epoch: a stale match is flushed with a record and misses, two matches are
a conflict, which invalidates each (R219). -/
def lookupKey (s : State) (t : BitVec 12) (index : Nat) (epoch : W32) : Lookup × State :=
  let cur := BitVec.ofNat 8 epoch.toNat
  match matchSlots s .tenant t index (some cur) with
  | [] => (.miss, upSerai s (fun x => { x with misses := x.misses + 1 }))
  | [k] =>
    if (getSlot s k).epoch = cur then (.hit k, upSerai s (fun x => { x with hits := x.hits + 1 }))
    else (.miss, upSerai (flushSlot (seraiRecord s k 0 0) k) (fun x => { x with misses := x.misses + 1 }))
  | ms => (.conflict, conflictSlots s ms)

/-- The reference that a key register records (R61, R213). -/
def keyRefOf (s : State) (slot : Nat) : KeyRef :=
  let r := getSlot s slot
  { slot := slot, tenant := r.tenant, usage := r.usage.setWidth 16, gen := r.gen.setWidth 32 }

/-- R218: the slot's GEN and TENANT still equal those in the register. -/
def keyRefOk (s : State) (k : KeyRef) : Bool :=
  let r := getSlot s k.slot
  r.gen.setWidth 32 = k.gen && r.tenant = k.tenant && r.kind ≠ .dead && r.kind ≠ .free

/-- The job-private slot `k` takes a key (R61, R216) and is leased. `r` gives KTYPE, USAGE and the limits. -/
def fillPrivate (s : State) (k : Nat) (t : BitVec 12) (kind : SlotKind) (len lane engine : Nat) (r : SlotRec) (key : List Byte) : State :=
  takeLease (fillSlot s k { r with kind := kind, tenant := t, epoch := 0
                                   index := BitVec.ofNat 24 (len + 256 * lane + 65536 * engine), leases := 0
                                   klen := len, held := decide (kind = .holding) } key) k

/-! ### Key registers of a job -/

/-- Key register `n` of job `j`. -/
def keyReg (s : State) (j n : Nat) : Option KeyRef := tget none (getJob s j).keys n

/-- Release what key register `n` holds (R61). -/
def releaseKey (s : State) (j n : Nat) : State :=
  match keyReg s j n with
  | some k => modJob (returnLease s k.slot) j (fun x => { x with keys := tset none x.keys n none })
  | none => s

/-- Load key register `n` with a slot whose lease is already taken: what it held is released first (R61). -/
def loadKey (s : State) (j n slot : Nat) : State :=
  let s := releaseKey s j n
  modJob s j (fun x => { x with keys := tset none x.keys n (some (keyRefOf s slot)) })

/-- The lease of a tenant record's slot that the job's waiting instruction was given is returned (R217). -/
def returnLent (s : State) (j : Nat) : State :=
  match tget none s.mint.lent j with
  | some k => upMint (returnLease s k) (fun m => { m with lent := tset none m.lent j none })
  | none => s

/-- Release all four key registers (R82 step 2). -/
def releaseKeys (s : State) (j : Nat) : State := forAll [0, 1, 2, 3] (fun s n => releaseKey s j n) s

end Sys2Proof.Machine
end

