-- ==== Sys2Proof/Machine/EngineOps.lean ====
section
/-! DEFINITION. Shared operations of the Well (R282, R283), the Tollgate (R290 to R297), the Counting House (R233 to R248) and the
Scales (R266 to R270) that do not touch a job. -/

namespace Sys2Proof.Machine

/-! ### Well -/

/-- A change of the Well's state requests vector 25 if WL_IRQ.EN is set; entry into FAILED clears the generator (R278). -/
def wellSetState (s : State) (st : WellState) : State :=
  let changed := decide (s.well.state ≠ st)
  let s := upWell s (fun w => { w with state := st })
  let s := whenS (st = .failed) (fun s => upWell s (fun w => { w with
    level := 0, genCalls := 0, genLeft := 0, input := [], inputOf := 0, inputNow := 0, drbg := [], gens := [], reseed := none })) s
  whenS (changed && s.well.irqEn) (fun s => irqBlock s 25) s

/-! ### Holds of engines (R435) -/

/-- Ration's duty holds engine `e` off at this moment, benches 0 to 7 and then contexts 8 to 11: under the duty E an engine runs
E·1,500/64 of the epoch's 1,500 public-key cycles. Where its run starts is free (DESIGN CHOICE, log entry 7). -/
def engineHeld (s : State) (e : Nat) : Bool :=
  1500 * s.ration.dutyE.toNat ≤ 64 * ((3 * s.ration.phase + 1500 - Config.engineStart e % 1500) % 1500)

/-! ### Tollgate -/

/-- Table 12.1: the block of the tail rule. -/
def tgBlock (alg : Nat) : Nat :=
  match alg with
  | 0x21 => 64
  | 0x22 => 128
  | 0x23 => 128
  | 0x25 => 136
  | 0x26 => 104
  | 0x27 => 72
  | 0x2A => 64
  | _ => 0

/-- Table 12.1: the digest length. -/
def tgDigestLen (alg : Nat) : Nat :=
  match alg with
  | 0x21 => 32
  | 0x22 => 48
  | 0x23 => 64
  | 0x25 => 32
  | 0x26 => 48
  | 0x27 => 64
  | 0x2A => 32
  | _ => 0

/-- The context is ARMED or RUNNING. -/
def tgListening (c : TgCtx) : Bool := c.state = .armed || c.state = .running

/-- The context is ARMED, RUNNING or FINISHING. -/
def tgActive (c : TgCtx) : Bool := tgListening c || c.state = .finishing

/-- A context enters ERROR with ERR 1 MISSED, 2 LENGTH or 3 SHORT (Table 12.2): source +3, a TOLLGATE record, and vector 26. -/
def tgError (s : State) (c err : Nat) : State :=
  let s := modTg s c (fun x => { x with state := .error, err := BitVec.ofNat 3 err, snoop := [], fifo := [], busy := 0 })
  let s := whenS (err = 1) (fun s => upTollgate s (fun t => { t with missed := t.missed + 1 })) s
  let s := emit (raise s (64 + 4 * c + 3)) 9 0x501 0 [w32 (2 ^ c + 256 * err)]
  whenS s.tollgate.irqEn (fun s => irqBlock s 26) s

/-- ERR of a clearing event of cause 1 fabric error, 2 timeout, 3 tamper, 4 zeroize, 5 mode entry, 6 Porter buffer (R297). -/
def clearErr (cause : Nat) : BitVec 3 := if cause = 3 ∨ cause = 4 then 5 else if cause = 5 then 6 else 4

/-- One context after a clearing event: configuration, window and position stay (R297). -/
def tgCleared (cause : Nat) (c : TgCtx) : TgCtx :=
  { c with
    stream := [], snoop := [], fifo := [], busy := 0, digest := 0, tail := [], tailLen := 0, expect := 0, count := 0, matched := false, cmpv := false
    state := if c.state = .idle then .idle else .error
    err := if c.state = .idle then c.err else clearErr cause }

/-- A clearing event (R297). -/
def tgClear (s : State) (cause : Nat) : State :=
  let busy := (List.range 8).filter (fun c => (getTg s c).state ≠ .idle)
  let s := forAll (List.range 8) (fun s c => modTg s c (tgCleared cause)) s
  let s := forAll busy (fun s c => raise s (64 + 4 * c + 3)) s
  let s := upTollgate s (fun t => { t with cleared := true, cause := BitVec.ofNat 3 cause, clears := t.clears + 1 })
  let s := whenS (!busy.isEmpty && s.tollgate.irqEn) (fun s => irqBlock s 26) s
  emit s 9 0x501 0 [w32 ((busy.map (fun c => 2 ^ c)).sum + 256 * cause + 2048)]

/-- A context absorbs stream bytes (R288): the first makes an ARMED context RUNNING; a FINISHING one stays so. -/
def tgAbsorb (s : State) (c : Nat) (bs : List Byte) : State :=
  if bs.isEmpty then s
  else
    let s := modTg s c (fun x => { x with
      stream := x.stream ++ bs, count := x.count + w64 bs.length, state := if x.state = .finishing then .finishing else .running })
    upTollgate s (fun t => { t with bytes := t.bytes + w64 bs.length })

/-- R292: a finish request. A window source finishes at once if NEXT = WEND and otherwise ends in ERROR with SHORT. In any other
state than ARMED or RUNNING nothing happens here; the requester logs it. -/
def tgFinish (s : State) (c : Nat) : State :=
  let x := getTg s c
  if !tgListening x then s
  else if x.src = 2 ∧ x.next ≠ x.wend then tgError s c 3
  else modTg s c (fun x => { x with state := .finishing })

/-- Table 12.1: the fabric cycles in which a block is hashed. -/
def tgCycles (alg : Nat) : Nat :=
  match alg with
  | 0x22 => 20
  | 0x23 => 20
  | 0x25 => 12
  | 0x26 => 12
  | 0x27 => 12
  | _ => 16

/-- The bytes that the hash core takes at once: up to the end of its block, and none while it hashes one (Table 12.1). -/
def tgRoom (x : TgCtx) : Nat :=
  if x.busy ≠ 0 then 0 else tgBlock x.alg.toNat - x.stream.length % Nat.max 1 (tgBlock x.alg.toNat)

/-- The bytes of the snoop buffer of a window, at most `fuel`, that are contiguous from NEXT (R290). -/
def tgContig : Nat → TgCtx → List Byte → TgCtx × List Byte
  | 0, x, acc => (x, acc)
  | fuel + 1, x, acc =>
    match tget none x.snoop x.next.toNat with
    | none => (x, acc)
    | some b => tgContig fuel { x with snoop := tset none x.snoop x.next.toNat none, next := x.next + 1 } (acc ++ [b])

/-- What a context takes from its snoop buffer: what is left of the context, and the bytes. -/
def tgTake (x : TgCtx) : TgCtx × List Byte :=
  if x.src = 2 then (if tgListening x then tgContig (tgRoom x) x [] else (x, []))
  else if tgActive x then ({ x with fifo := x.fifo.drop (tgRoom x) }, x.fifo.take (tgRoom x))
  else (x, [])

/-- A context absorbs what its hash core can take (R288, R290); a whole block is then hashed. The end of a window is the end of the source
(R292). -/
def tgFeed (s : State) (c : Nat) : State :=
  let (x, bs) := tgTake (getTg s c)
  if bs.isEmpty then s
  else
    let s := tgAbsorb (modTg s c (fun _ => x)) c bs
    let s := modTg s c (fun y => { y with
      busy := if y.stream.length % Nat.max 1 (tgBlock y.alg.toNat) = 0 then tgCycles y.alg.toNat else 0 })
    let y := getTg s c
    if y.src = 2 && y.auto && y.next = y.wend then tgFinish s c else s

/-- One fabric cycle of a context's hash core. -/
def tgCycle (s : State) (c : Nat) : State :=
  if (getTg s c).busy = 0 then s
  else
    let s := modTg s c (fun x => { x with busy := x.busy - 1 })
    if (getTg s c).busy = 0 then tgFeed s c else s

/-- One byte of a matched read return (R290): none when it misses, beyond NEXT + 511 or with the buffer's 512 bytes all held. A byte that is
held already keeps its first arrival. -/
def tgByte (x : TgCtx) (a : Nat) (b : Byte) : Option TgCtx :=
  if a < x.wstart.toNat ∨ x.wend.toNat ≤ a ∨ a < x.next.toNat then some x
  else if x.next.toNat + 511 < a ∨ 512 ≤ x.snoop.length then none
  else if (tget none x.snoop a).isSome then some x
  else some { x with snoop := tset none x.snoop a (some b) }

/-- The bytes of one read-return beat take their places in the buffer: none when one misses. -/
def tgBytes : TgCtx → Nat → List Byte → Option TgCtx
  | x, _, [] => some x
  | x, a, b :: bs =>
    match tgByte x a b with
    | none => none
    | some x => tgBytes x (a + 1) bs

/-- R290: a window context sees a read return of adapter-local memory. -/
def tgWindow (addr : Nat) (bs : List Byte) (s : State) (c : Nat) : State :=
  let x := getTg s c
  if !(tgListening x && x.src = 2) then s
  else match tgBytes x addr bs with
    | none => tgError s c 1
    | some x' => tgFeed (modTg s c (fun _ => x')) c

/-- Every window context sees the beat. -/
def tgSnoopRead (s : State) (addr : Nat) (bs : List Byte) : State := forAll (List.range 8) (tgWindow addr bs) s

/-- Context `x` watches channel `n`, also while it waits for the end of the transfer to finish (R288, R292). -/
def tgWatches (x : TgCtx) (n : Nat) : Bool := tgActive x && x.src = 1 && x.chan.toNat = n && !x.skip

/-- R288: every context that watches channel `n` sees the bytes that leave its buffer. -/
def tgSnoopPorter (s : State) (n : Nat) (bs : List Byte) : State :=
  forAll (List.range 8) (fun s c =>
    if tgWatches (getTg s c) n then tgFeed (modTg s c (fun x => { x with fifo := x.fifo ++ bs })) c else s) s

/-- R289: a watching context whose buffer has no room for `k` bytes more holds the channel. -/
def tgHolds (s : State) (n k : Nat) : Bool :=
  (List.range 8).any (fun c => tgWatches (getTg s c) n && decide (512 < (getTg s c).fifo.length + k))

/-- A finish request of an agent that is no control port: one that the context ignores is logged (R292). -/
def tgRequest (s : State) (c : Nat) : State :=
  if tgListening (getTg s c) then tgFinish s c
  else refuseCmd s (if Config.sinkPort then .sideband else .host) (0x601020 + 0x200 * c) .accessFault 2

/-- Hashing begins with the next transfer of channel `n` (R288). -/
def tgPorterStart (s : State) (n : Nat) : State :=
  forAll (List.range 8) (fun s c => if (getTg s c).chan.toNat = n then modTg s c (fun x => { x with skip := false }) else s) s

/-- The first completion after the context has absorbed a byte is the end of a Porter source (R292), at which an AUTO context gets a finish
request; a transfer in progress at ARM is over. -/
def tgPorterDone (s : State) (n : Nat) : State :=
  forAll (List.range 8) (fun s c =>
    let x := getTg s c
    if !(x.src = 1 && x.chan.toNat = n) then s
    else if x.skip then modTg s c (fun x => { x with skip := false })
    else if tgActive x && x.count ≠ 0 && !x.srcEnded then
      whenS x.auto (fun s => tgRequest s c) (modTg s c (fun x => { x with srcEnded := true }))
    else s) s

/-! ### Counting House -/

/-- The DIRECT bits in effect: those above the fourth set bit are ignored (Table 9.9). -/
def directBits (v : Nat) : List Nat := ((List.range 8).filter (fun b => v.testBit b)).take 4

/-- Bench `b` is DIRECT (R249). -/
def isDirect (s : State) (b : Nat) : Bool := (directBits s.house.direct.toNat).contains b

/-- A lease is live on the bench: it is pinned (R237). -/
def pinned (s : State) (b : Nat) : Bool := (getBench s b).cells.any (fun kv => kv.2.live)

/-- CH_LEASES: the live leases. -/
def benchLeases (s : State) : Nat :=
  ((List.range 8).map (fun b => ((getBench s b).cells.filter (fun kv => kv.2.live)).length)).sum

/-- A bench runs an operation. -/
def benchBusy (s : State) (b : Nat) : Bool := (getBench s b).run.isSome || (getBench s b).direct.isSome

/-- A LEASE_WOFF record for a bench lease (Table 14.6). -/
def benchWoffRecord (s : State) (b i ring cause : Nat) : State :=
  emit s 6 0x305 0 [1, 1, w32 (b + 8 * i + 256 * (ring % 4096) + 2 ^ 20 * (Config.leaseCause cause % 16))]

/-- A lease is revoked (R246): the cell is zeroed and its generation increments. Causes: 1 expiry, 2 owner change, 3 abort, 4 end of
a holding, 5 ring or function reset, 6 rebinding, 7 epoch change, 8 OWNER_CLEAR, 9 entry or exit of DIRECT, 10 gating, 11 fault, 12
Recovery, 13 zeroize. -/
def revokeLease (s : State) (b i cause : Nat) : State :=
  let c := tget {} (getBench s b).cells i
  let s := modBench s b (fun x => { x with
    cells := tset {} x.cells i { gen := c.gen + 1 }
    mem := tfill 0 x.mem (0xF000 + 128 * i) (zeros 128) })
  let s := upHouse s (fun h => { h with leaseRevoked := h.leaseRevoked + 1 })
  if cause = 13 then s else benchWoffRecord s b i c.ring cause

/-- R196, R270: the Serai slots of a holding on engine `e` (0–7 bench, 8–11 Scales context) are freed with it, and a key register
that named it is empty from then on. -/
def freeHolding (s : State) (e : Nat) : State :=
  let of_ := fun (_ : Nat) (r : SlotRec) => r.isHolding && fld r.index 16 4 = e
  let slots := tkeys of_ s.serai.slots
  if slots.isEmpty then s
  else
  let s := forAll (tkeys (fun _ (_ : Job) => true) s.jobs) (fun s j =>
    forAll [0, 1, 2, 3] (fun s n => if (keyReg s j n).any (fun k => slots.contains k.slot) then releaseKey s j n else s) s) s
  flushWhere s of_

/-- R234: a wipe of bench `b`. -/
def wipeBench (s : State) (b cause : Nat) : State :=
  let live := tkeys (fun _ (c : CellRec) => c.live) (getBench s b).cells
  let s := forAll live (fun s i => revokeLease s b i cause) s
  let rest := (List.range 32).filter (fun i => !live.contains i)
  let s := modBench s b (fun x => { x with
    mem := [], owner := .none, holder := none, holdLen := 0, holdType := 0
    cells := rest.foldl (fun t i => tmod {} t i (fun c => { c with gen := c.gen + 1 })) x.cells })
  let s := freeHolding s b
  raise (upHouse s (fun h => { h with wipes := h.wipes + 1 })) (96 + 4 * b + 2)

/-- The end of an operation on bench `b` (R18, R251): counters, source +0 or +1, and the vector. -/
def benchEnded (s : State) (b : Nat) (direct : Bool) (st : Status) : State :=
  let s := modBench (unitEnding s (benchUnit b) st) b (fun x => { x with endedAt := some s.cycle, endedJob := none })
  let s := upHouse s (fun h => { h with opsEnded := h.opsEnded + 1 })
  let s := raise s (96 + 4 * b + if st = .done then 0 else 1)
  whenS (if direct then s.house.irqDirect else s.house.irqQueued) (fun s => irqBlock s (16 + b)) s

/-- R248: what bench `b` runs stops, for row `row` of Table 9.6. The requesting job is the caller's. -/
def stopBench (s : State) (b row : Nat) : State :=
  let x := getBench s b
  let s := modBench (dropDraws s (Drawer.onBench b)) b (fun x => { x with run := none, direct := none })
  let s := modUnit s (benchUnit b) (fun u => { u with preempts := u.preempts + 1 })
  let s := emit s 6 0x401 Status.pkAborted.code [w32 b, w32 row]
  benchEnded s b x.direct.isSome .pkAborted

/-- R248: an abort of what bench `b` runs; the wipe follows. -/
def abortBench (s : State) (b row : Nat) : State :=
  wipeBench (stopBench s b row) b (if row = 5 then 11 else if row = 3 then 12 else if row = 1 then 5 else 3)

/-- An operation of the bench ended in this control cycle: an abort that comes in it still wipes the bench (R247), so the next request
starts in a later one. -/
def benchJust (s : State) (b : Nat) : Bool := (getBench s b).endedAt = some s.cycle

/-- The wipe after an abort for row `row` of Table 9.6 that meets the end of an operation of job `j` in one control cycle: the completion
stands (R247). -/
def wipeEnded (s : State) (j row : Nat) : State :=
  forAll ((List.range 8).filter (fun b => benchJust s b && (getBench s b).endedJob = some j)) (fun s b =>
    wipeBench (modBench s b (fun x => { x with endedJob := none })) b (if row = 3 then 12 else if row = 1 then 5 else 3)) s

/-- PIN_EFF (R238). -/
def pinEff (s : State) : Nat :=
  Nat.min (capAt 6 s.house.pinMax.toNat) (6 - (directBits s.house.direct.toNat).length)

/-- Benches that are pinned, held, or about to be pinned by a running FN 0x28. -/
def boundBenches (s : State) : Nat :=
  ((List.range 8).filter (fun b => pinned s b || (getBench s b).holder.isSome ||
    (match (getBench s b).run with
     | some r => r.fn = 0x28
     | none => false))).length

/-- R237: the bench is powered and idle, EN_EFF is 1, and it is not DIRECT. -/
def benchEligible (s : State) (b : Nat) : Bool :=
  domTakes s 2 && benchEnEff s b && !benchBusy s b && !isDirect s b && !benchJust s b

/-- A request of job `j` of tenant `t` may use bench `b`: pinned by that tenant alone, held by that job alone (R237). -/
def benchOpenTo (s : State) (b : Nat) (t : BitVec 12) (j : Nat) : Bool :=
  ((getBench s b).cells.all (fun kv => !kv.2.live || kv.2.tenant = t)) &&
  (match (getBench s b).holder with
   | some h => h = j
   | none => true)

/-- The bench has a free lease cell. -/
def freeCell (s : State) (b : Nat) : Option Nat := (List.range 32).find? (fun i => !(tget {} (getBench s b).cells i).live)

/-- Rules 2 to 4 of R237 for a request of tenant `t` and job `j`; `cell`: it needs a free lease cell. -/
def pickBench (s : State) (t : BitVec 12) (j : Nat) (cell : Bool) : Option Nat :=
  let el := (List.range 8).filter (fun b => benchEligible s b && benchOpenTo s b t j)
  match el.find? (fun b => (getBench s b).owner = .tenant t && (!cell || (freeCell s b).isSome)) with
  | some b => some b
  | none =>
    match el.find? (fun b => (getBench s b).owner = .none) with
    | some b => some b
    | none => el.find? (fun b => !pinned s b && (getBench s b).holder = none)

/-- The bench that an internal request takes (R237): the requester's own, one without owner, or one that is neither pinned nor held. -/
def pickInternal (s : State) : Option Nat :=
  let el := (List.range 8).filter (fun b => benchEligible s b && !pinned s b && (getBench s b).holder = none)
  match el.find? (fun b => (getBench s b).owner = .internal) with
  | some b => some b
  | none =>
    match el.find? (fun b => (getBench s b).owner = .none) with
    | some b => some b
    | none => el.head?

/-- R233: bench `b` takes `w` as its owner, after a wipe if another requester owned it. -/
def benchOwn (s : State) (b : Nat) (w : Owner) : State :=
  let o := (getBench s b).owner
  let s := if o = .none || o = w then s else wipeBench s b 2
  modBench s b (fun x => { x with owner := w })

/-- The owner that a request makes of its bench. -/
def reqOwner (r : PkReq) : Owner := if r.who = .lane then .tenant r.tenant else .internal

/-- The length of a private key by curve code of FN 0x28 and 0x29. -/
def privLen (code : Nat) : Nat := if code = 1 ∨ code = 4 then 32 else if code = 2 then 48 else if code = 3 then 66 else 56

/-- The functions that draw from the Well (R109, R115, R239, R242, R283). -/
def pkDraws (fn : Nat) : Bool :=
  fn = 0x01 || fn = 0x02 || fn = 0x05 || fn = 0x06 || fn = 0x09 || (0x10 ≤ fn && fn ≤ 0x12) || fn = 0x20 || fn = 0x22 || fn = 0x28

/-- The bytes that a request draws when it starts: R242 and R283 name the draws and no lengths (DESIGN CHOICE, log entry 64). -/
def pkDraw (fn : Nat) : Nat := if pkDraws fn then 64 else 0

/-- A draw of `n` bytes can begin: a Well that does not deliver takes none. -/
def drawReady (s : State) (n : Nat) : Bool := n = 0 || wellCan s

/-! ### Operands in a bench (R231) -/

/-- The lengths of the octet strings in the fixed input of a PKOP: a point and an ECDSA signature are two each. -/
def octetParts (fn p n : Nat) : List Nat :=
  let half := fun (m : Nat) => [m / 2, m / 2]
  match pkFixed fn p n with
  | [q, sg, d] => if 0x14 ≤ fn ∧ fn ≤ 0x16 then half q ++ half sg ++ [d] else [q, sg, d]
  | [q] => if 0x18 ≤ fn ∧ fn ≤ 0x1A then half q else [q]
  | [t, q] => if fn = 0x29 ∧ p % 128 ≤ 3 then t :: half q else [t, q]
  | l => l

/-- The octet strings of a function are big-endian (R109): all but limb arrays and those of RFC 7748 and RFC 8032. -/
def octetsBig (fn p : Nat) : Bool :=
  !(fn = 0x08 || fn = 0x09 || (0x20 ≤ fn && fn ≤ 0x26) || ((fn = 0x28 || fn = 0x29) && 4 ≤ p % 128))

/-- A byte string as limbs, least significant limb first (R231). -/
def limbBytes (big : Bool) (bs : List Byte) : List Byte := padTo (8 * ceilDiv bs.length 8) (if big then bs.reverse else bs)

/-- The octet strings of an input as limbs, one after another, and then its variable part (R231 gives the operands no places in the public
region: DESIGN CHOICE, log entry 64). -/
def limbsOf (big : Bool) : List Nat → List Byte → List Byte
  | [], bs => bs
  | n :: ns, bs => limbBytes big (bs.take n) ++ limbsOf big ns (bs.drop n)

/-- The octet string of `n` bytes that limbs hold. -/
def limbOctets (big : Bool) (n : Nat) (bs : List Byte) : List Byte := if big then (bs.take n).reverse else bs.take n

/-- The public inputs of a request in the public region. -/
def pkLimbs (r : PkReq) : List Byte := limbsOf (octetsBig r.fn r.param) (octetParts r.fn r.param r.nlen) r.input

/-- The octets of the private key in a lease cell, which holds it as limbs (R231, Table 9.1). -/
def cellKey (s : State) (b cell code : Nat) : List Byte :=
  limbOctets (decide (code ≤ 3)) (privLen code) (readBytes (getBench s b).mem (0xF000 + 128 * cell) (privLen code))

/-- The key that a bench takes into its secret working area for a request: none for a holding, whose material is there (R212, R235);
for FN 0x29 the private key of the lease cell. -/
def benchKey (s : State) (b : Nat) (r : PkReq) : List Byte :=
  if r.fn = 0x29 then cellKey s b r.cell (r.param % 128)
  else match r.key with
    | some k => if (getSlot s k.slot).isHolding then [] else (slotKey s k.slot).take (getSlot s k.slot).klen
    | none => r.keyBytes

/-- Bench `b` starts a request (R236): what it needs from the Well it draws in class 2 (R282), and the operand bytes that it loads count in
UW_BYTES (R18): the key of a lease cell is in the bench already. The key lies as limbs after a holding (R231, R235). -/
def benchStart (s : State) (b : Nat) (r : PkReq) : State :=
  let key := benchKey s b r
  let s := whenS (pkDraw r.fn ≠ 0) (fun s => askDraw s 2 (.bench b r.ticket) (pkDraw r.fn)) (benchOwn s b (reqOwner r))
  let loaded := r.input.length + (if r.fn = 0x29 then 0 else key.length)
  let s := modUnit s (benchUnit b) (fun u => { u with bytes := u.bytes + w64 loaded })
  let cell := if r.fn = 0x28 then (freeCell s b).getD 0 else r.cell
  let at_ := 0x8000 + (if (getBench s b).holder.isSome then 8 * ceilDiv (getBench s b).holdLen 8 else 0)
  modBench s b (fun x => { x with
    run := some { r with rnd := [], klen := key.length, keyAt := at_, cell := cell }, endedAt := none
    mem := tfill 0 (tfill 0 x.mem 0 ((pkLimbs r).take 0x8000)) at_
      (limbBytes (octetsBig r.fn r.param) key) })

/-- The engine of a holding that a key reference names, if its slot is a HOLDING. -/
def holdingOf (s : State) (k : Option KeyRef) : Option Nat :=
  match k with
  | some r => if (getSlot s r.slot).isHolding then some (fld (getSlot s r.slot).index 16 4) else none
  | none => none

/-- The key that a request names is still there: in its slot for a lane (R218, R227), in a slot that is not DEAD for a unit's key. -/
def keyStands (s : State) (who : ScWho) (k : KeyRef) : Bool :=
  if who = .lane then keyRefOk s k else decide ((getSlot s k.slot).kind = .unit)

/-- The key of an internal request is a unit's, whose slot waits for a fresh mask (R223). -/
def unitKeyWaits (s : State) (k : Option KeyRef) : Bool := k.any (fun r => (getSlot s r.slot).kind = .unit) && tget false s.serai.aged 511

/-- R245 steps 2 to 4, when the bench accepts the request. -/
def leaseFault (s : State) (r : PkReq) : Option Status :=
  let t := w64 (ofLe (r.input.take 8))
  let c := tget {} (getBench s (fld t 0 8)).cells (fld t 8 8)
  if !(c.live && c.gen.toNat = fld t 16 32) then some .staleLease
  else if c.ring ≠ r.ring then some .keyUsage
  else if c.curve ≠ r.param % 128 then some .keyUsage
  else none

/-- Where a queued request goes now: a bench, or nowhere yet (R237, R238). FN 0x29 goes to the bench of its token, which another job may
hold. -/
def placeRequest (s : State) (r : PkReq) : Option Nat :=
  if !drawReady s (pkDraw r.fn) then none
  else if r.who ≠ .lane then (if unitKeyWaits s r.key then none else pickInternal s)
  else if r.fn = 0x29 then
    let b := ofLe (r.input.take 1)
    if benchEligible s b && ((leaseFault s r).isSome || benchOpenTo s b r.tenant r.job) then some b else none
  else match holdingOf s r.key with
    | some b => if benchEligible s b then some b else none
    | none =>
      match pickBench s r.tenant r.job (r.fn = 0x28) with
      | none => none
      | some b =>
        if r.fn = 0x28 && !pinned s b && (getBench s b).holder = none && pinEff s ≤ boundBenches s then none else some b

/-- The request waits for a place: internal requests stand before those of lanes, each in arrival order (R236). -/
def queuePk (s : State) (r : PkReq) : State :=
  upHouse s (fun h => { h with
    nextTicket := h.nextTicket + 1
    queue := if r.who = .lane then h.queue ++ [r]
      else h.queue.filter (fun q => q.who ≠ .lane) ++ [r] ++ h.queue.filter (fun q => q.who = .lane) })

/-- MM and E of R242. -/
def mmTime (n : Nat) : Nat := n * ((n + 15) / 16) + 6
/-- See `mmTime`. -/
def eTime (n b : Nat) : Nat := 2 * b * mmTime n + 6 * mmTime n + 32

/-- Table 9.4 by row (0 ECDSA sign, 1 verify, 2 ECDH, 3 public key) and curve (0 P-256, 1 P-384, 2 P-521). -/
def ecTime (row curve : Nat) : Nat :=
  ((([[18200, 39500, 88000], [34800, 76000, 170000], [17600, 38400, 86000], [17100, 37200, 83500]] : List (List Nat)).getD row []).getD curve 0)

/-- Curve codes 1 to 5 of FN 0x28 and 0x29: public-key and agreement times. -/
def curveTime (agree : Bool) (code : Nat) : Nat :=
  if 1 ≤ code ∧ code ≤ 3 then ecTime (if agree then 2 else 3) (code - 1) else if code = 4 then 13600 else 41000

/-- Public-key cycles of a PKOP (Tables 9.3 and 9.4); `hp` and `hq` are those of the RSA key, `msg` the length of the message. -/
def pkTime (fn param nlen hp hq msg : Nat) : Nat :=
  let crt := eTime hp (64 * hp) + eTime hq (64 * hq) + 4 * mmTime nlen + mmTime hp
  if fn = 0x01 ∨ fn = 0x02 ∨ fn = 0x06 then crt + 1300
  else if fn = 0x09 then crt + 300
  else if fn = 0x03 ∨ fn = 0x04 ∨ fn = 0x05 then eTime nlen 64 + 1300
  else if fn = 0x08 then eTime nlen (64 * nlen)
  else if 0x10 ≤ fn ∧ fn ≤ 0x12 then ecTime 0 (fn - 0x10)
  else if 0x14 ≤ fn ∧ fn ≤ 0x16 then ecTime 1 (fn - 0x14)
  else if 0x18 ≤ fn ∧ fn ≤ 0x1A then ecTime 2 (fn - 0x18)
  else if 0x1C ≤ fn ∧ fn ≤ 0x1E then ecTime 3 (fn - 0x1C)
  else if fn = 0x20 then 14900 + 40 * ceilDiv msg 128
  else if fn = 0x21 then 29000 + 20 * ceilDiv msg 128
  else if fn = 0x22 then 44000 + 24 * ceilDiv msg 136
  else if fn = 0x23 then 86000 + 12 * ceilDiv msg 136
  else if fn = 0x24 then 13600
  else if fn = 0x25 then 41000
  else if fn = 0x26 then (if param = 1 then 13400 else if param = 2 then 40500 else if param = 3 then 13600 else 41000)
  else if fn = 0x28 then curveTime false (param % 128) + 200
  else curveTime true (param % 128)

/-! ### Internal requests (R236, R266) -/

/-- The Mint's charter fails at this point; its first failure stands. -/
def mintRefuse (s : State) (st : Status) (reason index : Nat) : State :=
  match s.mint.chStage with
  | .idle => s
  | .refused _ _ _ => s
  | _ => upMint s (fun m => { m with chStage := .refused st reason index })

/-- An internal request of run `n` ends without a result, and its operation with it: the charter, or the Safe-conduct command. -/
def internalFails (s : State) (who : ScWho) (n : Nat) (st : Status) : State :=
  match who with
  | .lane => s
  | .mint =>
    match s.mint.chStage with
    | .engine _ => if s.mint.chRun = n then mintRefuse s st 0 0 else s
    | _ => s
  | .safeConduct => if s.safe.stage = .signing && s.safe.run = n then upSafe s (fun f => { f with stage := .over st }) else s

/-- The result of operation `part` of run `n`: a verdict of the charter's signatures (Table 7.7 step 7), a shared secret of one of its
OWNER_INSTALL commands (R204), or a signature for Safe-conduct (R414, R416). A run that is over takes nothing. -/
def internalGives (s : State) (who : ScWho) (n part : Nat) (bs : List Byte) : State :=
  match who with
  | .lane => s
  | .mint =>
    if !(s.mint.chStage = .engine part && s.mint.chRun = n) then s
    else if part < 2 && bs.any (fun b => b ≠ 0) then mintRefuse s .accessFault (8 + part) 0
    else upMint s (fun m => { m with
      chStage := .passed part
      chSecrets := if part < 2 then m.chSecrets else tset [] m.chSecrets ((part - 2) / 2) (tget [] m.chSecrets ((part - 2) / 2) ++ bs) })
  | .safeConduct =>
    if s.safe.stage = .signing && s.safe.run = n then upSafe s (fun f => { f with sigs := tset [] f.sigs part bs }) else s

/-! ### Scales -/

/-- The context runs an operation. -/
def ctxBusy (s : State) (c : Nat) : Bool := (getCtx s c).run.isSome

/-- The context can take a request: it is idle, and an abort that comes in the control cycle in which its last operation ended still finds
that operation (Table 10.5). -/
def ctxIdle (s : State) (c : Nat) : Bool := !ctxBusy s c && decide ((getCtx s c).endedAt ≠ some s.cycle)

/-- The contexts of a running charter (R268). -/
def ctxMints (s : State) (c : Nat) : Bool := s.scales.charter && (c = 2 || c = 3)

/-- The bytes that a LATOP draws when it starts: d ‖ z or the message (R261), or the rnd of a hedged signature (R263). -/
def latDraw (r : LatReq) : Nat := if r.fn = 0x01 then 64 else if r.fn = 0x02 || (r.fn = 0x11 && !r.pubOnly) then 32 else 0

/-- The request waits for a place: internal requests stand before those of lanes, each in arrival order (R266). -/
def queueLat (s : State) (r : LatReq) : State :=
  upScales s (fun h => { h with
    nextTicket := h.nextTicket + 1
    queue := if r.who = .lane then h.queue ++ [r]
      else h.queue.filter (fun q => q.who ≠ .lane) ++ [r] ++ h.queue.filter (fun q => q.who = .lane) })

/-- R266: where a request goes now. The Mint's go to context 3, which belongs to it with the charter that lies there (R268). -/
def placeLattice (s : State) (r : LatReq) : Option Nat :=
  if !drawReady s (latDraw r) || unitKeyWaits s r.key then none
  else if r.who = .mint then (if !ctxIdle s 3 || (getCtx s 3).faulted then none else some 3)
  else match holdingOf s r.key with
  | some e => if 8 ≤ e && ctxIdle s (e - 8) then some (e - 8) else none
  | none =>
    (List.range 4).find? (fun c =>
      ctxIdle s c && (getCtx s c).holder = none && !(getCtx s c).faulted && !(getCtx s c).kat && !ctxMints s c &&
      !(r.who = .lane && s.scales.disable.toNat.testBit c))

/-- R269: the context's working memory is zeroed, except a holding that its job still holds (its region is the secret area) and the copy
of a charter (R268: the public area). -/
def scrubCtx (s : State) (c : Nat) : State :=
  let held := (getCtx s c).holder.isSome
  let mints := ctxMints s c
  let s := modCtx s c (fun x => { x with
    mem := if x.holder.isSome then x.mem.filter (fun kv => 16384 ≤ kv.1) else if mints then x.mem.filter (fun kv => kv.1 < 16384) else [] })
  if held then s else upScales s (fun x => { x with wipes := x.wipes + 1 })

/-- A holding on context `c` is released, with source +2 (R269, R272). -/
def dropCtxHolding (s : State) (c : Nat) : State :=
  if (getCtx s c).holder = none then s
  else
    let s := modCtx s c (fun x => { x with holder := none, holdLen := 0, holdType := 0, mem := [] })
    let s := freeHolding s (8 + c)
    raise (upScales s (fun x => { x with wipes := x.wipes + 1 })) (128 + 4 * c + 2)

/-- The end of an operation on context `c` (R272). -/
def ctxEnded (s : State) (c : Nat) (st : Status) : State :=
  let s := modCtx s c (fun x => { x with endedAt := some s.cycle })
  raise (upScales s (fun x => { x with ops := x.ops + 1 })) (128 + 4 * c + if st = .done then 0 else 1)

/-- R270: what context `c` runs stops, and its memory is zeroed. -/
def stopCtx (s : State) (c : Nat) : State :=
  let s := modCtx (dropDraws s (Drawer.onCtx c)) c (fun x => { x with run := none, mem := [] })
  ctxEnded (upScales s (fun x => { x with aborts := x.aborts + 1 })) c .pkAborted

/-- R270: an abort of what context `c` runs; the whole of its memory is zeroed, the holding included. -/
def abortCtx (s : State) (c : Nat) : State :=
  let held := (getCtx s c).holder.isSome
  let s := stopCtx s c
  if held then dropCtxHolding s c else upScales s (fun x => { x with wipes := x.wipes + 1 })

/-- ⌈(n − 136) / 136⌉, at least 0 (R265); `n` is the length of M′. -/
def latBlocks (n : Nat) : Nat := ceilDiv (n - 136) 136

/-- Public-key cycles of a LATOP (Tables 10.3 and 10.4, R265); `held`: the key is a holding; `att`: signing attempts. -/
def latTime (fn set : Nat) (held pubOnly : Bool) (att mprime : Nat) : Nat :=
  match fn with
  | 0x01 => setPick 1400 2100 3000 set
  | 0x02 => setPick 1600 2400 3300 set
  | 0x03 => if held then setPick 1950 2900 4000 set else setPick 2100 3100 4200 set
  | 0x11 =>
    if pubOnly then setPick 1900 2700 4100 set
    else (if held then setPick 1700 2400 3900 set else setPick 2700 3900 6000 set) + setPick 2000 2800 3900 set * att + 12 * latBlocks mprime
  | _ => setPick 5200 7900 12600 set + 12 * latBlocks mprime

end Sys2Proof.Machine
end

