-- ==== Sys2Proof/Machine/PorterOps.lean ====
section
/-! DEFINITION. Porter's transfers (R303 to R311) and the Ledger's reads (R342 to R346), which channel 31 uses. -/

namespace Sys2Proof.Machine

/-! ### Ledger reads -/

/-- Bytes 28 to 31 of a Ledger word (Table 14.5). -/
def ledgerTag (nbytes : Nat) (v ce ue bank : Bool) (wseq : Nat) : Nat :=
  nbytes + bitAt v 5 + bitAt ce 6 + bitAt ue 7 + bitAt bank 8 + 512 * (wseq % 2 ^ 23)

/-- R342: one read of the Ledger, 32 bytes as a number: the oldest word of the drain bank, or an invalid word. An uncorrectable
word reads zero data and is written off (R344). -/
def ledgerRead (s : State) : Nat × State :=
  let bank := !s.ledger.bank
  match s.ledger.drain with
  | [] => (2 ^ 224 * ledgerTag 0 false false false bank s.ledger.wseq.toNat, s)
  | w :: ws =>
    let seq := s.ledger.wseq
    let s := upLedger s (fun l => { l with drain := ws, wseq := l.wseq + 1 })
    if w.ue then
      let s := upLedger s (fun l => { l with bytesWoff := l.bytesWoff + w32 w.nbytes, eccUncorr := l.eccUncorr + 1, ue := true })
      let s := emit (raise s 211) 13 0x003 0 [w32 seq.toNat, w32 w.nbytes]
      (2 ^ 224 * ledgerTag w.nbytes true false true bank seq.toNat, s)
    else
      let s := upLedger s (fun l => { l with
        bytesOut := l.bytesOut + w64 w.nbytes
        eccCorr := if w.ce then l.eccCorr + 1 else l.eccCorr })
      (w.data.toNat + 2 ^ 224 * ledgerTag w.nbytes true w.ce false bank seq.toNat, s)

/-! ### Channels -/

/-- ESIZE in bytes: 0 means 4,096. -/
def ptEsize (p : PtSet) : Nat := if p.esize = 0 then 4096 else p.esize.toNat

/-- The bytes a transfer moves. -/
def ptTotal (p : PtSet) : Nat := if p.mode = 0 then p.len.toNat else p.len.toNat * ptEsize p

/-- The bytes that one count starts (R305). -/
def ptStep (p : PtSet) : Nat :=
  if !p.pace then ptTotal p else if p.mode = 0 then p.step.toNat else ptEsize p

/-- R304: the register offset, in the channel's window, of the field for which a start is refused; none: the start is good. -/
def ptFault (n : Nat) (p : PtSet) : Option Nat :=
  let lim := 2 ^ 64
  if p.mode = 3 then some 0x20
  else if p.len = 0 then some 0x18
  else if p.pace && p.mode = 0 && (p.step = 0 || 65536 < p.step.toNat) then some 0x1C
  else if p.mode ≠ 0 ∧ p.index.toNat % 4 ≠ 0 then some 0x10
  else if p.ledger && (n ≠ 31 || p.mode ≠ 0) then some 0x20
  else if p.ledger && p.len.toNat % 32 ≠ 0 then some 0x18
  else if p.mode ≠ 0 ∧ lim < p.index.toNat + 4 * p.len.toNat then some 0x10
  else if !p.ledger && lim < p.src.toNat + (if p.mode = 1 then 2 ^ 32 + 4096 else ptTotal p) then some 0x00
  else if lim < p.dst.toNat + (if p.mode = 2 then 2 ^ 32 + 4096 else ptTotal p) then some 0x08
  else none

/-- An access belongs to channel `n`'s transfer `e`. -/
def isPt (n e : Nat) (w : Requester) : Bool :=
  match w with
  | .ptIndex c x _ => c = n && x = e
  | .ptRead c x _ _ => c = n && x = e
  | .ptWrite c x => c = n && x = e
  | _ => false

/-- A Porter access of any channel. -/
def isPorter (w : Requester) : Bool :=
  match w with
  | .ptIndex _ _ _ => true
  | .ptRead _ _ _ _ => true
  | .ptWrite _ _ => true
  | _ => false

/-- Reads that Porter, or one channel, has outstanding (R306). -/
def ptReads (s : State) (p : Nat → Bool) : Nat :=
  (accessesOf s (fun w => match w with
    | .ptIndex c _ _ => p c
    | .ptRead c _ _ _ => p c
    | _ => false)).length

/-- MAXRD in effect (Table 13.2). -/
def maxRd (s : State) : Nat := if s.porter.maxRd = 0 then 1 else capAt 512 s.porter.maxRd.toNat

/-- Porter's accesses go to adapter-local memory with general credits (R301, R306). -/
def ptAttr (p : PtSet) : FabAttr := { spaceLocal := true, ns := p.ns }

/-- Bytes leave the channel buffer: watching contexts see them, and they are written at `dst` in pieces of at most 128 bytes. -/
def ptWriteOut (s : State) (n : Nat) (dst : W64) (bs : List Byte) : State :=
  let c := getChan s n
  issueAccess (tgSnoopPorter s n bs) (.ptWrite n c.epoch) (ptAttr c.act) dst bs.length (some bs)

/-- The aligned 128-byte block of the index table that holds entry `i`, counted from the table's first block. -/
def ptBlock (p : PtSet) (i : Nat) : Nat := (p.index.toNat + 4 * i) / 128 - p.index.toNat / 128

/-- The data of a channel that may be written next, in the transfer's order: position, destination and bytes (R288, R303). -/
def ptNext (x : Xfer) : Option (Nat × W64 × List Byte) := x.early.find? (fun q => q.1 = x.out)

/-- The bytes in the channel's buffer: what has returned and nothing before it holds back. Data that returned before what precedes it is
still in the read return buffers (DEDUCED, log entry 59). -/
def ptHeld (x : Xfer) : Nat → Nat → Nat
  | 0, _ => 0
  | fuel + 1, at_ =>
    match x.early.find? (fun q => q.1 = at_) with
    | none => 0
    | some q => q.2.2.length + ptHeld x fuel (at_ + q.2.2.length)

/-- The channel's buffer of 2 KiB is full (R306). -/
def ptFull (x : Xfer) : Bool := 2048 ≤ ptHeld x x.early.length x.out

/-- One read of channel `n` for its transfer (R306): an index block, data, or a Ledger word; none when it may read nothing. -/
def ptReadOne (s : State) (n : Nat) : Option State :=
  let c := getChan s n
  let p := c.act
  match c.xfer with
  | none => none
  | some x =>
    if x.granted ≤ x.issued || ptFull x then none
    else if p.ledger then
      let (w, s) := ledgerRead s
      some (modChan s n (fun c => { c with xfer := some { x with
        issued := x.issued + 32, early := x.early ++ [(x.issued, p.dst + w64 x.issued, leBytes 32 w)] } }))
    else if maxRd s ≤ ptReads s (fun k => k = n) ∨ 512 ≤ ptReads s (fun _ => true) then none
    else if p.mode = 0 then
      let src := p.src + w64 x.issued
      let len := Nat.min (x.granted - x.issued) (128 - src.toNat % 128)
      let s := modChan s n (fun c => { c with xfer := some { x with issued := x.issued + len } })
      some (issueAccess s (.ptRead n c.epoch x.issued (p.dst + w64 x.issued)) (ptAttr p) src len none)
    else
      let i := x.issued / ptEsize p
      let off := x.issued % ptEsize p
      match tget none x.idx i with
      | none =>
        if ptBlock p i < x.idxAsked then none
        else
          let s := modChan s n (fun c => { c with xfer := some { x with idxAsked := ptBlock p i + 1 } })
          some (issueAccess s (.ptIndex n c.epoch (ptBlock p i)) (ptAttr p) (w64 ((p.index.toNat / 128 + ptBlock p i) * 128)) 128 none)
      | some o =>
        let src := if p.mode = 1 then p.src + w64 (o + off) else p.src + w64 x.issued
        let dst := if p.mode = 1 then p.dst + w64 x.issued else p.dst + w64 (o + off)
        let len := Nat.min (ptEsize p - off) (128 - src.toNat % 128)
        let s := modChan s n (fun c => { c with xfer := some { x with issued := x.issued + len } })
        some (issueAccess s (.ptRead n c.epoch x.issued dst) (ptAttr p) src len none)

/-- One write of channel `n`: its next data leaves the buffer for its destination, unless a Tollgate context holds it (R288, R289). -/
def ptWriteOne (s : State) (n : Nat) : Option State :=
  match (getChan s n).xfer with
  | none => none
  | some x =>
    match ptNext x with
    | none => none
    | some (pos, dst, bs) =>
      if tgHolds s n bs.length then none
      else
        let s := modChan s n (fun c => { c with xfer := some { x with
          out := pos + bs.length, early := x.early.filter (fun q => q.1 ≠ pos) } })
        some (ptWriteOut s n dst bs)

/-- The first of the 32 channels, beginning after `last`, for which `f` does something (R306). -/
def ptRotate (f : Nat → Option State) (last : Nat) : Option (Nat × State) :=
  ((List.range 32).map (fun k => (last + 1 + k) % 32)).findSome? (fun n => (f n).map (fun s => (n, s)))

/-- One fabric cycle of Porter: at most one read and one write, each of the next channel that is ready (R306). -/
def ptCycle (s : State) : State :=
  let s := match ptRotate (ptWriteOne s) s.porter.lastWr with
    | some (n, s) => upPorter s (fun p => { p with lastWr := n })
    | none => s
  match ptRotate (ptReadOne s) s.porter.lastRd with
  | some (n, s) => upPorter s (fun p => { p with lastRd := n })
  | none => s

/-- A transfer is in progress on some channel. -/
def ptRuns (s : State) : Bool := s.porter.chans.any (fun kv => kv.2.xfer.isSome)

/-- An index block has returned: its entries from the table's first entry on are held (R303). -/
def ptIndexHere (s : State) (n e block : Nat) (bs : List Byte) : State :=
  let c := getChan s n
  match c.xfer with
  | none => s
  | some x =>
    if c.epoch ≠ e then s
    else
      let skip := (c.act.index.toNat % 128) / 4
      let put := fun (t : Table (Option Nat)) (k : Nat) =>
        let pos := 32 * block + k
        if pos < skip then t else tset none t (pos - skip) (some (ofLe (slice bs (4 * k) 4)))
      modChan s n (fun c => { c with xfer := some { x with idx := (List.range 32).foldl put x.idx } })

/-- Data has returned. -/
def ptDataHere (s : State) (n e pos : Nat) (dst : W64) (bs : List Byte) : State :=
  let c := getChan s n
  match c.xfer with
  | none => s
  | some x =>
    if c.epoch ≠ e then s else modChan s n (fun c => { c with xfer := some { x with early := x.early ++ [(pos, dst, bs)] } })

/-- R307: everything has been written, and every write is acknowledged: the transfer of channel `n` is complete. -/
def ptFinished (s : State) (n : Nat) : Bool :=
  let c := getChan s n
  match c.xfer with
  | none => false
  | some x => ptTotal c.act ≤ x.out && !busyFor s (isPt n c.epoch)

/-- R307: completion. -/
def ptComplete (s : State) (n : Nat) : State :=
  let s := modChan s n (fun c => { c with
    xfer := none, epoch := c.epoch + 1, doneAt := some s.cycle
    act := if c.shadow.arm then c.shadow else c.act
    shadow := if c.shadow.arm then { c.shadow with arm := false } else c.shadow })
  tgPorterDone (raise s n) n

/-- The completions that are due stand (Table 13.3); the transfer of channel `own`, whose write just failed, is none of them. -/
def ptSettle (s : State) (own : Option Nat) : State :=
  forAll ((List.range 32).filter (fun n => ptFinished s n && own ≠ some n)) ptComplete s

/-- Every transfer in progress is abandoned: requests not yet issued are withdrawn, later returns are discarded (R309 step 1). A completion
that is due stands (Table 13.3). -/
def ptAbandon (s : State) (own : Option Nat) : Nat × State :=
  let s := ptSettle s own
  let busy := tkeys (fun _ (c : PtChan) => c.xfer.isSome) s.porter.chans
  let s := forAll busy (fun s n => modChan s n (fun c => { c with xfer := none, epoch := c.epoch + 1 })) s
  let s := withdraw s (fun a => isPorter a.who)
  (busy.length, upPorter s (fun p => { p with abandoned := p.abandoned + w32 busy.length }))

/-- R309: Porter stops. DIR `false` is a read; `own` is the channel whose transfer the failing access carries, where it is a write. A failure
that finds Porter stopped is kept for a RESUME of the same cycle (Table 13.3). -/
def ptStop (s : State) (own : Option Nat) (dir : Bool) (cause : Nat) (addr : W64) : State :=
  if s.porter.stopped then upPorter s (fun p => { p with lateFail := some (s.cycle, dir, cause, addr) })
  else
    let (n, s) := ptAbandon s own
    let s := upPorter s (fun p => { p with
      stopped := true, stopAt := some s.cycle, dir := dir, cause := BitVec.ofNat 2 cause, errAddr := addr, stops := p.stops + 1 })
    let s := emit s 10 0x503 0 (w32 (dir.toNat + 2 * cause) :: w32 n :: loHi addr)
    whenS s.porter.irqEn (fun s => irqBlock s 27) s

/-- R310: the block leaves Service. -/
def ptLeaveService (s : State) : State :=
  let (n, s) := ptAbandon s none
  emit s 10 0x503 0 [8, w32 n, 0, 0]

/-- R305: a count of sink `n` can start the next transfer or step of channel `n`; one that meets its completion waits a cycle (Table
13.3). -/
def ptCanStart (s : State) (n : Nat) : Bool :=
  let c := getChan s n
  c.act.en && inMode s .service && !s.porter.stopped &&
  (match c.xfer with
   | none => decide (c.doneAt ≠ some s.cycle)
   | some x => c.act.pace && x.granted < ptTotal c.act)

/-- One count starts a transfer or a step (R304, R305); a refused start moves nothing. -/
def ptStart (s : State) (n : Nat) : State :=
  let c := getChan s n
  let p := c.act
  match c.xfer with
  | some x =>
    modChan s n (fun c => { c with xfer := some { x with granted := Nat.min (ptTotal p) (x.granted + ptStep p) } })
  | none =>
    match ptFault n p with
    | some off =>
      emit (upPorter s (fun q => { q with refused := q.refused + 1 })) 10 0x502 Status.accessFault.code [w32 n, w32 (0x700000 + 0x100 * n + off)]
    | none =>
      let first := { granted := Nat.min (ptTotal p) (ptStep p) : Xfer }
      modChan (tgPorterStart s n) n (fun c => { c with xfer := some first })

end Sys2Proof.Machine
end

