-- ==== Sys2Proof/Machine/JobOps.lean ====
section
/-! DEFINITION. A job as the lane sees it: its manifest and segment streams (R42, R73, R74), the reads and writes it issues (R81,
R145, R155), and how it ends (R63, R82, R141). -/

namespace Sys2Proof.Machine

/-! ### Manifest fragments (Table 2.6) -/

/-- ADDR. -/
def fragAddr (f : BitVec 128) : Nat := fld f 0 64
/-- LEN. -/
def fragLen (f : BitVec 128) : Nat := fld f 64 32
/-- LAST. -/
def fragLast (f : BitVec 128) : Bool := tb f 96
/-- NS. -/
def fragNs (f : BitVec 128) : Bool := tb f 97
/-- RLX. -/
def fragRlx (f : BitVec 128) : Bool := tb f 98
/-- SEG. -/
def fragSeg (f : BitVec 128) : Nat := fld f 112 8
/-- INST. -/
def fragInst (f : BitVec 128) : Nat := fld f 120 8

/-- R43: a fragment that is read is at fault. -/
def fragBad (f : BitVec 128) : Bool := fld f 99 13 ≠ 0 || 7 ≤ fragSeg f || 2 ^ 64 < fragAddr f + fragLen f

/-- Fragments of the first block that lie below the manifest pointer. -/
def fragSkip (x : Job) : Nat := (x.word1.toNat % 128) / 16

/-- How many fragments have arrived, of at most 4,096. -/
def fragCount (x : Job) : Nat := Nat.min 4096 (8 * x.fragBlocks - fragSkip x)

/-- The fragments that have arrived. -/
def fragList (x : Job) : List (BitVec 128) := (List.range (fragCount x)).map (fun i => tget 0 x.frags i)

/-- The list up to its first fragment with LAST, that one included. -/
def upToLast : List (BitVec 128) → List (BitVec 128)
  | [] => []
  | f :: fs => if fragLast f then [f] else f :: upToLast fs

/-- The job's fragments as far as they are known. -/
def knownFrags (x : Job) : List (BitVec 128) := upToLast (fragList x)

/-- The end of the manifest is known. -/
def manWhole (x : Job) : Bool := (fragList x).any fragLast

/-! ### Streams (R73) -/

/-- The source stream's read cursor. -/
def srcRead : Nat := 56
/-- The source stream's write cursor. -/
def srcWrite : Nat := 57

/-- The stream that an input designator names. -/
def streamOf (d : Desig) : Option Nat :=
  match d with
  | .seg s i => some (8 * s + i)
  | .src => some srcRead
  | _ => none

/-- The stream that an output designator names. -/
def outStreamOf (d : Desig) : Option Nat :=
  match d with
  | .seg s i => some (8 * s + i)
  | .src => some srcWrite
  | _ => none

/-- A contiguous part of a stream: its offset in the stream, its address and its length. -/
structure Piece where
  off : Nat
  addr : Nat
  len : Nat
  ns : Bool := false
  rlx : Bool := false
  deriving DecidableEq, Repr

/-- The pieces of a segment stream, from stream offset `off` on. -/
def piecesFrom (seg inst : Nat) : Nat → List (BitVec 128) → List Piece
  | _, [] => []
  | off, f :: fs =>
    if fragSeg f = seg ∧ fragInst f = inst ∧ fragLen f ≠ 0 then
      { off := off, addr := fragAddr f, len := fragLen f, ns := fragNs f, rlx := fragRlx f } :: piecesFrom seg inst (off + fragLen f) fs
    else piecesFrom seg inst off fs

/-- The known pieces of a stream; the source stream has no end (R73). -/
def pieces (x : Job) (st : Nat) : List Piece :=
  if st = srcRead ∨ st = srcWrite then [{ off := 0, addr := x.word1.toNat, len := 2 ^ 64 }]
  else piecesFrom (st / 8) (st % 8) 0 (knownFrags x)

/-- The known length of a stream. -/
def streamLen (x : Job) (st : Nat) : Nat := ((pieces x st).map (fun p => p.len)).sum

/-- The part of a piece within [off, off + n). -/
def cutPiece (off n : Nat) (p : Piece) : Option Piece :=
  let lo := Nat.max off p.off
  let hi := Nat.min (off + n) (p.off + p.len)
  if lo < hi then some { p with off := lo, addr := p.addr + (lo - p.off), len := hi - lo } else none

/-- The pieces that cover `n` bytes of a stream from `off`. -/
def cover (x : Job) (st off n : Nat) : List Piece := (pieces x st).filterMap (cutPiece off n)

/-- The cursor of a stream. -/
def cursor (x : Job) (st : Nat) : Nat := tget 0 x.cursors st

/-- Bytes of a stream that are missing: stream, offset, length. -/
abbrev Need := Nat × Nat × Nat

/-- What a lane needs before an instruction can go on. -/
inductive Res (α : Type) where
  | ok (a : α)
  /-- the next manifest block, and bytes -/
  | man (l : List Need)
  /-- bytes; `a` is the result on stand-ins for them, which has their lengths -/
  | need (l : List Need) (a : α)
  /-- a hard status -/
  | hard (st : Status)

/-- One step after another: missing bytes do not hide a fault that only lengths decide (R74, R96). -/
def bindRes {α β : Type} (r : Res α) (f : α → Res β) : Res β :=
  match r with
  | .ok a => f a
  | .man l => .man l
  | .need l a =>
    match f a with
    | .ok b => .need l b
    | .man m => .man (l ++ m)
    | .need m b => .need (l ++ m) b
    | .hard st => .hard st
  | .hard st => .hard st

/-- A condition that fails with a hard status. -/
def demand (c : Bool) (st : Status) : Res Unit := if c then .ok () else .hard st

/-- R74: the stream reaches to `off + n`. -/
def reaches (x : Job) (st off n : Nat) : Res Unit :=
  if off + n ≤ streamLen x st then .ok () else if manWhole x then .hard .manifestFault else .man []

/-- The bytes from `off` to the end of a segment stream. -/
def restOf (x : Job) (st off : Nat) : Res Nat := if manWhole x then .ok (streamLen x st - off) else .man []

/-- The key of a chunk of the lane buffer. -/
def bufKey (st off : Nat) : Nat := st * 2 ^ 64 + off

/-- The bytes of the buffer from key `k` on, up to the first that is missing, at most `n`. -/
def bufRead (buf : List (Nat × List Byte)) : Nat → Nat → Nat → List Byte
  | _, _, 0 => []
  | 0, _, _ + 1 => []
  | fuel + 1, k, n + 1 =>
    match buf.find? (fun c => decide (c.1 ≤ k) && decide (k < c.1 + c.2.length)) with
    | none => []
    | some c =>
      let got := (c.2.drop (k - c.1)).take (n + 1)
      got ++ bufRead buf fuel (k + got.length) (n + 1 - got.length)

/-- What has arrived of `n` bytes of a stream from `off`, up to the first gap. -/
def arrived (x : Job) (st off n : Nat) : List Byte := bufRead x.buf (x.buf.length + 1) (bufKey st off) n

/-- `n` bytes of a stream from `off`; zeros stand in for what is missing. -/
def readIn (x : Job) (st off n : Nat) : Res (List Byte) :=
  bindRes (reaches x st off n) (fun _ =>
    let bs := arrived x st off n
    if bs.length = n then .ok bs else .need [(st, off, n)] (padTo n bs))

/-! ### Issuing reads and writes -/

/-- R30: the attributes of an access of job `j`; NS and RLX come from the fragment. -/
def jobAttr (s : State) (j : Nat) (ns rlx : Bool) : FabAttr :=
  { ringAttr s (getJob s j).ring (jobPrio s j) with ns := ns, rlx := rlx }

/-- R367: a new access of the job would go to a lost host link. -/
def jobLost (s : State) (j : Nat) : Bool := s.pins.linkLost && !(getRing s (getJob s j).ring).spaceLocal

/-- Ask for the bytes of a stream that have not been asked for. -/
def askStream (s : State) (j : Nat) (w : Need) : State :=
  let x := getJob s j
  let lo := Nat.max w.2.1 (tget 0 x.asked w.1)
  let hi := w.2.1 + w.2.2
  if hi ≤ lo then s
  else
    let s := modJob s j (fun x => { x with asked := tset 0 x.asked w.1 hi })
    (cover x w.1 lo (hi - lo)).foldl
      (fun s p => issueAccess s (.jobRead j w.1 p.off) (jobAttr s j p.ns false) (w64 p.addr) p.len none) s

/-! ### The program (R64) -/

/-- The length P of the job's program. -/
def progLen (s : State) (x : Job) : Nat :=
  e0Ninst x.word0 + if e0Route x.word0 = 0 then 0 else (getRoute s (e0Route x.word0)).rlen

/-- The instruction at a position. -/
def instrAt (s : State) (x : Job) (p : Nat) : W64 :=
  if p < e0Ninst x.word0 then x.slots.getD p 0
  else tget 0 (getRoute s (e0Route x.word0)).slots (p - e0Ninst x.word0)

/-- What an instruction does with its streams, in its order: the bytes that it reads (none: the rest of the stream), a long bale, as many
as its read before that, the bytes that it writes (none: a number not known ahead), and as many as it has read before. -/
inductive StreamUse where
  | read (st : Nat) (n : Option Nat)
  | bale (st : Nat)
  | readSame (st : Nat)
  | write (st : Nat) (n : Option Nat)
  | writeSame (st : Nat)
  deriving DecidableEq, Repr

/-- The stream uses of an instruction whatever its data (R73, R89 to R92). -/
def streamUses (i : W64) : List StreamUse :=
  let inp := fun (b : Nat) (n : Option Nat) => (((desigOf b).bind streamOf).toList).map (fun st => StreamUse.read st n)
  let out := fun (b : Nat) (n : Option Nat) => (((desigOf b).bind outStreamOf).toList).map (fun st => StreamUse.write st n)
  let same := fun (b : Nat) => (((desigOf b).bind outStreamOf).toList).map StreamUse.writeSame
  let lenB := if wLen i = 0 then none else some (wLen i)
  let inst := match desigOf (wB i) with
    | some (.seg _ k) => some k
    | _ => none
  let comp := fun (seg : Nat) (n : Option Nat) => inst.toList.map (fun k => StreamUse.read (8 * seg + k) n)
  let ifs := fun (c : Bool) (l : List StreamUse) => if c then l else []
  let first := decide (wPart i < 2)
  let tagged := decide (wPart i = 0) || decide (wPart i = 3)
  match wopOf (wOpcode i) with
  | some .key => (((desigOf (wB i)).bind streamOf).toList).map StreamUse.bale
  | some .derive => inp (wC i) none
  | some .stream => if immF i 0 2 = 2 then out (wA i) (some 128) else inp (wA i) (some 128)
  | some .sealW =>
    ifs (first && !wIsat i) (comp 4 none) ++ ifs (first && !wAsat i) (comp 0 none) ++ inp (wB i) lenB ++ same (wA i) ++
    ifs (tagged && !wTsat i) (inst.toList.map (fun k => .write (24 + k) (some (wTagLen i))))
  | some .openW =>
    ifs (first && !wIsat i) (comp 4 none) ++ ifs (first && !wAsat i) (comp 0 none) ++ inp (wB i) lenB ++ same (wA i) ++
    ifs (tagged && !wTsat i) (comp 3 (some (wTagLen i)))
  | some .cipher => ifs (first && algCipherIv (wAlg i) && !wIsat i) (comp 4 none) ++ inp (wB i) lenB ++ same (wA i)
  | some .mac =>
    ifs (first && wAlg i = 0x1A && !wMacIsat i) (comp 4 none) ++ ifs (wAlg i = 0x1B || wAlg i = 0x1C) (comp 0 none) ++ inp (wB i) lenB ++
    ifs tagged (if wVerify i then inp (wA i) (some (macLen (wAlg i) (wTlen i))) else out (wA i) (some (macLen (wAlg i) (wTlen i))))
  | some .hash =>
    (match algFamily (wAlg i) with
     | .slh =>
       inp (wB i) none ++
       (match wAlg i with
        | 0x30 => comp 4 none ++ out (wA i) (some (slhForsLen (wOlen i)))
        | 0x31 => out (wA i) (some (slhHtLen (wOlen i)))
        | 0x32 => comp 4 none ++ comp 3 (some (slhForsLen (wOlen i)))
        | _ => comp 3 (some (slhHtLen (wOlen i))))
     | _ =>
       inp (wB i) lenB ++
       ifs tagged (out (wA i) (if algShake (wAlg i) then (if wOlen i = 0 then none else some (wOlen i)) else some (hashLen (wAlg i)))))
  | some .cmp =>
    inp (wA i) lenB ++ (if wLen i = 0 then (((desigOf (wB i)).bind streamOf).toList).map StreamUse.readSame else inp (wB i) lenB)
  | some .pkop =>
    inp (wB i) (if (pkVar (wFn i) (wParam i) (wLen i)).isSome then none else some (pkFixed (wFn i) (wParam i) (wLen i)).sum) ++
    out (wA i) (pkOutLen (wFn i) (wParam i) (wLen i))
  | some .latop =>
    inp (wB i) (if latMsg (wFn i) then none else some (latFixed (wFn i) (wParam i)).sum) ++ ifs (latMsg (wFn i)) (comp 0 none) ++
    out (wA i) (latOutLen i)
  | some .rand => out (wA i) (some (wLen i))
  | some .move => inp (wB i) lenB ++ same (wA i)
  | some .loads => inp (wB i) (some (len8 (wParam i)))
  | some .stores => out (wA i) (some (len8 (wParam i)))
  | _ => []

/-! ### The read window (R155) -/

/-- A bank of the lane buffer. -/
def bankBytes : Nat := 16384

/-- The bytes that an instruction can take of stream `st`, in the order of its uses: `last` is the length of the read before, if it is known.
A stream has fewer than 2^64 bytes. -/
def usesTake (x : Job) (st : Nat) : Option Nat → List StreamUse → Nat
  | _, [] => 0
  | _, .read k n :: us => (if k = st then n.getD (2 ^ 64) else 0) + usesTake x st n us
  | last, .bale k :: us =>
    let h := arrived x k (cursor x k) 64
    (if k = st then (if h.length = 64 then 64 + 16 * ceilDiv (ofLe (slice h 26 4)) 16 else 64) else 0) + usesTake x st last us
  | last, .readSame k :: us => (if k = st then last.getD (2 ^ 64) else 0) + usesTake x st last us
  | last, _ :: us => usesTake x st last us

/-- How far a stream's data is consumed, of what has been asked for up to `top`: the instruction in execution consumes what arrives for it,
and a saved job has consumed what its interrupted instruction took before. What is read ahead for later instructions stays. -/
def consumed (s : State) (x : Job) (st top : Nat) : Nat :=
  let c := cursor x st
  match x.seat with
  | .running _ => c + (arrived x st c (Nat.min (top - c) (usesTake x st none (streamUses (instrAt s x x.pos))))).length
  | .saved _ => Nat.max c (tget 0 x.eaten st)
  | _ => c

/-- Bytes that have been asked for and not consumed, manifest blocks on their way among them. -/
def heldBytes (s : State) (x : Job) : Nat :=
  (x.asked.map (fun kv => kv.2 - consumed s x kv.1 kv.2)).sum + 128 * (x.fragAsked - x.fragBlocks)

/-- The banks that a saved job keeps: zero to three. -/
def savedBanks (s : State) (x : Job) : Nat := Nat.min 3 (ceilDiv (heldBytes s x) bankBytes)

/-- The lane that a placed job is on. -/
def seatLane (x : Job) : Nat :=
  match x.seat with
  | .staged l => l
  | .running l => l
  | .saved l => l
  | _ => 0

/-- The read window of a job: a bank for a Courier job, and otherwise three less those that the saved jobs of its lane keep. -/
def readWindow (s : State) (x : Job) : Nat :=
  if x.cls = .courier then bankBytes
  else bankBytes * (3 - ((getLane s (seatLane x)).saved.map (fun k => savedBanks s (getJob s k))).sum)

/-- What is left of the window, which the running and staged jobs of a lane share (R154). -/
def windowRoom (s : State) (j : Nat) : Nat :=
  let x := getJob s j
  let n := getLane s (seatLane x)
  let sharers := if x.cls = .courier then [j] else (n.run.toList ++ n.staged).filter (fun k => (getJob s k).cls ≠ .courier)
  readWindow s x - (sharers.map (fun k => heldBytes s (getJob s k))).sum

/-- Ask for the bytes that the running instruction lacks, in its order, at most `room` of them. -/
def askWithin (s : State) (j : Nat) : Nat → List Need → State
  | _, [] => s
  | room, (st, off, n) :: ws =>
    let lo := Nat.max off (tget 0 (getJob s j).asked st)
    let more := Nat.min (off + n - lo) room
    askWithin (askStream s j (st, off, lo + more - off)) j (room - more) ws

/-- Nothing is on its way to the job: no read of it is queued or outstanding. -/
def noneComing (s : State) (j : Nat) : Bool := !busyFor s (isReadOf j)

/-- Ask for what the running instruction lacks, within what the jobs of the lane leave of the window. While nothing is on its way to it, a
beat is asked for even then, for the job could not go on otherwise. -/
def askNeeds (s : State) (j : Nat) (l : List Need) : State :=
  let room := windowRoom s j
  askWithin s j (if noneComing s j then Nat.max 256 room else room) l

/-- Ask for the next manifest block, unless it is outstanding (R43). -/
def askManifest (s : State) (j : Nat) : State :=
  let x := getJob s j
  if x.fragBlocks < x.fragAsked || manWhole x then s
  else
    let b := x.fragAsked
    let s := modJob s j (fun x => { x with fragAsked := b + 1 })
    issueAccess s (.manifest j b) (jobAttr s j false false) (w64 (x.word1.toNat / 128 * 128 + 128 * b)) 128 none

/-- The next manifest block, as far as the window has room for it (R154). -/
def askBlock (s : State) (j : Nat) : State := if 128 ≤ windowRoom s j then askManifest s j else s

/-- A job's output goes in beats of at most 256 bytes of a fragment (R83), each an access of its own. -/
def beats256 (k : Nat) (addr : Nat) (bs : List Byte) : List (Nat × List Byte) :=
  (List.range k).filterMap (fun i =>
    let b := slice bs (256 * i) 256
    if b.isEmpty then none else some (addr + 256 * i, b))

/-- Write bytes at a stream's offset. -/
def writeStream (s : State) (j st off : Nat) (bs : List Byte) : State :=
  let x := getJob s j
  (cover x st off bs.length).foldl (fun s p =>
    (beats256 (p.len / 256 + 1) p.addr (slice bs (p.off - off) p.len)).foldl
      (fun s b => issueAccess s (.jobWrite j x.pos) (jobAttr s j p.ns p.rlx) (w64 b.1) b.2.length (some b.2)) s) s

/-! ### Source and destination (R81) -/

/-- A run of bytes before others: runs that meet are one. -/
def joinRun (r : Nat × Nat) (rs : List (Nat × Nat)) : List (Nat × Nat) :=
  match rs with
  | [] => [r]
  | q :: qs => if r.1 + r.2 = q.1 then (r.1, r.2 + q.2) :: qs else r :: q :: qs

/-- The runs of bytes, address and length, that `n` bytes of a stream are. -/
def streamRuns (x : Job) (st off n : Nat) : List (Nat × Nat) := (cover x st off n).foldr (fun p rs => joinRun (p.addr, p.len) rs) []

/-- A source and a destination overlap partially: they share a byte and are not the same bytes at the same addresses. -/
def partly (src dst : List (Nat × Nat)) : Bool :=
  src ≠ dst && src.any (fun a => dst.any (fun b => decide (a.1 < b.1 + b.2) && decide (b.1 < a.1 + a.2)))

/-- An output to memory: stream, offset, bytes. -/
abbrev OutW := Nat × Nat × List Byte

/-- The bytes of an output are undefined: a source of the instruction overlaps it partially. -/
def outOpen (y : Job) (o : OutW) : Bool := y.source.any (fun src => partly src (streamRuns y o.1 o.2.1 o.2.2.length))

/-- The bytes `from_` to `to_` of an output of the job `y` are issued; undefined ones are free values. -/
def issueOut (s : State) (j : Nat) (y : Job) (from_ to_ : Nat) (o : OutW) : State :=
  let bs := slice o.2.2 from_ (to_ - from_)
  if outOpen y o then
    let r := drawNoise s bs.length
    writeStream r.2 j o.1 (o.2.1 + from_) r.1
  else writeStream s j o.1 (o.2.1 + from_) bs

/-- The outputs of an instruction of the job `y` are issued, but for the bytes of the first that have gone already. -/
def issueOuts (s : State) (j : Nat) (y : Job) (outs : List OutW) : State :=
  match outs with
  | [] => s
  | o :: os => os.foldl (fun s o => issueOut s j y 0 o.2.2.length o) (issueOut s j y y.done o.2.2.length o)

/-- Some byte of the outputs has not been issued. -/
def outsLeft (y : Job) (outs : List OutW) : Bool :=
  match outs with
  | [] => false
  | o :: os => decide (y.done < o.2.2.length) || os.any (fun o => !o.2.2.isEmpty)

/-- How many of the first `m` bytes of an output lie in beats that end there: beats are 256 bytes of a fragment (R83). -/
def wholeBeats : List Piece → Nat → Nat
  | [], _ => 0
  | p :: ps, m => if p.len ≤ m then p.len + wholeBeats ps (m - p.len) else m / 256 * 256

/-! ### Reading ahead (R145, R154) -/

/-- The instructions from the job's position to its next FENCE or EVENT. -/
def aheadOf (s : State) (x : Job) : List W64 :=
  (((List.range (progLen s x - x.pos)).map (fun k => instrAt s x (x.pos + k))).takeWhile (fun i =>
    wopOf (wOpcode i) ≠ some .fence && wopOf (wOpcode i) ≠ some .event))

/-- Where reading ahead stands: the state, the cursor of each stream as the instructions so far leave it, the streams whose cursor is not
known any more, and the length of the last read, if it is known. -/
structure Ahead where
  s : State
  pos : Table Nat := []
  lost : List Nat := []
  last : Option Nat := none

/-- The cursor of a stream where reading ahead stands. -/
def Ahead.at_ (a : Ahead) (x : Job) (st : Nat) : Nat := Nat.max (cursor x st) (tget 0 a.pos st)

/-- The stream belongs to jobs of the other kind: the source stream to those without a manifest. -/
def otherKind (x : Job) (st : Nat) : Bool := (st = srcRead || st = srcWrite) == e0Manifest x.word0

/-- Reads ahead `n` bytes of a stream (none: all that is known of it), as far as the window has room (R155). -/
def readAhead (j : Nat) (a : Ahead) (st : Nat) (n : Option Nat) : Ahead :=
  let x := getJob a.s j
  if a.lost.contains st || otherKind x st then { a with last := n }
  else
    let from_ := a.at_ x st
    let till := match n with
      | some n => Nat.min (from_ + n) (streamLen x st)
      | none => if st = srcRead then from_ else streamLen x st
    let top := Nat.min till (Nat.max from_ (tget 0 x.asked st) + windowRoom a.s j)
    { a with
      s := askStream a.s j (st, from_, top - from_), pos := tset 0 a.pos st till
      last := if n.isSome then n else if manWhole x then some (till - from_) else none }

/-- An output moves the cursor of its stream. -/
def writeAhead (j : Nat) (a : Ahead) (st : Nat) (n : Option Nat) : Ahead :=
  match n with
  | some n => { a with pos := tset 0 a.pos st (a.at_ (getJob a.s j) st + n) }
  | none => { a with lost := st :: a.lost }

/-- One use of a stream. Of a long bale whose header has not come every known fragment is read. -/
def useAhead (j : Nat) (a : Ahead) (u : StreamUse) : Ahead :=
  match u with
  | .read st n => readAhead j a st n
  | .bale st =>
    let x := getJob a.s j
    let h := arrived x st (a.at_ x st) 64
    readAhead j a st (if h.length = 64 then some (64 + 16 * ceilDiv (ofLe (slice h 26 4)) 16) else none)
  | .readSame st => match a.last with
    | some n => readAhead j a st (some n)
    | none => { a with lost := st :: a.lost }
  | .write st n => writeAhead j a st n
  | .writeSame st => writeAhead j a st a.last

/-- R145: reads of the input fragments that are known, for the instructions before the next FENCE or EVENT. What the window has no
room for is read later (R155). -/
def prefetch (s : State) (j : Nat) : State :=
  (((aheadOf s (getJob s j)).flatMap streamUses).foldl (useAhead j) { s := s }).s

/-- R154: the manifest reads and input reads of a job that is placed, as the window has room. -/
def startReads (s : State) (j : Nat) : State :=
  let x := getJob s j
  if jobLost s j then s
  else if e0Manifest x.word0 then (if x.word1.toNat % 16 = 0 then askBlock s j else s)
  else prefetch s j

/-- Reads that the window held back go once it has room (R154): those of the running job and of the staged jobs of a lane, oldest
first. -/
def laneReads (s : State) (l : Nat) : State :=
  let n := getLane s l
  forAll (n.run.toList ++ n.courier.toList ++ n.staged) (fun s j =>
    let x := getJob s j
    if x.isOver then s
    else if e0Manifest x.word0 && x.fragAsked = 0 then startReads s j
    else if jobLost s j || (e0Manifest x.word0 && x.fragBlocks = 0) then s else prefetch s j) s

/-! ### Where jobs are -/

/-- The job leaves every place on the lanes. -/
def unseat (s : State) (j : Nat) : State :=
  let drop := fun (o : Option Nat) => if o = some j then none else o
  { s with lanes := tmapv {} (fun _ l => { l with
      run := drop l.run, saved := l.saved.filter (fun k => k ≠ j), staged := l.staged.filter (fun k => k ≠ j)
      prep := drop l.prep, setup := drop l.setup, courier := drop l.courier
      ctxKeys := terase l.ctxKeys j, slots := l.slots.filter (fun c => c.1 ≠ j) }) s.lanes }

/-- The job leaves every queue of Muster. -/
def unqueue (s : State) (j : Nat) : State :=
  let f := fun (q : List Nat) => q.filter (fun k => k ≠ j)
  upMuster s (fun m => { m with
    arrCourier := f m.arrCourier, arrOther := f m.arrOther, courierQ := f m.courierQ, postQ := f m.postQ
    freightQ := f m.freightQ, ballastQ := f m.ballastQ })

/-- Jobs go to the front of their class queues, in their original order (R136, R142, R175). -/
def queueFront (s : State) (js : List Nat) : State :=
  let of_ := fun (c : JobClass) => js.filter (fun j => (getJob s j).cls = c)
  let s' := forAll js (fun s j => modJob s j (fun x => { x with seat := .queued })) s
  upMuster s' (fun m => { m with
    courierQ := of_ .courier ++ m.courierQ, postQ := of_ .post ++ m.postQ, freightQ := of_ .freight ++ m.freightQ
    ballastQ := of_ .ballast ++ m.ballastQ })

/-- Outstanding reads of the job are cancelled: what returns is discarded. -/
def orphanReads (s : State) (j : Nat) : State :=
  let s := withdraw s (fun a => isReadOf j a.who)
  upAi s (fun a => { a with accesses := tmapv none (fun _ o => o.map (fun (c : Access) =>
    if isReadOf j c.who then { c with who := .nobody } else c)) a.accesses })

/-- R154: a staged job becomes unprepared: its leases are returned, its setup and its data discarded. -/
def unprepare (s : State) (j : Nat) : State :=
  let s := releaseKeys s j
  modJob s j (fun x => { x with started := false, setUp := false, preparedTo := 0, flags := {}, pos := 0 })

/-- A staged job goes back to its class queue (R136, R142, R154): its reads are cancelled and its data discarded. -/
def returnJob (s : State) (j : Nat) : State :=
  let s := orphanReads (unprepare (unseat s j) j) j
  modJob s j (fun x => { x with frags := [], fragBlocks := 0, fragAsked := 0, buf := [], asked := [], stop := none, cursors := [] })

/-- A job among others that stand in the order of their admission. -/
def insertAdm (s : State) (j : Nat) : List Nat → List Nat
  | [] => [j]
  | k :: ks => if (getJob s j).adm ≤ (getJob s k).adm then j :: k :: ks else k :: insertAdm s j ks

/-- The staged jobs of several lanes, with those in preparation and setup, go back to the front of their queues, in the order in which
they were admitted. -/
def returnLanes (s : State) (lanes : List Nat) : State :=
  let js := (lanes.flatMap (fun l => (getLane s l).staged)).foldr (insertAdm s) []
  queueFront (forAll js returnJob s) js

/-- The staged jobs of a lane go back. -/
def returnStaged (s : State) (lane : Nat) : State := returnLanes s [lane]

/-! ### Laggards (R141) -/

/-- The expected time of a ring, as used. -/
def expectedNs (s : State) (r : Nat) : Nat := Nat.max (getRing s r).expTime s.muster.lagFloor.toNat

/-- The oldest job resident on a target, running or saved. -/
def oldestOn (s : State) (lane : Nat) : Option Nat :=
  match (getLane s lane).saved.getLast? with
  | some j => some j
  | none => (getLane s lane).run

/-- R141: the target is a laggard. -/
def isLaggard (s : State) (lane : Nat) : Bool :=
  s.muster.lagEn && (match oldestOn s lane with
    | some j => 8 * expectedNs s (getJob s j).ring < (getJob s j).ran
    | none => false)

/-- R142: a target stops being a laggard when no resident job makes it one. -/
def unlag (s : State) (lane : Nat) : State :=
  modLane s lane (fun l => { l with laggard := l.laggard && isLaggard s lane })

/-- R141: the expected time after a job of run time `t` has ended. R141 gives no precision: E is whole nanoseconds, and the eighth of the
difference is rounded towards zero (DESIGN CHOICE, log entry 63). -/
def expectNext (e t : Nat) : Nat := if e ≤ t then e + (t - e) / 8 else e - (e - t) / 8

/-! ### How a job ends -/

/-- What the job has queued or running on the Counting House, the Scales, the Well and the Mint is dropped, and a key made for it that no
slot holds yet; a running operation is aborted, for row `row` of Table 9.6, and one that ends in the same control cycle is wiped if that row
is an abort's (R247); row 2 is also the end of a job. -/
def dropWork (s : State) (j row : Nat) : State :=
  let s := upSerai s (fun x => { x with incoming := terase x.incoming j })
  let s := returnLent s j
  let s := upHouse s (fun h => { h with queue := h.queue.filter (fun r => !(r.who = .lane && r.job = j)) })
  let s := upScales s (fun h => { h with queue := h.queue.filter (fun r => !(r.who = .lane && r.job = j)) })
  let s := upWell s (fun w => { w with draws := w.draws.filter (fun d => !d.who.isOf j) })
  let s := upMint s (fun m => { m with fills := tmapv {} (fun _ f => { f with joined := f.joined.filter (fun k => k ≠ j) }) m.fills })
  let s := whenS (row ≠ 2) (fun s => wipeEnded s j row) s
  let s := forAll (List.range 8) (fun s b =>
    if (getBench s b).run.any (fun r => r.who = .lane && r.job = j) then abortBench s b row else s) s
  forAll (List.range 4) (fun s c =>
    if (getCtx s c).run.any (fun r => r.who = .lane && r.job = j) then abortCtx s c else s) s

/-- R82 steps 1 to 3: key registers release their leases, holdings end with their wipes, and the job's state is destroyed. -/
def clearJob (s : State) (j : Nat) : State :=
  let s := releaseKeys s j
  let s := forAll (List.range 8) (fun s b => if (getBench s b).holder = some j then wipeBench s b 4 else s) s
  let s := forAll (List.range 4) (fun s c => if (getCtx s c).holder = some j then dropCtxHolding s c else s) s
  let s := orphanReads s j
  modJob s j (fun x => { ring := x.ring, seq := x.seq, entry := x.entry, word0 := x.word0, cls := x.cls, seat := .ended
                         status := x.status, noStatus := x.noStatus, bell := x.bell, isOver := true, occ := x.occ, onLane := x.onLane
                         endLane := x.endLane, settled := x.settled })

/-- CHARGE in effect: 0 acts as 1 (Table 5.5). -/
def chargeVal (s : State) : Nat := if s.muster.cbCharge = 0 then 1 else s.muster.cbCharge.toNat

/-- R127: settlement of a Courier job, once: the level changes by CHARGE − occupancy, within −DEPTH to +DEPTH. A job that ends without a
STATUS write occupies its lane until it is discarded (DEDUCED, log entry 63). -/
def settle (s : State) (j : Nat) : State :=
  let x := getJob s j
  if x.cls ≠ .courier || x.settled then s
  else
    let m := s.muster
    let top : Int := 1024 * m.cbDepth.toNat
    let v : Int := m.cbLevel + 1024 * ((chargeVal s : Int) - x.occ)
    let s := modJob s j (fun x => { x with settled := true })
    upMuster s (fun m => { m with cbLevel := if top < v then top else if v < -top then -top else v })

/-- The job ends with its status; `lane` is the leading lane it ran on, if it ran (R18, R141). A job that ends without having been on a
lane has no run time and leaves the expected time of its ring (R141 does not say; DESIGN CHOICE, log entry 63); a run time is rounded down
to nanoseconds. -/
def finishJob (s : State) (j : Nat) (lane : Option Nat) : State :=
  let x := getJob s j
  let s := unqueue (unseat (dropWork s j 2) j) j
  let s := whenS x.noStatus (fun s => settle s j) (clearJob s j)
  match lane with
  | none => s
  | some l =>
    let s := modJob (unitEnding s (laneUnit l) x.status) j (fun x => { x with endLane := some l })
    let s := modRing s x.ring (fun r => { r with expTime := expectNext r.expTime (x.ran / 2) })
    unlag s l

/-- A job that is not in execution ends at once with a status. -/
def endAside (s : State) (j : Nat) (st : Status) (lane : Option Nat) : State :=
  finishJob (modJob s j (fun x => { x with status := st, isOver := true })) j lane

/-- The running job has met a hard status: it ends at once (R63), and its JOB_END follows. -/
def endHard (s : State) (j : Nat) (st : Status) : State :=
  let s := dropWork s j 2
  modJob s j (fun x => { x with isOver := true, status := st, wait := .nothing, kept := none, wrote := none })

/-- A job that has ended takes a hard status in place of a mild one: the unit on which it ended counts a fault (R18). -/
def lateStatus (s : State) (j : Nat) (st : Status) : State :=
  let u := (getJob s j).endLane.map laneUnit
  let s := modJob s j (fun x => { x with status := st })
  match u with
  | none => s
  | some u =>
    let s := modUnit s u (fun x => { x with faults := x.faults + 1 })
    forAll (unitPath u) (fun s v => modUnit s v (fun x => { x with lastCode := st.code })) s

/-- A status reaches a job from outside its instruction (R43, R352): a running job ends at once, a job that is not in execution
when it enters execution, and a job that has ended takes it unless its status is hard already. -/
def failJob (s : State) (j : Nat) (st : Status) : State :=
  let x := getJob s j
  match x.seat with
  | .running _ => if x.isOver then (if x.status.mild then modJob s j (fun x => { x with status := st }) else s) else endHard s j st
  | .staged _ => modJob s j (fun x => { x with stop := some (x.stop.getD st) })
  | .saved _ => modJob s j (fun x => { x with stop := some (x.stop.getD st) })
  | .ended => if x.status.mild then lateStatus s j st else s
  | _ => s

/-- The requester of an engine operation that ends without a result: a lane's job, or the Mint or Safe-conduct. -/
def requestFails (s : State) (who : ScWho) (n : Nat) (st : Status) : State :=
  match who with
  | .lane => failJob s n st
  | _ => internalFails s who n st

/-! ### Draws of an instruction (R282, R283) -/

/-- What a draw meets. -/
inductive DrawRes where
  | denied (s : State)
  | waits (s : State)
  | got (bs : List Byte) (s : State)

/-- An instruction of job `j` on lane `l` draws `n` bytes in class `cls`: those granted to it, or it waits for its grants. -/
def laneDraw (s : State) (cls l j n : Nat) : DrawRes :=
  match (getJob s j).kept with
  | some bs => .got bs s
  | none =>
    if !wellCan s then .denied (wellDeny s)
    else .waits (modJob (askDraw s cls (.lane j l) n) j (fun x => { x with wait := .well s.well.nextDraw }))

/-- The class of a lane draw: 3 for a Courier job (R282). -/
def drawClass (s : State) (j : Nat) : Nat := if (getJob s j).cls = .courier then 3 else 4

/-- Go on with drawn bytes; a Well that cannot deliver ends the job (R283). -/
def withDraw (s : State) (l j n : Nat) (k : List Byte → State → State) : State :=
  match laneDraw s (drawClass s j) l j n with
  | .denied s => endHard s j .entropyFail
  | .waits s => s
  | .got bs s => k bs s

/-- Go on with a result, or ask for what is missing, or end. -/
def goOn {α : Type} (s : State) (j : Nat) (r : Res α) (k : α → State) : State :=
  match r with
  | .ok a => k a
  | .man l =>
    if jobLost s j then endHard s j .hostLost
    else askNeeds (if noneComing s j then askManifest s j else askBlock s j) j l
  | .need l _ => if jobLost s j then endHard s j .hostLost else askNeeds s j l
  | .hard st => endHard s j st

end Sys2Proof.Machine
end

