-- ==== Sys2Proof/Machine/RingOps.lean ====
section
/-! DEFINITION. What the Waystation does with a ring beyond its commands: scanning (R36 to R41), release and the completion count
(R47, R48, R139), interrupts and events (R50, R51), and faults (R57). -/

namespace Sys2Proof.Machine

/-! ### When a ring may work -/

/-- The ring is touched by a string in Containment (Table 16.4). -/
def ringTouched (s : State) (r : Nat) : Bool := s.mode.touched.any (fun t => t.2 = r)

/-- A Recovery in progress covers the ring and has reached step `n` (R394). -/
def recovAt (s : State) (r n : Nat) : Bool := s.mode.recov.any (fun v => v.rings.contains r && n ≤ v.step)

/-- The ring's memory is out of reach: the host link is lost, or it was at some moment of the Recovery in whose scope the ring is, so that
the ring stays FROZEN with its endings held (R367, R397). -/
def hostGone (s : State) (r : Nat) : Bool :=
  !(getRing s r).spaceLocal && (s.pins.linkLost || s.mode.recov.any (fun v => v.rings.contains r && v.lost))

/-- The ring may scan (R32, R40, R387, R391, R394). -/
def scanMay (s : State) (r : Nat) : Bool :=
  (getRing s r).state = .running && inMode s .service && !s.mode.stopping && !ringTouched s r && !recovAt s r 1

/-- The ring may publish counts (R57, R58, R391, step 4 of Table 16.5). -/
def publishMay (s : State) (r : Nat) : Bool :=
  let g := getRing s r
  !g.countStop && !hostGone s r && g.state ≠ .resetting &&
  (if recovAt s r 1 then recovAt s r 4
   else inMode s .service && !ringTouched s r && (g.state = .running || g.state = .stopping || g.state = .faulted))

/-- STATUS writes of the ring may be issued: they wait in the reorder slots of a FROZEN ring, and for step 4 of a Recovery. -/
def statusMay (s : State) (r : Nat) : Bool :=
  let g := getRing s r
  !hostGone s r && g.state ≠ .resetting &&
  (if recovAt s r 1 then recovAt s r 4 else inMode s .service && g.state ≠ .frozen)

/-- The number of entries of a ring. -/
def ringSize (g : RingRec) : Nat := 2 ^ g.logSize.toNat

/-! ### Latency tolerance (R365) -/

/-- A host ring calls for the ACTIVE value. -/
def ltrBusy (s : State) : Bool :=
  s.rings.any (fun kv => kv.2.state = .running && !kv.2.spaceLocal && (kv.2.courier || 0 < kv.2.inflight || kv.2.pending))

/-- ACTIVE applies at once, and IDLE outside Service at once. -/
def ltrRefresh (s : State) : State :=
  if !inMode s .service then proposeLtr s s.ai.ltrIdle
  else if ltrBusy s then proposeLtr s s.ai.ltrActive else s

/-! ### Scanning -/

/-- Scan reads of the ring that are outstanding, those of scans that have ended among them. -/
def scanReads (s : State) (r : Nat) : Nat :=
  (accessesOf s (fun w => match w with
    | .scan k _ => k = r
    | .scanGone k => k = r
    | _ => false)).length

/-- The three stops of a scan (R40): an entry that is not owned, INFLIGHT at 1,024, and a ring that may not scan any more. -/
inductive ScanStop where
  | notOwned
  | full
  | left
  deriving DecidableEq, Repr

/-- The scan ends: what its reads return is discarded. After the second stop it resumes by itself; after the third it goes on once the
ring may scan again (R40, R41, R52). -/
def scanEnd (s : State) (r : Nat) (why : ScanStop) : State :=
  let mine := fun (a : Access) => match a.who with
    | .scan k _ => k = r
    | _ => false
  let s := withdraw s mine
  let s := upAi s (fun a => { a with accesses := tmapv none (fun _ o => o.map (fun (c : Access) =>
    if mine c then { c with who := .scanGone r } else c)) a.accesses })
  modRing s r (fun g => { g with
    scanning := false, scanHeld := why = .full, scanCut := why = .left && (g.scanning || g.scanHeld || g.scanCut), waitSlot := false
    scanGot := [], scanNext := g.taken })

/-- Issue scan reads, up to four, each to the next 1 KiB boundary or the ring's last entry (R41); none while the scan waits for a
reorder slot (R128). -/
def scanIssue : Nat → State → Nat → State
  | 0, s, _ => s
  | fuel + 1, s, r =>
    let g := getRing s r
    if !g.scanning || g.waitSlot || !scanMay s r || 4 ≤ scanReads s r then s
    else
      let idx := g.scanNext.toNat % ringSize g
      let addr := g.base + w64 (64 * idx)
      let n := Nat.min ((1024 - addr.toNat % 1024) / 64) (ringSize g - idx)
      let s := modRing s r (fun g => { g with scanNext := g.scanNext + w32 n })
      scanIssue fuel (issueAccess s (.scan r g.scanNext.toNat) (ringAttr s r g.courier) addr (64 * n) none) r

/-- Reads go while they may. -/
def scanPump (s : State) (r : Nat) : State := scanIssue 4 s r

/-- R128: a reorder slot is available to the ring. -/
def slotFree (s : State) (r : Nat) : Bool :=
  if (getRing s r).courier then 0 < s.muster.roFree else capAt 4096 s.muster.roResv.toNat < s.muster.roFree

/-- The Waystation takes the entry at TAKEN with these words and hands it to Muster (R36, R37, R129). -/
def takeEntry (s : State) (r : Nat) (ws : List W64) : State :=
  let g := getRing s r
  let id := s.nextJob
  let w0 := ws.getD 0 0
  let job : Job := { ring := r, seq := g.taken, entry := g.base + w64 (64 * (g.taken.toNat % ringSize g)), word0 := w0
                     word1 := ws.getD 1 0, slots := ws.drop 2, seat := .arriving, bell := g.scanBell }
  let s := { s with jobs := tset {} s.jobs id job, nextJob := id + 1 }
  let s := modRing s r (fun g => { g with taken := g.taken + 1, takenTotal := g.takenTotal + 1, inflight := g.inflight + 1
                                          order := g.order ++ [id] })
  upMuster s (fun m => { m with
    roFree := m.roFree - 1
    arrCourier := if g.courier && e0Class w0 = 0 then m.arrCourier ++ [id] else m.arrCourier
    arrOther := if g.courier && e0Class w0 = 0 then m.arrOther else m.arrOther ++ [id] })

/-- The entry at TAKEN, if it has returned. -/
def examined (g : RingRec) : Option (List W64) := (g.scanGot.find? (fun e => e.1 = g.taken.toNat)).map Prod.snd

/-- Decide ownership in index order (R36, R40, R41, R128). -/
def scanDecide : Nat → State → Nat → State
  | 0, s, _ => s
  | fuel + 1, s, r =>
    let g := getRing s r
    if !g.scanning then s
    else if !scanMay s r then scanEnd s r .left
    else match examined g with
      | none => scanPump s r
      | some ws =>
        if e0Phase (ws.getD 0 0) ≠ expectedPhase g.taken.toNat g.logSize.toNat then scanEnd s r .notOwned
        else if !slotFree s r then modRing s r (fun g => { g with waitSlot := true })
        else
          let s := takeEntry s r ws
          let s := modRing s r (fun g => { g with waitSlot := false, scanGot := g.scanGot.filter (fun e => e.1 ≠ (g.taken - 1).toNat) })
          if 1024 ≤ (getRing s r).inflight then scanEnd s r .full else scanDecide fuel s r

/-- The eight words of each entry in the bytes of a scan read. -/
def entriesOf (bs : List Byte) (n : Nat) : List (List W64) :=
  (List.range n).map (fun i => (List.range 8).map (fun k => w64 (ofLe (slice bs (64 * i + 8 * k) 8))))

/-- A scan read has returned (R36). -/
def scanHere (s : State) (r first : Nat) (bs : List Byte) : State :=
  let es := entriesOf bs (bs.length / 64)
  let got := (List.range es.length).map (fun i => ((w32 (first + i)).toNat, es.getD i []))
  let s := modRing s r (fun g => { g with scanGot := g.scanGot ++ got })
  ltrRefresh (scanDecide (2 * (getRing s r).scanGot.length + 1) s r)

/-- A scan starts at the entry after the last one taken (R39). -/
def scanBegin (s : State) (r : Nat) : State :=
  let s := modRing s r (fun g => { g with scanning := true, scanHeld := false, scanCut := false, waitSlot := false, scanGot := [], scanNext := g.taken })
  if 1024 ≤ (getRing s r).inflight then scanEnd s r .full else scanPump s r

/-- A scan that the third stop ended goes on at the entry where it stopped, once the ring may scan (R40, R52). -/
def scanGoesOn (s : State) (r : Nat) : State :=
  if (getRing s r).scanCut && scanMay s r then ltrRefresh (scanBegin s r) else s

/-- One doorbell (R39): it acts on a RUNNING ring only. -/
def ringBell (s : State) (r : Nat) : State :=
  let g := getRing s r
  if g.state ≠ .running then s
  else ltrRefresh (modRing s r (fun g => { g with
    doorbells := g.doorbells + 1, bellAt := if g.pending then g.bellAt else s.cycle, pending := true }))

/-! ### Release and the count -/

/-- The jobs of the ring that are released and not yet covered: the acknowledged prefix of its order (R139). -/
def releasable (s : State) (r : Nat) : List Nat := (getRing s r).order.takeWhile (fun j => (getJob s j).seat = .acked)

/-- A count write of the ring is outstanding (R48). -/
def countOut (s : State) (r : Nat) : Bool :=
  busyFor s (fun w => match w with
    | .count k => k = r
    | _ => false)

/-- Jobs are forgotten and their reorder slots return to the free pool. -/
def dropJobs (s : State) (js : List Nat) : State :=
  { s with jobs := js.foldl (fun t j => tset {} t j {}) s.jobs, muster := { s.muster with roFree := s.muster.roFree + js.length } }

/-- R52: a STOPPING ring stops once INFLIGHT is 0 and its last count write is acknowledged. -/
def stopCheck (s : State) (r : Nat) : State :=
  let g := getRing s r
  if g.state = .stopping && g.inflight = 0 && !countOut s r then
    modRing s r (fun g => { g with state := .stopped, cmdBusy := false, cmdResult := Status.done.code })
  else s

/-- R48: the count write with the highest count released so far, at most one outstanding. A count whose write was lost with the
host link is written again. -/
def tryPublish (s : State) (r : Nat) : State :=
  let js := releasable s r
  if (js.isEmpty && (getRing s r).count = (getRing s r).countAcked) || countOut s r || !publishMay s r then s
  else
    let bells := (getRing s r).bells ++ (js.filter (fun j => (getJob s j).cls = .courier)).map (fun j => (getJob s j).bell)
    let s := modRing s r (fun g => { g with
      bells := [], count := g.count + w32 js.length, released := g.count + w32 js.length, inflight := g.inflight - js.length
      order := g.order.drop js.length })
    let s := dropJobs s js
    let g := getRing s r
    issueAccess s (.count r) { ringAttr s r g.courier with bells := bells } g.headAddr 4 (some (leBytes 4 g.count.toNat))

/-- R50: a message request for the ring after a count write that changed COUNT. With HOLDOFF = 0 each makes one; the interval after it
matters once HOLDOFF is written. -/
def ringMessage (s : State) (r : Nat) : State :=
  let g := getRing s r
  if !g.irqEn then s
  else if g.irqHoldoff = 0 then irq (modRing s r (fun g => { g with holding := true, msgHeld := false })) r
  else if g.holding then modRing s r (fun g => { g with msgHeld := true })
  else irq (modRing s r (fun g => { g with holding := true, msgHeld := false })) r

/-- A count write is acknowledged (R48, R50, R51, R52). -/
def countAck (s : State) (r : Nat) : State :=
  let g := getRing s r
  let changed := g.count ≠ g.countAcked
  let s := modRing s r (fun g => { g with countAcked := g.count })
  let s := if changed then
      let s := ringMessage s r
      if g.evtEn then raise s (256 + g.evtSrc.toNat) else s
    else s
  stopCheck (tryPublish s r) r

/-- R57: the ring becomes FAULTED with a status; a STOP in progress ends with it. Table 2.7 lists the transition from RUNNING and STOPPING
only, and R57 names no state: the model follows R57 from every state but RESETTING, which Table 2.7 lets end in STOPPED alone; there
the failure is in LASTERR and in its record, and the RESET goes on. On a FAULTED ring a further failure is in LASTERR and in a record of its
own (DESIGN CHOICE, log entry 68). -/
def ringFault (s : State) (r : Nat) (st : Status) (addr : W64) : State :=
  let s := if (getRing s r).state = .resetting then modRing s r (fun g => { g with lastErr := st.code })
    else modRing (scanEnd s r .left) r (fun g => { g with
      state := .faulted, lastErr := st.code, cmdBusy := false
      cmdResult := if g.cmdBusy then st.code else g.cmdResult })
  emit s 1 0x102 st.code (w32 r :: loHi addr)

end Sys2Proof.Machine
end

