-- ==== Sys2Proof/Machine/Deliver.lean ====
section
/-! DEFINITION. What a finished access brings to its requester (R352), and the end of every part of an access: a response, a denial
or a write-off. -/

namespace Sys2Proof.Machine

/-- The job is there. -/
def jobExists (s : State) (j : Nat) : Bool := s.jobs.any (fun kv => kv.1 = j)

/-- A manifest block has reached the lane (R43): its fragments are known up to LAST, and a fault is found. -/
def manifestHere (s : State) (j b : Nat) (bs : List Byte) : State :=
  let x := getJob s j
  let skip := fragSkip x
  let put := fun (t : Table (BitVec 128)) (k : Nat) =>
    let pos := 8 * b + k
    if pos < skip ∨ skip + 4096 ≤ pos then t else tset 0 t (pos - skip) (BitVec.ofNat 128 (ofLe (slice bs (16 * k) 16)))
  let s := modJob s j (fun x => { x with frags := (List.range 8).foldl put x.frags, fragBlocks := b + 1 })
  let y := getJob s j
  if (knownFrags y).any fragBad || (!manWhole y && 4096 ≤ fragCount y) then failJob s j .manifestFault
  else if jobLost s j then s else prefetch s j

/-- Bytes of a job's stream have reached the lane buffer. -/
def jobDataHere (s : State) (j st off : Nat) (bs : List Byte) : State :=
  modJob s j (fun x => { x with buf := x.buf ++ [(bufKey st off, bs)] })

/-- Request `r` has its data whole: those of a job's stream go to the lane buffer, without waiting for the rest of their access. -/
def requestHere (s : State) (r : Req) : State :=
  match tget none s.ai.accesses r.access with
  | some a =>
    (match a.who with
     | .jobRead j k off =>
       let d := r.addr.toNat - a.addr.toNat
       if jobExists s j then jobDataHere s j k (off + d) (tread 0 a.data d r.len) else s
     | _ => s)
  | none => s

/-- A STATUS write has ended (R45, R57, R139). One that is written off with the host link lost leaves the ending in its reorder slot, and
Recovery issues the STATUS again (R367 does not say what becomes of a STATUS write already issued: DESIGN CHOICE, log entry 61). -/
def statusEnd (s : State) (j : Nat) (fail : Option Status) (addr : W64) : State :=
  let r := (getJob s j).ring
  match fail with
  | none => stopCheck (tryPublish (modJob s j (fun x => { x with seat := .acked })) r) r
  | some .hostLost => modJob s j (fun x => { x with seat := .ended })
  | some st => ringFault (modRing (modJob s j (fun x => { x with seat := .held })) r (fun g => { g with countStop := true })) r st addr

/-- A count write has ended (R48, R57). One that the loss of the host link has kept from the port leaves its doorbells to the next (R143). -/
def countEnd (s : State) (r : Nat) (bells : List Nat) (fail : Option Status) (addr : W64) : State :=
  match fail with
  | none => countAck s r
  | some .hostLost => modRing s r (fun g => { g with bells := g.bells ++ bells })
  | some st => ringFault (modRing s r (fun g => { g with countStop := true })) r st addr

/-- The fill is pending. -/
def fillExists (s : State) (f : Nat) : Bool := s.mint.fills.any (fun kv => kv.1 = f)

/-- The read of a Mint fill has ended. -/
def fillHere (s : State) (f : Nat) (bs : List Byte) (fail : Option Status) : State :=
  if !fillExists s f then s
  else match fail with
    | none => modFill s f (fun x => { x with bale := bs, phase := .arrived })
    | some e => modFill s f (fun x => { x with phase := .failed e })

/-- The read of the charter has ended (R203, R268): 16 KiB lie in the public area of context 2, the rest in that of context 3. -/
def charterHere (s : State) (bs : List Byte) (fail : Option Status) : State :=
  if s.mint.chStage ≠ .reading then s
  else if fail.isSome then mintRefuse s .fabricError 2 0
  else
    let s := modCtx s 2 (fun x => { x with mem := tfill 0 x.mem 0 (bs.take 16384) })
    let s := modCtx s 3 (fun x => { x with mem := tfill 0 x.mem 0 (bs.drop 16384) })
    upMint s (fun m => { m with chStage := .here, chSeq := w64 (ofLe (slice bs 8 8)) })

/-- The read of the tally has ended (R183 step 1); the failure of a step is met in the order of Table 7.7. -/
def tallyHere (s : State) (bs : List Byte) (fail : Option Status) : State :=
  if s.mint.chStage ≠ .tally then s
  else upMint s (fun m => { m with chTally := if fail.isNone then bs else [], chStage := .checked fail.isNone })

/-- The writes of the new tally have ended (R183 step 4). -/
def tallyWritten (s : State) (fail : Option Status) : State :=
  if s.mint.chStage ≠ .writing then s
  else if fail.isSome then mintRefuse s .fabricError 11 0
  else upMint s (fun m => { m with chStage := .ready })

/-- The writes of the certificate store or of a report have ended (R414, R416). -/
def safeWritten (s : State) (fail : Option Status) : State :=
  if s.safe.stage ≠ .writing then s
  else upSafe s (fun f => { f with stage := .over (if fail.isSome then .fabricError else .done) })

/-- A PUT's write is acknowledged (R198): the Serai slot of its entry is invalidated, and the PUT counts. -/
def putHere (s : State) (t : BitVec 12) (idx : BitVec 24) : State :=
  let s := flushWhere s (fun _ r => r.kind = .tenant && r.tenant = t && r.index = idx)
  upMint s (fun m => { m with puts := m.puts + 1 })

/-- What a finished access brings to its requester. -/
def deliver (s : State) (a : Access) : State :=
  let st := a.fail.map Prod.snd
  let at_ := match a.fail with
    | some f => w64 f.1
    | none => a.addr
  let bs := accessBytes a
  match a.who with
  | .nobody => s
  | .scan r first =>
    (match st with
     | none => scanHere s r first bs
     | some .hostLost => s
     | some e => ringFault s r e at_)
  | .scanGone r =>
    (match st with
     | none => scanPump s r
     | some .hostLost => s
     | some e => ringFault s r e at_)
  | .manifest j b =>
    if !jobExists s j then s
    else (match st with
      | none => manifestHere s j b bs
      | some e => failJob s j e)
  | .jobRead j _ _ =>
    if !jobExists s j then s
    else (match st with
      | none => s
      | some e => failJob s j e)
  | .jobWrite j _ =>
    if !jobExists s j then s
    else (match st with
      | none => s
      | some e => failJob s j e)
  | .poison j =>
    if !jobExists s j then s else failJob s j (st.getD .contextTamper)
  | .put j t idx =>
    let s := whenS st.isNone (fun s => putHere s t idx) s
    let s := upMint s (fun m => { m with busy := m.busy.erase (j, t, idx) })
    if !jobExists s j then s
    else (match st with
      | none => s
      | some e => failJob s j e)
  | .status j => if jobExists s j then statusEnd s j st at_ else s
  | .count r => countEnd s r a.bells st at_
  | .record f => fillHere s f bs st
  | .bale f => fillHere s f bs st
  | .charterRead => charterHere s bs st
  | .tallyRead => tallyHere s bs st
  | .tallyWrite => tallyWritten s st
  | .storeWrite => safeWritten s st
  | .reportWrite => safeWritten s st
  | .ptIndex n e b =>
    (match st with
     | none => ptIndexHere s n e b bs
     | some _ => ptStop s none false a.cause at_)
  | .ptRead n e pos dst =>
    (match st with
     | none => ptDataHere s n e pos dst bs
     | some _ => ptStop s none false a.cause at_)
  | .ptWrite n e =>
    (match st with
     | none => s
     | some _ => ptStop s (if (getChan s n).epoch = e then some n else none) true a.cause at_)
  | .heartbeat =>
    (match st with
     | none => s
     | some e => emit s 12 0x005 e.code (w32 e.code.toNat :: loHi a.addr))

/-- One part of an access has ended; its requester hears of it once every part has. -/
def endPart (s : State) (id : Nat) (fail : Option (Nat × Status)) (cause : Nat) : State :=
  match partEnd s id fail cause with
  | (s, some a) => deliver s a
  | (s, none) => s

/-- Requests not yet issued of accesses that satisfy `p` fail with a status (R362, R367). -/
def failQueued (s : State) (p : Req → Bool) (st : Status) : State :=
  let ports := [0, 1, 2, 3]
  let gone := s.ai.untranslated.filter p ++ (ports.map (fun k => (getPort s k).queue.filter p)).flatten
  let s := forAll ports (fun s k => modPort s k (fun q => { q with queue := q.queue.filter (fun r => !p r) })) s
  let s := upAi s (fun a => { a with untranslated := a.untranslated.filter (fun r => !p r) })
  gone.foldl (fun s r => endPart s r.access (some (r.addr.toNat, st)) 1) s

/-- The status of a response (Table 15.3). -/
def respStatus (v : Nat) : Status := if v = 2 then .translationFault else .fabricError

/-- R357, R376: request `r` under tag `tag` of port `k` is written off, with the beats of it that have not arrived; of those and the beats that
arrived with an error the lowest gives the status (R352). The cause is 1 for its timer, 2 for an interconnect reset, after
which the tag needs no quarantine. -/
def writeOff (s : State) (k tag : Nat) (r : Req) (cause : Nat) : State :=
  let ring := match tget none s.ai.accesses r.access with
    | some a => a.ring.getD 0xFFF
    | none => 0xFFF
  let s := modPort s k (fun p => { p with
    woff := p.woff + 1
    reads := if r.write then p.reads else tset none p.reads tag none
    writes := if r.write then tset none p.writes tag none else p.writes
    quarReads := if r.write || cause = 2 then p.quarReads else tset 0 p.quarReads tag 1
    quarWrites := if r.write && cause ≠ 2 then tset 0 p.quarWrites tag 1 else p.quarWrites })
  let st := if !r.spaceLocal && r.sawLost then Status.hostLost else .fabricError
  let s := emit s 14 0x601 st.code (w32 (k + 4 * bit r.write + 8 * tag + 2048 * bit (!r.spaceLocal) + 4096 * cause + 65536 * ring) :: loHi r.addr)
  let s := if r.write then s else endUse s k tag
  let missing := (List.range (beatsOf r.addr.toNat r.len)).find? (fun b => !r.came.contains b)
  let off := missing.map (fun b => (Nat.max ((r.addr.toNat / 128 + b) * 128) r.addr.toNat, st))
  let worst := lowerFail r.fail off
  tgClear (endPart s r.access worst (if worst = r.fail then 1 else 2)) 2

end Sys2Proof.Machine
end

