-- ==== Sys2Proof/Machine/FuseOps.lean ====
section
/-! DEFINITION. The fuse array (R403): its words and copies, what is sensed of it (R404 to R406), and how a fuse command blows bits
(R408 to R410). -/

namespace Sys2Proof.Machine

/-! ### Fuse words (R403) -/

/-- The eight data words and the check bits of the secret copy that starts at word `w`. -/
def fuseCopy (s : State) (w : Nat) : List Byte × Nat :=
  ((List.range 8).flatMap (fun i => leBytes 4 (tget 0 s.fuse.array (w + i)).toNat), (tget 0 s.fuse.array (w + 8)).toNat % 1024)

/-- The ten SECDED check bits over data words. -/
def fuseEcc (data : List Byte) : Nat := ofLe (stdBytes .fuseEcc [data] 2) % 1024

/-- Flip bit `k` of a byte string. -/
def flipBit (bs : List Byte) (k : Nat) : List Byte := leBytes bs.length (Nat.xor (ofLe bs) (2 ^ k))

/-- What data and check bits decode to, with at most one corrected bit. -/
def eccDecode (data : List Byte) (check : Nat) : Option (List Byte) :=
  if fuseEcc data = check then some data
  else if (List.range 10).any (fun k => decide (fuseEcc data = Nat.xor check (2 ^ k))) then some data
  else ((List.range (8 * data.length)).map (flipBit data)).find? (fun d => decide (fuseEcc d = check))

/-- A copy is blank: all nine words are zero. -/
def copyBlank (s : State) (w : Nat) : Bool := (List.range 9).all (fun i => tget 0 s.fuse.array (w + i) = 0)

/-- First words of the copies of RS, and of IS. -/
def rsWords : List Nat := [0, 9, 18]
/-- See `rsWords`. -/
def isWords : List Nat := [27, 36, 45]

/-- The nine words of a secret copy at word `w`: its data and its ECC word (R403). -/
def copyPlan (w : Nat) (data : List Byte) : List (Nat × W32) :=
  (List.range 8).map (fun i => (w + i, w32 (ofLe (slice data (4 * i) 4)))) ++ [(w + 8, w32 (fuseEcc data))]

/-- The plan of GENROOT: RS and IS, copy by copy. -/
def genrootPlan (drawn : List Byte) : List (Nat × W32) :=
  rsWords.flatMap (fun w => copyPlan w (drawn.take 32)) ++ isWords.flatMap (fun w => copyPlan w (drawn.drop 32))

/-- At least two of three bits of a LIFE field read 1. -/
def lifeBlown (w : W32) (lo : Nat) : Bool := 2 ≤ bit (tb w lo) + bit (tb w (lo + 1)) + bit (tb w (lo + 2))

/-- SECRET_LOCK, OWNER_LOCK, RETIRE are blown in the array. -/
def secretLocked (s : State) : Bool := lifeBlown (tget 0 s.fuse.array 64) 0
/-- See `secretLocked`. -/
def ownerLocked (s : State) : Bool := lifeBlown (tget 0 s.fuse.array 64) 3
/-- See `secretLocked`. -/
def retireBlown (s : State) : Bool := lifeBlown (tget 0 s.fuse.array 64) 6

/-- All six copies are blank and SECRET_LOCK is not blown. -/
def fuseRaw (s : State) : Bool := (rsWords ++ isWords).all (copyBlank s) && !secretLocked s

/-- The lifecycle state (Table 17.3). -/
def lifeOf (s : State) : Nat :=
  if retireBlown s then 4
  else if fuseRaw s then 0
  else if !secretLocked s then 1
  else if ownerLocked s then 3 else 2

/-- The result of the two-of-three rule (Table 17.2): the decoded copies, the value if two agree, and which agree. A blank copy is not
intact: after an interrupted GENROOT the blank copies are no equal copies (R410; DEDUCED, log entry 48). -/
def twoOfThree (s : State) (ws : List Nat) : List (Option (List Byte)) × Option (List Byte) × Nat :=
  let cs := ws.map (fun w => let c := fuseCopy s w; if copyBlank s w then none else eccDecode c.1 c.2)
  let a := cs.getD 0 none
  let b := cs.getD 1 none
  let c := cs.getD 2 none
  if a.isSome && a = b then (cs, a, if a = c then 7 else 3)
  else if a.isSome && a = c then (cs, a, 5)
  else if b.isSome && b = c then (cs, b, 6)
  else (cs, none, 0)

/-- The intact copies as bits 0 to 2. -/
def intactBits (cs : List (Option (List Byte))) : Nat := ((List.range 3).map (fun i => 2 ^ i * bit (cs.getD i none).isSome)).sum

/-- The owner key hash of words 65 to 76, corrected, when it is programmed and its check word is good (R406). -/
def ownerHash (s : State) : Option (List Byte) :=
  let data := (List.range 12).flatMap (fun i => leBytes 4 (tget 0 s.fuse.array (65 + i)).toNat)
  if ofLe data = 0 then none else eccDecode data ((tget 0 s.fuse.array 77).toNat % 1024)

/-- The flags of FZ_STATUS that follow from the array (R404, R405). -/
def sensedFlags (s : State) (f : FuseRec) : FuseRec :=
  let rs := twoOfThree s rsWords
  let is := twoOfThree s isWords
  let none_ := rs.2.1.isNone || is.2.1.isNone
  { f with
    disagree := !fuseRaw s && ((rs.2.1.isSome && decide (rs.2.2 ≠ 7)) || (is.2.1.isSome && decide (is.2.2 ≠ 7)))
    fault := !fuseRaw s && none_, rsOk := BitVec.ofNat 3 (intactBits rs.1), isOk := BitVec.ofNat 3 (intactBits is.1)
    ownerV := (ownerHash s).isSome }

/-- The public words as sensed (R404). -/
def senseWords (s : State) : Table W32 := s.fuse.array.filter (fun kv => 64 ≤ kv.1)

/-! ### Fuse commands (R408 to R410) -/

/-- The bits that a plan of word programs still blows, in order (R409). -/
def planBits (s : State) (plan : List (Nat × W32)) : List (Nat × Nat) :=
  plan.flatMap (fun p => ((List.range 32).filter (fun b => tb p.2 b && !tb (tget 0 s.fuse.array p.1) b)).map (fun b => (p.1, b)))

/-- Blow one bit. -/
def blowBit (s : State) (wb : Nat × Nat) : State :=
  upFuse s (fun f => { f with array := tmod 0 f.array wb.1 (fun w => w ||| w32 (2 ^ wb.2)) })

/-- A FUSE_PROGRAM record (Table 17.10). -/
def fuseRecord (s : State) (j : FuseJob) (result : W16) (blown : Nat) : State :=
  emit s 16 0x802 result [w32 (j.word + 512 * j.op + 4096 * bit j.acc), w32 result.toNat, w32 blown]

/-- GENROOT cannot draw: ENTROPY_FAIL, with nothing programmed. -/
def genrootFails (s : State) : State :=
  let s := upFuse s (fun f => { f with cmd := none, cmdResult := Status.entropyFail.code })
  fuseRecord s { op := 2, word := 0x1FF, acc := false, plan := [] } Status.entropyFail.code 0

/-- A fuse command is interrupted (R410, Table 17.9): the bit being blown completes and no further bit is blown. How far the command had come
is a free value (DESIGN CHOICE, log entry 48); the bits that it has blown are counted. -/
def fuseCut (s : State) : Nat × State :=
  match s.fuse.cmd with
  | none => (0, s)
  | some j =>
    let bits := planBits s j.plan
    let n := ofLe ((List.range 2).map (fun i => Config.noise (s.free + i))) % (bits.length + 1)
    (n, (bits.take n).foldl blowBit (drewFree s 2))

/-- What the end of a command updates: the sensed words and the fields of FZ_STATUS, LIFE with its record (R404, R408). The secrets
themselves are taken in the next Self-check. -/
def fuseSensed (s : State) : State :=
  let old := s.fuse.life
  let new := BitVec.ofNat 3 (lifeOf s)
  let s := upFuse s (fun f => { sensedFlags s f with sensed := senseWords s, life := new })
  whenS (decide (old ≠ new)) (fun s => emit s 16 0x803 0 [w32 (old.toNat + 8 * new.toNat)]) s

end Sys2Proof.Machine
end

