-- ==== Sys2Proof/Machine/ModeOps.lean ====
section
/-! DEFINITION. Mode changes (R382, R385, R400, R401), Containment (R391), the start of a Recovery (R393), the zeroize event (R398,
R422) and the block reset (R383, R390): the shared operations that the mode commands and the faults use. -/

namespace Sys2Proof.Machine

/-! ### The Watchman's log (R424) -/

/-- The core rail was absent at an event that meets the block held in reset (R423): a free value (DESIGN CHOICE, log entry 13). -/
def railGone (s : State) : Bool := !awake s && Config.railAbsent s.free

/-- An entry of the always-on log (R424). -/
def aonEntry (s : State) (cause : Nat) : W64 :=
  w64 (s.watch.counter.toNat + 2 ^ 48 * cause + 2 ^ 52 * bit (railGone s) + 2 ^ 53 * bit (ownerHeld s))

/-- A Watchman source crosses to the control domain (R428). -/
def watchRaise (s : State) (src : Nat) : State :=
  whenS s.watch.irqEn (fun s => irqBlock s 33) (raise s src)

/-- Write a log entry while the core rail is present. -/
def aonLog (s : State) (cause : Nat) : State :=
  let e := aonEntry s cause
  let sec : W32 := if timeSet s then w32 s.almanac.time.sec.toNat else 0
  let s := upWatch (if awake s then s else drewFree s 1) (fun w => { w with
    log := tset 0 w.log w.logNext e, logSec := tset 0 w.logSec w.logNext sec
    logNext := (w.logNext + 1) % 16
    logValid := Nat.min 16 (w.logValid + 1)
    logLost := if w.logValid = 16 then Nat.min 65535 (w.logLost + 1) else w.logLost
    logNew := Nat.min 16 (w.logNew + 1) })
  watchRaise s 222

/-- At each entry to Provision the entries written since the last copy become AON_LOG records (R424). -/
def aonCopy (s : State) : State :=
  let n := s.watch.logNew
  let idx := (List.range n).map (fun i => (s.watch.logNext + 16 - n + i) % 16)
  let s := idx.foldl (fun s i =>
    emit s 17 0x806 0 (loHi (tget 0 s.watch.log i) ++ [tget 0 s.watch.logSec i])) s
  let away := idx.any (fun i => tb (tget 0 s.watch.log i) 52)
  whenS away (fun s => watchRaise s 223) (upWatch s (fun w => { w with logNew := 0 }))

/-- R419: the Strongbox macro clears OS, the tally version and FLAGS, with valid complements, and keeps SEQ. -/
def strongboxClear (b : Strongbox) : Strongbox :=
  { b with os := 0, osN := BitVec.allOnes 256, ver := 0, verN := BitVec.allOnes 64, flags := 0, flagsN := BitVec.allOnes 8 }

/-! ### Mode changes -/

/-- The Relay source that marks entry to a mode (Table 16.8). -/
def modeSource (m : Mode) : Option Nat :=
  match m with
  | .service => some 192
  | .provision => some 193
  | .containment => some 194
  | _ => none

/-- The mode register changes; each change writes MODE_CHANGE, raises its source and requests vector 32 (R382). -/
def modeSet (s : State) (new : Mode) (trigger : Nat) (port : Option CtlPort) : State :=
  let old := s.mode.mode
  let s := upMode s (fun m => { m with mode := new, transitions := m.transitions + 1 })
  let s := emit s 15 0x701 0 [w32 (old.code + 16 * new.code + 256 * trigger), match port with
    | some p => w32 (portBit p)
    | none => 0]
  let s := match modeSource new with
    | some k => raise s k
    | none => s
  whenS s.mode.irqMode (fun s => irqBlock s 32) s

/-- Every scan ends. -/
def scansEnd (s : State) : State :=
  forAll (tkeys (fun _ (g : RingRec) => g.scanning || g.scanHeld) s.rings) (fun s r => scanEnd s r .left) s

/-- What leaving Service does: Porter abandons its transfers (R310), scans end (R40), a heartbeat not yet issued is withdrawn (R335), and
IDLE is proposed (R365). -/
def leaveService (s : State) : State :=
  let s := withdraw (scansEnd (ptLeaveService s)) (fun a => a.who = .heartbeat)
  let s := upAlmanac s (fun a => { a with hbAt := none })
  upMode s (fun m => { m with stopping := false })

/-- Refill of a BASE 0 timer at an entry to Service: its first target lies PERIOD after it (R320). -/
def timerRestart (t : TimerRec) : TimerRec :=
  if t.running && !t.base then { t with elapsed := 0, target := some (t.period.toNat * 65536 + t.frac.toNat) } else t

/-- YOKE jobs that wait when no yoke is formed end with ENCODING (R130, R169). -/
def endYokeless (s : State) : State :=
  if anyYoke s then s
  else
    let js := (s.muster.courierQ ++ s.muster.postQ ++ s.muster.freightQ ++ s.muster.ballastQ).filter (fun j => e0Yoke (getJob s j).word0)
    forAll js (fun s j => endAside s j .encoding none) s

/-- What an entry to Service does (R385). -/
def enterService (s : State) : State :=
  let s := upRelay s (fun r => { r with timers := tmapv {} (fun _ t => timerRestart t) r.timers })
  let s := upSafe s (fun f => { f with held := false })
  let s := endYokeless s
  let s := forAll (tkeys (fun _ (g : RingRec) => g.state = .running) s.rings) (fun s r =>
    if scanMay s r then scanBegin (modRing s r (fun g => { g with pending := false, scanBell := if g.pending then g.bellAt else s.cycle })) r
    else s) s
  ltrRefresh (upMuster s (fun m => { m with cbLevel := 1024 * m.cbDepth.toNat }))

/-- A change of mode with everything that goes with it. -/
def modeTo (s : State) (new : Mode) (trigger : Nat) (port : Option CtlPort) : State :=
  let leaving := inMode s .service
  let s := modeSet s new trigger port
  let s := whenS leaving leaveService s
  let s := whenS (new = .containment || new = .recovery) (fun s => tgClear s 5) s
  let s := whenS (new = .provision) aonCopy s
  let s := whenS (new = .service) enterService s
  ltrRefresh s

/-! ### Containment (R391) -/

/-- A CONTAIN record (Table 16.7). -/
def containRecord (s : State) (scope string trigger : Nat) : State :=
  emit s 15 0x703 0 [w32 (scope + 4 * string + 256 * trigger)]

/-- The block enters Containment, from Provision or Service: the ports present no new header (R368). A Recovery in progress is
abandoned at the end of its current step (R397). A block Recovery is abandoned by a rise of spn_freeze alone (Table 16.2): a fault in it has
its own effects and no other mode (DEDUCED, log entry 38). -/
def containBlock (s : State) (trigger : Nat) : State :=
  if inMode s .provision || inMode s .service then
    let s := modeTo s .containment trigger none
    let s := containRecord s 0 0 trigger
    let s := upAi s (fun a => { a with contained := true })
    upMode s (fun m => { m with recov := m.recov.map (fun r => { r with abandonFreeze := true }) })
  else if inMode s .recovery && decide (trigger = 5) then upMode s (fun m => { m with recov := m.recov.map (fun r => { r with abandonFreeze := true }) })
  else s

/-- Jobs resident on a lane's target. -/
def residents (s : State) (lane : Nat) : List Nat :=
  let l := getLane s lane
  l.run.toList ++ l.saved ++ l.staged ++ l.courier.toList

/-- String `n` enters Containment: every ring with a job resident on it is touched, and neither scans nor publishes. -/
def containString (s : State) (n trigger : Nat) : State :=
  let lanes := (List.range 16).filter (fun l => stringOf l = n)
  let rings := ((lanes.flatMap (residents s)).map (fun j => (getJob s j).ring)).eraseDups
  let s := upMode s (fun m => { m with
    strings := m.strings ||| BitVec.ofNat 4 (2 ^ n)
    touched := m.touched ++ (rings.map (fun r => (n, r))).filter (fun t => !m.touched.contains t) })
  let s := forAll rings (fun s r => scanEnd s r .left) s
  let s := containRecord s 1 n trigger
  whenS s.mode.irqCont (fun s => irqBlock s 32) (raise s 195)

/-- The string of a lane is contained. -/
def stringContained (s : State) (n : Nat) : Bool := tb s.mode.strings n

/-! ### Recovery (R393) -/

/-- The rings of a Recovery's scope, FROZEN ones among them (R394). -/
def recovRings (s : State) (scope : Scope) (string : Nat) : List Nat :=
  match scope with
  | .block => tkeys (fun _ (_ : RingRec) => true) s.rings
  | .string => (s.mode.touched.filter (fun t => t.1 = string)).map Prod.snd
  | .host => tkeys (fun _ (g : RingRec) => g.state = .frozen) s.rings

/-- Every job of the scope: taken and not yet published (R394). -/
def recovJobs (s : State) (rings : List Nat) : List Nat := tkeys (fun _ (x : Job) => rings.contains x.ring) s.jobs

/-- Key registers that the jobs hold: the Serai leases of the scope. -/
def recovLeases (s : State) (rings : List Nat) : Nat :=
  ((recovJobs s rings).map (fun j => ((getJob s j).keys.filter (fun kv => kv.2.isSome)).length)).sum

/-- A Recovery starts with its first step: the record, and the source. -/
def recovStart (s : State) (v : Recov) : State :=
  let rings := recovRings s v.scope v.string.toNat
  let v := { v with
    step := 1, rings := rings, lost := s.pins.linkLost, completed := (recovJobs s rings).length
    leases := if v.scope = .block then leasesOut s else recovLeases s rings }
  let s := upMode s (fun m => { m with recov := some v, recScope := v.scope, recDone := 0 })
  let s := emit s 15 0x704 0 [w32 (v.scope.code + 4 * v.string.toNat + 16 * bit v.flush + 32 * bit v.rlclr + 64 * bit v.target +
    128 * bit v.automatic)]
  raise (forAll v.rings (fun s r => scanEnd s r .left) s) 196

/-! ### Jobs held by modes -/

/-- A Recovery covers the job's ring, has reached its third step, and lets jobs run to their ends (R395). -/
def recovRuns (s : State) (r : Nat) : Bool :=
  s.mode.recov.any (fun v => v.rings.contains r && v.step = 3 && !v.flush)

/-- The job may make progress on its lane: the block is in Service and its string is not contained, or a Recovery runs it to its end. -/
def jobMoves (s : State) (lane j : Nat) : Bool :=
  let r := (getJob s j).ring
  recovRuns s r || (inMode s .service && !stringContained s (stringOf lane) && !recovAt s r 1)

/-! ### Zeroize (R398, R422) -/

/-- Every job ends without STATUS; nothing is published and the counters keep their values. -/
def zeroizeJobs (s : State) : State :=
  let s := withdraw s (fun a => a.ring.isSome)
  let s := { s with
    jobs := tmapv {} (fun _ x => { ring := x.ring, seq := x.seq, entry := x.entry, word0 := x.word0, cls := x.cls
                                   seat := .held, isOver := true, noStatus := true, status := x.status, bell := x.bell }) s.jobs
    lanes := tmapv {} (fun _ l => { l with run := none, saved := [], staged := [], prep := none, setup := none, courier := none
                                           preempt := false, laggard := false, ctxKeys := [], slots := [] }) s.lanes }
  upMuster s (fun m => { m with arrCourier := [], arrOther := [], courierQ := [], postQ := [], freightQ := [], ballastQ := [] })

/-- The Serai and the Mint on the zeroize line (R226, Table 17.8). -/
def zeroizeKeys (s : State) : State :=
  let n := leasesOut s
  let s := upSerai s (fun x => { x with
    slots := [], masks := [], aged := [], ages := [], flush := none, cmdBusy := false, zeroed := true, incoming := [], bits := []
    leaseWoff := x.leaseWoff + w32 n })
  let s := seraiWoff s n 13
  upMint s (fun m => { m with dk := 0, okey := 0, tk := 0, root := false, unitSeeds := [], installKem := 0, installEc := 0
                              fills := [], busy := [], lent := [], chBusy := false, chStage := .idle, chTally := [], chSecrets := [] })

/-- The benches on the zeroize line: what runs is aborted for row 6 of Table 9.6, every lease is revoked with one record for all of them
(R246), and one wipe of all eight raises the generation of every cell (R234). -/
def zeroizeBenches (s : State) : State :=
  let n := benchLeases s
  let s := forAll ((List.range 8).filter (benchBusy s)) (fun s b => stopBench s b 6) s
  let cells := (List.range 8).flatMap (fun b => (List.range 32).map (fun i => (b, i)))
  let s := cells.foldl (fun s bi =>
    if (tget {} (getBench s bi.1).cells bi.2).live then revokeLease s bi.1 bi.2 13
    else modBench s bi.1 (fun x => { x with cells := tmod {} x.cells bi.2 (fun c => { c with gen := c.gen + 1 }) })) s
  let s := forAll (List.range 8) (fun s b => modBench s b (fun x => { x with
    mem := [], owner := .none, holder := none, holdLen := 0, holdType := 0 })) s
  let s := upHouse s (fun h => { h with queue := [], wipes := h.wipes + 1, zeroed := true })
  let s := forAll (List.range 8) (fun s b => raise s (96 + 4 * b + 2)) s
  whenS (0 < n) (fun s => emit s 6 0x305 0 [1, w32 n, w32 (2 ^ 20 * (Config.leaseCause 13 % 16))]) s

/-- The contexts on the zeroize line (R271): what runs is aborted, and holdings are released. -/
def zeroizeCtxs (s : State) : State :=
  let held := (List.range 4).filter (fun c => (getCtx s c).holder.isSome)
  let s := forAll ((List.range 4).filter (ctxBusy s)) stopCtx s
  let s := forAll (List.range 4) (fun s c => modCtx s c (fun x => { x with mem := [], holder := none, holdLen := 0, holdType := 0 })) s
  let s := forAll held (fun s c => raise s (128 + 4 * c + 2)) s
  upScales s (fun x => { x with queue := [], charter := false, zeroed := true, wipes := x.wipes + 4 })

/-- The benches, the Scales and the Well on the zeroize line (R234, R246, R271, R284). -/
def zeroizeEngines (s : State) : State :=
  upWell (zeroizeCtxs (zeroizeBenches s)) (fun w => { w with
    level := 0, genCalls := 0, genLeft := 0, drbg := [], gens := [], input := [], inputOf := 0, inputNow := 0, reseed := none, draws := []
    cmd := none, zeroed := true, capture := [], capBits := [], capCount := 0 })

/-- A zeroize event during a fuse command (Table 17.9): the command ends, and what is sensed is updated (R404). -/
def zeroizeFuse (s : State) : State :=
  match s.fuse.cmd with
  | none => s
  | some j =>
    let (n, s) := fuseCut s
    let s := upFuse s (fun f => { f with cmd := none, cmdResult := Status.accessFault.code, blown := f.blown + w32 n })
    fuseSensed (fuseRecord s j Status.accessFault.code n)

/-- A Safe-conduct command ends: RESULT, and the ATTEST or CERTS record (Table 17.10). Requests of it that still wait are withdrawn. -/
def safeEnd (s : State) (c : SafeCmd) (st : Status) : State :=
  let s := upHouse s (fun h => { h with queue := h.queue.filter (fun r => r.who ≠ .safeConduct) })
  let s := upScales s (fun x => { x with queue := x.queue.filter (fun r => r.who ≠ .safeConduct) })
  let s := upSafe s (fun f => { f with cmd := none, cmdResult := st.code, stage := .idle, body := [], sigs := [] })
  match c with
  | .publish => emit s 16 0x807 st.code [1, w32 st.code.toNat]
  | .attest u => emit s 16 0x804 st.code (w32 u :: w32 st.code.toNat :: loHi s.safe.attAddr)

/-- ATTEST and PUBLISH on a zeroize event (Table 17.9). -/
def zeroizeSafe (s : State) : State :=
  match s.safe.cmd with
  | none => s
  | some c => safeEnd s c .accessFault

/-- A zeroize event with the core rail present: everything of Table 17.8, then Cleared. `causes` are the log entries it writes. -/
def zeroizeAll (s : State) (causes : List Nat) : State :=
  let log := fun (s : State) => causes.foldl aonLog s
  let s := upWatch (log s) (fun w => { w with box := strongboxClear w.box, cleared := true, events := w.events + 1 })
  let s := watchRaise s 221
  let s := emit s 17 0x805 0 [2, 0]
  let s := zeroizeSafe (zeroizeFuse (zeroizeEngines (zeroizeKeys (zeroizeJobs s))))
  if inMode s .cleared then s
  else
    let leaving := inMode s .service
    let s := modeSet s .cleared 8 none
    let s := whenS leaving leaveService s
    let s := upMode s (fun m => { m with recov := none, stopping := false })
    ltrRefresh (tgClear (upAi s (fun a => { a with contained := false })) 5)

/-! ### Block reset (R17, R383, R390) -/

/-- Everything but the always-on domain, the fuse array, the pins, the queue of commands and the model's count of free values takes
its reset value: WT_STATUS.TAMPER too (R451). A fuse command in progress is interrupted (R410). The core domain's copy of the always-on
registers begins as they are (R429; DESIGN CHOICE, log entry 14). -/
def resetAll (s : State) : State :=
  let s := (fuseCut s).2
  { pending := s.pending, pins := s.pins, free := s.free
    watch := { s.watch with cleared := false, irqEn := false, events := 0, cmdResult := 0, tamper := 0, shown := s.watch.aon, changed := none }
    fuse := { array := s.fuse.array }
    mode := { pllLocked := s.mode.pllLocked } }

end Sys2Proof.Machine
end

