-- ==== Sys2Proof/Machine/Rings.lean ====
section
/-! DEFINITION. The ring commands and events: doorbells, scans, START, STOP, RESET and its completion, the HOLDOFF interval and the
STATUS write (R32, R39 to R41, R45, R46, R50, R52 to R56, R128). -/

namespace Sys2Proof.Machine

/-- The offset of a ring's window, and of WS_CMD in it. -/
def wsBase (r : Nat) : Nat := 0x100000 + 0x100 * r
/-- See `wsBase`. -/
def wsCmd (r : Nat) : Nat := wsBase r + 0x30

/-- DOORBELL (R39). -/
def execDoorbell (p : CtlPort) (ring : Fin 4096) (s : State) : Host.Outcome State Fault Refusal :=
  portBoth s p (fun s =>
    .next (ringBell s ring.val))

/-- SCAN_START (R39): PENDING is set, no scan of the ring is in progress, and the ring may scan. A scan that INFLIGHT has stopped counts
as in progress until it has resumed and ended (DESIGN CHOICE, log entry 61). -/
def execScanStart (ring : Fin 4096) (s : State) : Host.Outcome State Fault Refusal :=
  let r := ring.val
  let g := getRing s r
  if g.pending && !g.scanning && !g.scanHeld && scanMay s r then
    .next (ltrRefresh (scanBegin (modRing s r (fun g => { g with pending := false, scanBell := g.bellAt })) r))
  else .next s

/-- SCAN_RESUME (R40): a scan that INFLIGHT had stopped goes on. -/
def execScanResume (ring : Fin 4096) (s : State) : Host.Outcome State Fault Refusal :=
  let r := ring.val
  let g := getRing s r
  if g.scanHeld && g.inflight < 1024 && scanMay s r then .next (scanBegin s r) else .next s

/-- SLOT_AVAILABLE (R128): the scan goes on at the entry that waited. -/
def execSlotAvailable (ring : Fin 4096) (s : State) : Host.Outcome State Fault Refusal :=
  let r := ring.val
  let g := getRing s r
  if g.scanning && g.waitSlot && slotFree s r then
    let s := modRing s r (fun g => { g with waitSlot := false })
    .next (ltrRefresh (scanDecide (2 * g.scanGot.length + 1) s r))
  else .next s

/-- A ring command is refused (R52): RESULT, and the log. -/
def ringRefuse (s : State) (p : CtlPort) (r : Nat) (st : Status) (op : Nat) : State :=
  refuseCmd (modRing s r (fun g => { g with cmdResult := st.code })) p (wsCmd r) st op

/-- A ring freezes on loss of the host link (R58, Table 2.7). -/
def freezeRing (s : State) (r : Nat) : State :=
  modRing (scanEnd s r .left) r (fun g => { g with frozenFrom := g.state, state := .frozen })

/-- RING_START (R32, R52): the scan that STOP ended goes on where a scan may begin (log entry 61). With the host link already lost the spec
does not say whether a ring of host memory becomes RUNNING or FROZEN: it becomes RUNNING and freezes at once, so that Recovery lets it go
on (DESIGN CHOICE, log entry 68). -/
def execRingStart (p : CtlPort) (ring : Fin 4096) (s : State) : Host.Outcome State Fault Refusal :=
  portCmd s p (wsCmd ring.val) 1 (fun s =>
    let r := ring.val
    let g := getRing s r
    if !((inMode s .provision || inMode s .service) && (g.state = .disabled || g.state = .stopped)) then
      .next (ringRefuse s p r .accessFault 1)
    else if !(g.bound && 6 ≤ g.logSize.toNat && g.logSize.toNat ≤ 16 && g.base ≠ 0 && g.headAddr ≠ 0) then
      .next (ringRefuse s p r .encoding 1)
    else
      let s := modRing s r (fun g => { g with
        state := .running, cmdBusy := false, cmdResult := Status.done.code, expTime := s.muster.lagFloor.toNat })
      let s := whenS (!g.spaceLocal && s.pins.linkLost) (fun s => freezeRing s r) s
      .next (scanGoesOn (ltrRefresh s) r))

/-- RING_STOP (R53). -/
def execRingStop (p : CtlPort) (ring : Fin 4096) (s : State) : Host.Outcome State Fault Refusal :=
  portCmd s p (wsCmd ring.val) 2 (fun s =>
    let r := ring.val
    if (getRing s r).state ≠ .running then .next (ringRefuse s p r .accessFault 2)
    else .next (stopCheck (modRing (scanEnd s r .left) r (fun g => { g with state := .stopping, cmdBusy := true })) r))

/-! ### RESET (R54) -/

/-- A job of a ring under RESET: it makes no further request and gets no STATUS. One in execution ends at its next boundary, every
other at once. -/
def resetJob (s : State) (j : Nat) : State :=
  let x := getJob s j
  let s := modJob s j (fun x => { x with noStatus := true })
  match x.seat with
  | .running _ => modJob (orphanReads (dropWork s j 1) j) j (fun x => { x with isOver := true, wait := .nothing, kept := none, wrote := none })
  | .saved l => finishJob (dropWork s j 1) j (some l)
  | .arriving => finishJob s j none
  | .queued => finishJob s j none
  | .staged _ => finishJob (dropWork s j 1) j none
  | _ => settle s j

/-- The benches that a ring holds a lease on are wiped (R234). -/
def resetBenches (s : State) (r : Nat) : State :=
  forAll ((List.range 8).filter (fun b => (getBench s b).cells.any (fun kv => kv.2.live && kv.2.ring = r))) (fun s b => wipeBench s b 5) s

/-- RESET begins on a ring (R54 steps 1 to 5). -/
def ringResetBegin (s : State) (r : Nat) : State :=
  let s := scanEnd s r .left
  let s := modRing s r (fun g => { g with state := .resetting, rstJobs := g.inflight, rstTaken := g.taken, rstCount := g.count })
  let s := forAll (tkeys (fun _ (x : Job) => x.ring = r) s.jobs) resetJob s
  let s := withdraw s (fun a => a.ring = some r)
  ltrRefresh (resetBenches s r)

/-- RING_RESET (R54). -/
def execRingReset (p : CtlPort) (ring : Fin 4096) (s : State) : Host.Outcome State Fault Refusal :=
  portCmd s p (wsCmd ring.val) 3 (fun s =>
    let r := ring.val
    if (getRing s r).state = .resetting then .next (ringRefuse s p r .accessFault 3)
    else .next (modRing (ringResetBegin s r) r (fun g => { g with cmdBusy := true })))

/-- No access of the ring is outstanding and none of its jobs is in execution. -/
def resetOver (s : State) (r : Nat) : Bool :=
  !(s.ai.accesses.any (fun kv => kv.2.any (fun a => a.ring = some r))) &&
  s.jobs.all (fun kv => kv.2.ring ≠ r || !(match kv.2.seat with
    | .running _ => true
    | _ => false))

/-- R364 step 5: spn_flr_done once every ring of a function has reached STOPPED. -/
def flrCheck (s : State) (func : W16) : State :=
  if s.ai.flrs.contains func && !s.rings.any (fun kv => kv.2.flrPend && kv.2.func = func) then
    upAi s (fun a => { a with flrs := a.flrs.erase func, flrDone := func :: a.flrDone })
  else s

/-- RING_RESET_COMPLETE (R54 steps 5 to 7). -/
def execRingResetComplete (ring : Fin 4096) (s : State) : Host.Outcome State Fault Refusal :=
  let r := ring.val
  let g := getRing s r
  if !(g.state = .resetting && resetOver s r) then .next s
  else
    let s := dropJobs s (tkeys (fun _ (x : Job) => x.ring = r) s.jobs)
    let s := emit s 1 0x101 0 [w32 r, w32 g.rstJobs, g.rstTaken, g.rstCount]
    let s := modRing s r (fun g => { g with
      state := .stopped, taken := 0, count := 0, inflight := 0, pending := false, order := [], released := 0, countAcked := 0
      countStop := false, bells := [], woff := 0, scanNext := 0, scanCut := false, rstJobs := 0, rstTaken := 0, rstCount := 0, flrPend := false
      cmdResult := if g.cmdBusy then Status.done.code else g.cmdResult, cmdBusy := false })
    .next (flrCheck s g.func)

/-- HOLDOFF_EXPIRY (R50): a held request is made, and the interval starts again; otherwise it is over. -/
def execHoldoffExpiry (ring : Fin 4096) (s : State) : Host.Outcome State Fault Refusal :=
  let r := ring.val
  let g := getRing s r
  if !g.holding then .next s
  else if g.msgHeld && g.irqEn then .next (irq (modRing s r (fun g => { g with msgHeld := false })) r)
  else .next (modRing s r (fun g => { g with holding := false, msgHeld := false }))

/-! ### STATUS (R45, R46) -/

/-- The bytes of a STATUS write: STATUS alone, or STATUS and the stamp. -/
def statusBytes (s : State) (x : Job) : List Byte :=
  leBytes 2 x.status.code.toNat ++ if e0Stamp x.word0 then leBytes 8 (stampOf s.almanac.snap).toNat else []

/-- STATUS_WRITE (R45, R46): the job has ended and every data write of it is acknowledged (R82 step 5). -/
def execStatusWrite (job : Nat) (s : State) : Host.Outcome State Fault Refusal :=
  let x := getJob s job
  if !(jobExists s job && x.seat = .ended && !x.noStatus && writesDone s job && statusMay s x.ring) then .next s
  else
    let bs := statusBytes s x
    let s := modJob (settle s job) job (fun x => { x with seat := .statusOut })
    .next (issueAccess s (.status job) (ringAttr s x.ring (getRing s x.ring).courier) (x.entry + 6) bs.length (some bs))

end Sys2Proof.Machine
end

