-- ==== Sys2Proof/WellFormed.lean ====
section
/-! DEFINITION. Which commands name something that exists: operand ranges that the operand types do not hold already. A meaning
given a command outside these ranges leaves the machine as it is. -/

namespace Sys2Proof

/-- Sinks 104 to 255 do not exist (R316). -/
def sinkExists (k : Nat) : Bool := k < 104 || 256 ≤ k

/-- The index of an array element exists (Tables 1.11, 18.6). -/
def arrayIndexOk (a : StorageArray) (index unit : Nat) : Bool :=
  match a with
  | .routeStore => 1 ≤ index && index ≤ 1023
  | .reorderStore => index < 65536
  | .ringContext => index < 4096
  | .translationCache => index < 8192
  | .readReturnBuffer => index < 256 && unit < 4
  | .porterBuffer => index < 32
  | .maskStore => index < 512
  | .logicParity => true

/-- The command's operands are in range. -/
def Instr.wf : Instr → Bool
  | .translationCompletion _ status _ _ logSize _ => status.toNat ≤ 2 && 12 ≤ logSize.toNat && logSize.toNat ≤ 30
  | .fire _ sink _ => sinkExists sink.val
  | .clear _ sink => sinkExists sink.val
  | .sinkAction sink => sinkExists sink.val
  | .fatalLaneFault _ row => 2 ≤ row.val && row.val ≤ 5
  | .uncorrectableError a index unit => arrayIndexOk a index unit
  | .slotUncorrectable _ => true
  | .fuseCommandDone stuck => stuck.length ≤ 54
  | _ => true

end Sys2Proof
end

