-- ==== Sys2Proof/Machine/Adapter.lean ====
section
/-! DEFINITION. The adapter interface: resets and clocks of the interconnect side (R373, R376), freeze (R368), the host link (R367),
function level reset (R364), invalidations (R363), translation completions (R362), responses and credits (R352, R353, R357),
interrupts and event inputs (R360, R361), and the latency tolerance (R365). -/

namespace Sys2Proof.Machine

/-- A LINK_STATE record with vector 31 when AI_IRQ.LINK is set (Tables 15.8 and 15.10). -/
def linkState (s : State) (cause : Nat) : State :=
  whenS s.ai.irqLink (fun s => irqBlock s 31) (emit s 14 0x604 0 [w32 cause])

/-! ### Interconnect reset and clock -/


/-- The outstanding requests of a port, with their tags. -/
def outstanding (s : State) (k : Nat) : List (Nat × Nat × Req) :=
  let f := fun (t : Table (Option Req)) => t.filterMap (fun kv => kv.2.map (fun r => (k, kv.1, r)))
  f (getPort s k).reads ++ f (getPort s k).writes

/-- IC_RESET_ASSERT (R376): both IC Fords flush, every outstanding request is written off, and every credit is removed. -/
def execIcResetAssert (s : State) : Host.Outcome State Fault Refusal :=
  if s.pins.icRst then .next s
  else
    let s := upPins s (fun p => { p with icRst := true })
    if !awake s then .next s
    else
      let s := flushFord (flushFord s 1 1) 2 1
      let s := forAll [0, 1, 2, 3] (fun s k => modPort s k (fun p => { p with reqCrd := 0, dataCrd := 0 })) s
      let all := [0, 1, 2, 3].flatMap (outstanding s)
      let s := all.foldl (fun s x => writeOff s x.1 x.2.1 x.2.2 2) s
      .next (linkState s 5)

/-- IC_RESET_RELEASE (R376). -/
def execIcResetRelease (s : State) : Host.Outcome State Fault Refusal :=
  if !s.pins.icRst then .next s
  else
    let s := upPins s (fun p => { p with icRst := false })
    .next (if awake s then linkState s 6 else s)

/-- IC_CLOCK_STOPPED (R373). -/
def execIcClockStopped (s : State) : Host.Outcome State Fault Refusal :=
  if awake s then .next (upAi s (fun a => { a with icStop := true })) else .next s

/-- IC_CLOCK_RETURN (R373). -/
def execIcClockReturn (s : State) : Host.Outcome State Fault Refusal :=
  .next (pump (upAi s (fun a => { a with icStop := false })))

/-! ### Freeze and link -/

/-- FREEZE (R368, R391): a rise of spn_freeze; the Mode controller keeps its control cycle (Table 16.6). -/
def execFreeze (s : State) : Host.Outcome State Fault Refusal :=
  if s.pins.freeze then .next s
  else
    let s := upPins s (fun p => { p with freeze := true })
    .next (if awake s then upMode (containBlock (linkState s 3) 5) (fun m => { m with freezeAt := some s.cycle }) else s)

/-- FREEZE_OFF (R378): spn_freeze falls; nothing ends by itself (R392). -/
def execFreezeOff (s : State) : Host.Outcome State Fault Refusal :=
  if !s.pins.freeze then .next s
  else
    let s := upPins s (fun p => { p with freeze := false })
    .next (pump (if awake s then linkState s 4 else s))

/-- Outstanding requests to host memory have seen the link lost (R357). -/
def markLost (s : State) : State :=
  let f := fun (o : Option Req) => o.map (fun r => if r.spaceLocal then r else { r with sawLost := true })
  forAll [0, 1, 2, 3] (fun s k => modPort s k (fun p => { p with
    reads := tmapv none (fun _ o => f o) p.reads, writes := tmapv none (fun _ o => f o) p.writes })) s

/-- Host Containment (R391): the flag, the record, source 195 and the vector. -/
def containHost (s : State) : State :=
  let s := upMode s (fun m => { m with hostContained := true })
  whenS s.mode.irqCont (fun s => irqBlock s 32) (raise (containRecord s 2 0 12) 195)

/-- LINK_LOST (R367, R397). -/
def execLinkLost (s : State) : Host.Outcome State Fault Refusal :=
  if s.pins.linkLost then .next s
  else
    let s := upPins s (fun p => { p with linkLost := true })
    if !awake s then .next s
    else
      let s := linkState (upAi (markLost s) (fun a => { a with linkLosses := a.linkLosses + 1 })) 1
      let host := tkeys (fun _ (g : RingRec) => !g.spaceLocal && (g.state = .running || g.state = .stopping)) s.rings
      let s := containHost (forAll host freezeRing s)
      let s := upMode s (fun m => { m with recov := m.recov.map (fun v => { v with lost := true }) })
      .next (ltrRefresh (failQueued s (fun r => !r.spaceLocal) .hostLost))

/-- LINK_RETURNED (R367): nothing resumes of its own accord. -/
def execLinkReturned (s : State) : Host.Outcome State Fault Refusal :=
  if !s.pins.linkLost then .next s
  else
    let s := upPins s (fun p => { p with linkLost := false })
    .next (if awake s then linkState s 2 else s)

/-- LTR_IDLE (R365): neither condition has held for AI_LTR_IDLE_US. -/
def execLtrIdle (s : State) : Host.Outcome State Fault Refusal :=
  if inMode s .service && !ltrBusy s then .next (proposeLtr s s.ai.ltrIdle) else .next s

/-! ### Function level reset -/

/-- The rings of a function (R56). -/
def flrRings (s : State) (func : W16) : List Nat :=
  (List.range 4096).filter (fun r => !(getRing s r).spaceLocal && (getRing s r).func = func)

/-- R56 on one ring: RESET whatever its state, and RESULT unchanged. -/
def flrRing (s : State) (r : Nat) : State :=
  let s := if (getRing s r).state = .resetting then s else modRing (ringResetBegin s r) r (fun g => { g with cmdBusy := false })
  modRing s r (fun g => { g with flrPend := true })

/-- Accesses of the function that its reset leaves, such as a bale read of the Mint, ask for their translations again. -/
def askRest (s : State) (func : W16) : State :=
  (s.ai.untranslated.filter (fun r => r.func = func)).foldl atsAsk s

/-- FUNCTION_LEVEL_RESET (R364). A second request for the same function, or a ninth function, is not presented. -/
def execFunctionLevelReset (func : W16) (s : State) : Host.Outcome State Fault Refusal :=
  if !awake s || s.pins.icRst || s.ai.flrs.contains func || 8 ≤ s.ai.flrs.length then .next s
  else
    let rs := flrRings s func
    let s := upAi s (fun a => { a with flrs := a.flrs ++ [func], flrCount := a.flrCount + 1 })
    let s := forAll rs flrRing s
    let s := upAi s (fun a => { a with
      atc := a.atc.filter (fun e => e.func ≠ func)
      atsOut := tmapv none (fun _ o => o.map (fun (q : AtsReq) => if q.func = func then { q with dropped := true } else q)) a.atsOut })
    let s := askRest s func
    let s := emit s 14 0x605 0 [w32 func.toNat, w32 rs.length]
    .next (flrCheck s func)

/-! ### Invalidations (R363) -/

/-- The number of ones from bit `n` up, of at most `fuel`. -/
def onesFrom : Nat → W64 → Nat → Nat
  | 0, _, _ => 0
  | fuel + 1, x, n => if tb x n then 1 + onesFrom fuel x (n + 1) else 0

/-- Log2 of the size that an ATS range names: bit 11 says that the size is coded in the address bits from bit 12 up. -/
def rangeLog (range : W64) : Nat := if tb range 11 then 13 + onesFrom 52 range 12 else 12

/-- Two aligned ranges overlap. -/
def overlap (a la b lb : Nat) : Bool :=
  let m := Nat.max la lb
  a / 2 ^ m = b / 2 ^ m

/-- The scope covers a page of a function. -/
def invCovers (v : InvScope) (func : W16) (pv : Bool) (pasid : BitVec 20) (page log : Nat) : Bool :=
  (match v.func with
   | some f => f = func
   | none => true) &&
  (match v.pasid with
   | some p => pv && p = pasid
   | none => true) &&
  (match v.range with
   | some r => overlap r.1 r.2 page log
   | none => true)

/-- A request went, or waits to go, with the translation of an entry that the scope covers: the entry's page, of whatever size. -/
def usesEntry (v : InvScope) (r : Req) : Bool := r.translated && invCovers v r.func r.pv r.pasid r.addr.toNat r.pageLog

/-- The reads in flight that use the matching entries, by port and tag (R363 step 3). -/
def entryUses (s : State) (v : InvScope) : List (Nat × Nat) :=
  [0, 1, 2, 3].flatMap (fun k => (tkeys (fun _ (o : Option Req) => o.any (usesEntry v)) (getPort s k).reads).map (fun t => (k, t)))

/-- Steps 1 to 3: the entries go, overlapping translation requests become stale, requests that wait with a translated address are
translated again, and the reads in flight that use the entries are noted. -/
def invalidate (s : State) (itag : Option (BitVec 5)) (v : InvScope) : State :=
  let req := usesEntry v
  let uses := entryUses s v
  let s := upAi s (fun a => { a with
    atc := a.atc.filter (fun e => !invCovers v e.func e.pv e.pasid e.page.toNat e.logSize)
    atsOut := tmapv none (fun _ o => o.map (fun (q : AtsReq) =>
      { q with since := v :: q.since })) a.atsOut
    invs := a.invs ++ [{ itag := itag, uses := uses }] })
  let again := [0, 1, 2, 3].flatMap (fun k => (getPort s k).queue.filter req)
  let s := forAll [0, 1, 2, 3] (fun s k => modPort s k (fun p => { p with queue := p.queue.filter (fun r => !req r) })) s
  again.foldl (fun s r => translate s { r with translated := false, busAddr := r.addr }) s

/-- INVALIDATION_REQUEST (R363): up to 32 at once. -/
def execInvalidationRequest (itag : BitVec 5) (func : W16) (pv : Bool) (pasid : BitVec 20) (global : Bool) (range : W64) (s : State) :
    Host.Outcome State Fault Refusal :=
  if !awake s || s.pins.icRst || 32 ≤ (s.ai.invs.filter (fun v => v.itag.isSome)).length then .next s
  else .next (invalidate s (some itag)
    { func := some func, pasid := if global || !pv then none else some pasid, range := some (range.toNat / 4096 * 4096, rangeLog range) })

/-- INVALIDATION_DONE (R363 step 4). -/
def execInvalidationDone (itag : BitVec 5) (s : State) : Host.Outcome State Fault Refusal :=
  if s.pins.icRst || s.ai.icStop then .next s
  else match s.ai.invs.find? (fun v => v.itag = some itag && v.uses = []) with
  | none => .next s
  | some v => .next (upAi s (fun a => { a with invs := a.invs.erase v, invDone := itag :: a.invDone, atcInvals := a.atcInvals + 1 }))

/-- AI_ATC_CMD, op 1 or 2 (R380). While it is busy a further command is refused. -/
def atcCommand (s : State) (p : CtlPort) (word : Nat) (func : Option W16) : State :=
  if s.ai.atcBusy then refuseCmd s p 0x800018 .accessFault word
  else atcCommandEnd (invalidate (upAi s (fun a => { a with atcBusy := true })) none { func := func, pasid := none, range := none })

/-- INVALIDATE_ALL (R380). -/
def execInvalidateAll (p : CtlPort) (s : State) : Host.Outcome State Fault Refusal :=
  portCmd s p 0x800018 1 (fun s =>
    .next (atcCommand s p 1 none))

/-- INVALIDATE_FUNC (R380). -/
def execInvalidateFunc (p : CtlPort) (func : W16) (s : State) : Host.Outcome State Fault Refusal :=
  portCmd s p 0x800018 (2 + 65536 * func.toNat) (fun s =>
    .next (atcCommand s p (2 + 65536 * func.toNat) (some func)))

/-! ### Translation completions (R362) -/

/-- An entry joins its set of four, as the most recently used, in place of an older one of its page; the least recently used of a full
set goes. -/
def atcInsert (l : List AtcEntry) (e : AtcEntry) : List AtcEntry :=
  let l := l.filter (fun x => !(x.func = e.func && x.pv = e.pv && x.pasid = e.pasid && x.page = e.page && x.logSize = e.logSize))
  let set := fun (x : AtcEntry) => Config.atcSet x.func.toNat x.pasid.toNat (x.page.toNat / 4096) % 2048
  let same := l.filter (fun x => set x = set e)
  if 4 ≤ same.length then
    match same.getLast? with
    | some old => e :: l.erase old
    | none => e :: l
  else e :: l

/-- Requests that wait for the page of a translation request. -/
def waitsFor (q : AtsReq) (r : Req) : Bool :=
  r.func = q.func && r.pv = q.pv && r.pasid = q.pasid && r.addr.toNat / 4096 = q.addr.toNat / 4096

/-- A miss that found all 64 translation requests in use asks once one is free. -/
def askNext (s : State) : State :=
  match s.ai.untranslated.find? (fun r => !atsShared s r) with
  | some r => atsAsk s r
  | none => s

/-- An invalidation accepted since the request overlaps the page of its completion (R363 step 2). -/
def isStale (q : AtsReq) (log : Nat) : Bool := q.since.any (fun v => invCovers v q.func q.pv q.pasid q.addr.toNat log)

/-- A translation is requested again for a page whose completion was discarded. -/
def askAgain (s : State) (q : AtsReq) : State :=
  if s.ai.untranslated.any (waitsFor q) then
    match freeAts s with
    | some t => upAi s (fun a => { a with atsOut := tset none a.atsOut t (some { q with since := [] }) })
    | none => s
  else s

/-- The access needs a permission that a completion lacks, or the completion is a refusal: it fails. -/
def atsDeny (s : State) (q : AtsReq) (p : Req → Bool) : State :=
  let s := upAi s (fun a => { a with atcFaults := a.atcFaults + 1 })
  let s := emit s 14 0x603 Status.translationFault.code
    (w32 (q.func.toNat + 65536 * bit q.pv) :: w32 q.pasid.toNat :: loHi q.addr)
  failQueued s (fun r => !r.spaceLocal && !r.translated && p r) .translationFault

/-- TRANSLATION_COMPLETION (R362). -/
def execTranslationCompletion (tag : BitVec 6) (status : BitVec 2) (r w : Bool) (logSize : BitVec 6) (addr : W64) (s : State) :
    Host.Outcome State Fault Refusal :=
  if !(Instr.translationCompletion tag status r w logSize addr).wf || s.pins.icRst then .next s
  else match tget none s.ai.atsOut tag.toNat with
    | none => .next s
    | some q =>
      let s := upAi s (fun a => { a with atsOut := tset none a.atsOut tag.toNat none })
      if q.dropped then .next (askNext s)
      else if isStale q (if status = 0 then logSize.toNat else 12) then .next (askNext (askAgain s q))
      else
        let log := logSize.toNat
        let e : AtcEntry := { func := q.func, pv := q.pv, pasid := q.pasid, logSize := log, r := r, w := w
                              page := w64 (q.addr.toNat / 2 ^ log * 2 ^ log), frame := w64 (addr.toNat / 2 ^ log * 2 ^ log) }
        let mine := s.ai.untranslated.filter (waitsFor q)
        let ok := fun (x : Req) => status = 0 && atcAllows e x.write
        let good := mine.filter ok
        let usable := decide (status = 0) && (if mine.isEmpty then atcAllows e q.write else !good.isEmpty)
        let s := if usable then upAi s (fun a => { a with atc := atcInsert a.atc e }) else s
        let s := upAi s (fun a => { a with untranslated := a.untranslated.filter (fun x => !(waitsFor q x && ok x)) })
        let s := pump (good.foldl (fun s x => queueReq s (atcApply e x)) s)
        let s := if mine.any (fun x => !ok x) || (mine.isEmpty && !usable) then atsDeny s q (fun x => waitsFor q x && !ok x) else s
        .next (askNext s)

/-! ### Responses (R352, R357) -/

/-- The bytes of beat `b` of a read, with their address. -/
def beatBytes (r : Req) (b : Nat) (data : BitVec 1024) : Nat × List Byte :=
  let base := (r.addr.toNat / 128 + b) * 128
  let lo := Nat.max base r.addr.toNat
  let hi := Nat.min (base + 128) (r.addr.toNat + r.len)
  (lo, slice (leBytes 128 data.toNat) (lo - base) (hi - lo))

/-- A failing response is a clearing event of the Tollgate (R297) and counts once in AI_P_ERR. -/
def responseEnd (s : State) (k : Nat) (r : Req) : State :=
  let s := modPort s k (fun p => { p with resp := p.resp + 1, err := if r.fail.isSome then p.err + 1 else p.err })
  let s := endPart (if r.write || r.fail.isSome then s else requestHere s r) r.access r.fail 1
  pump (if r.fail.isSome then tgClear s 1 else s)

/-- READ_RESPONSE (R352). -/
def execReadResponse (port : Fin 4) (tag : Byte) (beat : BitVec 3) (last : Bool) (status : BitVec 2) (data : BitVec 1024) (s : State) :
    Host.Outcome State Fault Refusal :=
  let k := port.val
  let t := tag.toNat
  let p := getPort s k
  if s.pins.icRst then .next s
  else if tget 0 p.quarReads t ≠ 0 then
    .next (if last then modPort s k (fun p => { p with late := p.late + 1 }) else s)
  else match tget none p.reads t with
    | none => .next s
    | some r =>
      let b := beatBytes r beat.toNat data
      let good := status = 0
      let r := { r with
        beats := r.beats - 1, came := beat.toNat :: r.came
        fail := if good then r.fail else lowerFail r.fail (some (b.1, respStatus status.toNat)) }
      let s := upRation s (fun x => { x with beats := x.beats + 1 })
      let s := if good then partData s r.access b.1 b.2 else s
      let s := if good && r.spaceLocal then tgSnoopRead s b.1 b.2 else s
      if last then
        .next (responseEnd (endUse (modPort s k (fun p => { p with reads := tset none p.reads t none })) k t) k r)
      else .next (modPort s k (fun p => { p with reads := tset none p.reads t (some r) }))

/-- WRITE_ACKNOWLEDGEMENT (R352). -/
def execWriteAcknowledgement (port : Fin 4) (tag : Byte) (status : BitVec 2) (s : State) : Host.Outcome State Fault Refusal :=
  let k := port.val
  let t := tag.toNat
  let p := getPort s k
  if s.pins.icRst then .next s
  else if tget 0 p.quarWrites t ≠ 0 then .next (modPort s k (fun p => { p with late := p.late + 1 }))
  else match tget none p.writes t with
    | none => .next s
    | some r =>
      let r := { r with fail := if status = 0 then none else some (r.addr.toNat, respStatus status.toNat) }
      .next (responseEnd (modPort s k (fun p => { p with writes := tset none p.writes t none })) k r)

/-- CREDIT_GRANT (R353). -/
def execCreditGrant (port : Fin 4) (writeData : Bool) (s : State) : Host.Outcome State Fault Refusal :=
  let k := port.val
  let p := getPort s k
  if !awake s || s.pins.icRst then .next s
  else if 255 ≤ (if writeData then p.dataCrd else p.reqCrd) then
    let s' := modPort s k (fun p => { p with overgrant := p.overgrant + 1, overNoted := true })
    .next (if p.overNoted then s' else emit s' 14 0x606 0 [w32 (k + 4 * bit writeData)])
  else
    .next (pump (modPort s k (fun p =>
      if writeData then { p with dataCrd := p.dataCrd + 1 } else { p with reqCrd := p.reqCrd + 1 })))

/-- The timers of R357 run. -/
def timersRun (s : State) : Bool := !s.ai.icStop && !(s.pins.freeze && !s.pins.linkLost)

/-- COMPLETION_TIMEOUT (R357): the request's timer has reached AI_CPL_TO. -/
def execCompletionTimeout (port : Fin 4) (write : Bool) (tag : Byte) (s : State) : Host.Outcome State Fault Refusal :=
  let p := getPort s port.val
  match tget none (if write then p.writes else p.reads) tag.toNat with
  | none => .next s
  | some r => if timersRun s && decide (cplCycles s ≤ r.age) then .next (pump (writeOff s port.val tag.toNat r 1)) else .next s

/-- TAG_QUARANTINE_END (R357): the tag has been in quarantine for a further AI_CPL_TO. -/
def execTagQuarantineEnd (port : Fin 4) (write : Bool) (tag : Byte) (s : State) : Host.Outcome State Fault Refusal :=
  let p := getPort s port.val
  if tget 0 (if write then p.quarWrites else p.quarReads) tag.toNat ≤ cplCycles s then .next s
  else .next (pump (modPort s port.val (fun p =>
    if write then { p with quarWrites := tset 0 p.quarWrites tag.toNat 0 } else { p with quarReads := tset 0 p.quarReads tag.toNat 0 })))

/-! ### Interrupts and event inputs -/

/-- INTERRUPT_TAKEN (R360): the pending vector that follows the one taken last, round-robin. -/
def execInterruptTaken (s : State) : Host.Outcome State Fault Refusal :=
  let vs := s.ai.irqPending.map Prod.fst
  if s.pins.icRst then .next s
  else match (match vs.find? (fun v => s.ai.irqLast < v) with
    | some v => some v
    | none => vs.head?) with
  | none => .next s
  | some v => .next (upAi s (fun a => { a with irqPending := tset false a.irqPending v false, irqLast := v }))

/-- ADAPTER_EVENT_INPUT (R361): one raising of source 768 + line. -/
def execAdapterEventInput (line : Fin 256) (s : State) : Host.Outcome State Fault Refusal :=
  if s.pins.icRst || s.ai.icStop then .next s else .next (raise s (768 + line.val))

end Sys2Proof.Machine
end

