-- ==== Sys2Proof/Machine/Tollgate.lean ====
section
/-! DEFINITION. The Tollgate's commands: ARM, FINISH and CANCEL (R292, R295), and the end of a finish (R291, R293). -/

namespace Sys2Proof.Machine

/-- The offset of TG_C_CMD of context `c` (Table 12.4). -/
def tgCmd (c : Nat) : Nat := 0x601020 + 0x200 * c

/-- RESULT of TG_C_CMD. -/
def tgResult (s : State) (c : Nat) (st : Status) : State := modTg s c (fun x => { x with cmdResult := st.code })

/-- A command that Table 12.2 does not list for the state (R295), or fails (Table 12.2): refused, and the state stays. -/
def tgRefuse (s : State) (p : CtlPort) (c op : Nat) (st : Status) : State := refuseCmd (tgResult s c st) p (tgCmd c) st op

/-- The fields that ARM needs are valid (Table 12.2). -/
def tgArmOk (x : TgCtx) : Bool :=
  tgDigestLen x.alg.toNat ≠ 0 && (x.src = 1 || (x.src = 2 && decide (x.wstart.toNat < x.wend.toNat)))

/-- A context after ARM: what a transfer in progress still writes is not hashed (R288). -/
def tgArmed (inProgress : Bool) (x : TgCtx) : TgCtx :=
  { x with
    state := .armed, stream := [], snoop := [], fifo := [], busy := 0, count := 0, next := if x.src = 2 then x.wstart else 0, digest := 0
    matched := false, cmpv := false, err := 0, skip := x.src = 1 && inProgress, srcEnded := false, cmdResult := Status.done.code }

/-- ARM (R295, Table 12.2). -/
def execArm (p : CtlPort) (ctx : Fin 8) (s : State) : Host.Outcome State Fault Refusal :=
  portCmd s p (tgCmd ctx.val) 1 (fun s =>
    let c := ctx.val
    let x := getTg s c
    if tgActive x then .next (tgRefuse s p c 1 .accessFault)
    else if !tgArmOk x then .next (tgRefuse s p c 1 .encoding)
    else .next (modTg s c (tgArmed (getChan s x.chan.toNat).xfer.isSome)))

/-- FINISH (R292). -/
def execFinish (p : CtlPort) (ctx : Fin 8) (s : State) : Host.Outcome State Fault Refusal :=
  portCmd s p (tgCmd ctx.val) 2 (fun s =>
    let c := ctx.val
    if !tgListening (getTg s c) then .next (tgRefuse s p c 2 .accessFault)
    else .next (tgFinish (tgResult s c .done) c))

/-- CANCEL (R295, Table 12.2). -/
def execCancel (p : CtlPort) (ctx : Fin 8) (s : State) : Host.Outcome State Fault Refusal :=
  portCmd s p (tgCmd ctx.val) 3 (fun s =>
    let c := ctx.val
    if !tgActive (getTg s c) then .next (tgRefuse s p c 3 .accessFault)
    else .next (modTg s c (fun x => { x with
      state := .idle, stream := [], snoop := [], fifo := [], busy := 0, count := 0, cmdResult := Status.done.code })))

/-- The bytes of a number of 4-byte registers, the lowest first. -/
def tgDigest (x : TgCtx) : List Byte :=
  stdBytes (.rawDigest x.alg.toNat) [x.stream ++ readBytes x.tail 0 x.tailLen.toNat] (tgDigestLen x.alg.toNat)

/-- R291: the tail is too long, or the stream with its tail is no whole number of blocks. -/
def tgLengthBad (x : TgCtx) : Bool := 256 < x.tailLen.toNat || (x.count.toNat + x.tailLen.toNat) % tgBlock x.alg.toNat ≠ 0

/-- R293: the compare of a digest with EXPECT. -/
def tgEqual (x : TgCtx) (d : List Byte) : Bool := ofLe d = x.expect.toNat % 2 ^ (8 * d.length)

/-- A finish can end: the hash core is free, and of a Porter source the channel has no transfer and the snoop buffer is empty (R292). -/
def tgFinishes (s : State) (x : TgCtx) : Bool :=
  x.state = .finishing && x.busy = 0 && (x.src ≠ 1 || (!(getChan s x.chan.toNat).xfer.isSome && x.fifo.isEmpty))

/-- TOLLGATE_FINISH_DONE (R291 to R294). -/
def execTollgateFinishDone (ctx : Fin 8) (s : State) : Host.Outcome State Fault Refusal :=
  let c := ctx.val
  let x := getTg s c
  if !tgFinishes s x then .next s
  else if tgLengthBad x then .next (tgError s c 2)
  else
    let d := tgDigest x
    let s := modTg s c (fun x => { x with
      state := .done, digest := BitVec.ofNat 512 (ofLe d), cmpv := x.cmpEn, matched := x.cmpEn && tgEqual x d })
    let s := raise s (64 + 4 * c)
    let s := whenS x.cmpEn (fun s => raise s (64 + 4 * c + if tgEqual x d then 1 else 2)) s
    .next (whenS s.tollgate.irqEn (fun s => irqBlock s 26) s)

end Sys2Proof.Machine
end

