-- ==== Sys2Proof/Machine/Relay.lean ====
section
/-! DEFINITION. The Relay: sinks (R315 to R319) and timers (R320, R321). -/

namespace Sys2Proof.Machine

/-! ### Sinks -/

/-- The offset of RL_K_CMD of sink `k`, and of RL_T_CMD of timer `t` (Table 13.7). -/
def rlSinkCmd (k : Nat) : Nat := 0x781008 + 0x10 * k
/-- See `rlSinkCmd`. -/
def rlTimerCmd (t : Nat) : Nat := 0x784004 + 0x40 * t

/-- Sink `k` exists (R316). -/
def hasSink (k : Nat) : Bool := k ≤ 103 || (256 ≤ k && k ≤ 511)

/-- RESULT of RL_K_CMD. -/
def sinkDone (s : State) (k : Nat) : State := modSink s k (fun x => { x with cmdResult := Status.done.code })

/-- FIRE (R316): N counts, 0 acting as 1. -/
def execFire (p : CtlPort) (sink : Fin 512) (n : W16) (s : State) : Host.Outcome State Fault Refusal :=
  if !hasSink sink.val then portBoth s p .next
  else portCmd s p (rlSinkCmd sink.val) (1 + 65536 * n.toNat) (fun s =>
    .next (sinkOffer (sinkDone s sink.val) sink.val (if n = 0 then 1 else n.toNat)))

/-- CLEAR (R319): the counts held at the start of the control cycle are written off; one that comes after the sink's action of this cycle
belongs to the next cycle, so that no action starts in its own (Table 13.6; DESIGN CHOICE, log entry 54). -/
def execClear (p : CtlPort) (sink : Fin 512) (s : State) : Host.Outcome State Fault Refusal :=
  if !hasSink sink.val then portBoth s p .next
  else portCmd s p (rlSinkCmd sink.val) 2 (fun s =>
    let k := sink.val
    if (getSink s k).actedAt = some s.cycle then .next (modSink (sinkDone s k) k (fun x => { x with clearDue := true }))
    else .next (sinkClear (sinkDone s k) k))

/-- One for each enabled selector of sink `k` whose source is in the list (R316). -/
def sinkHits (x : SinkRec) (srcs : List Nat) : Nat :=
  bit (x.enA && srcs.contains x.srcA.toNat) + bit (x.enB && srcs.contains x.srcB.toNat)

/-- The oldest control cycle before this one with events that are not counted yet (R318). -/
def eventCycle (s : State) : Option Nat :=
  match s.relay.raised with
  | [] => none
  | (c, _) :: _ => if c < s.cycle then some c else none

/-- The sources whose events the Relay counts next: those of that cycle. -/
def sourcesDue (s : State) : List Nat := (s.relay.raised.filter (fun e => some e.1 = eventCycle s)).map Prod.snd

/-- The raisings that remain after those. -/
def raisedRest (s : State) : List (Nat × Nat) := s.relay.raised.filter (fun e => some e.1 ≠ eventCycle s)

/-- SINK_COUNT (R316, R318): every sink receives the events of one earlier control cycle and the counts of lane EVENT instructions. -/
def execSinkCount (s : State) : Host.Outcome State Fault Refusal :=
  if !relayOn s then .next s
  else
    let srcs := sourcesDue s
    let lanes := s.relay.laneAdds
    let rest := raisedRest s
    let s := upRelay s (fun r => { r with raised := rest, laneAdds := [] })
    let sum := fun (s : State) (k : Nat) => sinkHits (getSink s k) srcs + tget 0 lanes k
    .next (forAll ((List.range 512).filter hasSink) (fun s k => if sum s k = 0 then s else sinkOffer s k (sum s k)) s)

/-- Sink `k` consumes one count (R317, R319). -/
def sinkTake (s : State) (k : Nat) : State :=
  upRelay (modSink s k (fun x => { x with count := x.count - 1, actedAt := some s.cycle })) (fun r => { r with consumed := r.consumed + 1 })

/-- One pulse of adapter event output `i` (R317, R361). -/
def sinkPulse (s : State) (i : Nat) : State :=
  upRelay (modSink s (256 + i) (fun x => { x with pulseAfter := s.cycle + 2 })) (fun r => { r with pulses := tmod 0 r.pulses i (fun n => n + 1) })

/-- The sink has a count from before this control cycle, and neither an action nor a CLEAR in it (R317, R319). -/
def sinkMay (s : State) (k : Nat) : Bool :=
  let x := getSink s k
  x.count ≠ 0 && x.actedAt ≠ some s.cycle && x.clearedAt ≠ some s.cycle && hasSink k

/-- SINK_ACTION (R317, Table 13.5): a sink whose action cannot start keeps its count. -/
def execSinkAction (sink : Fin 512) (s : State) : Host.Outcome State Fault Refusal :=
  let k := sink.val
  let x := getSink s k
  if !relayOn s || !sinkMay s k then .next s
  else if k < 32 then
    if ptCanStart s k then .next (ptStart (sinkTake s k) k) else .next s
  else if k < 96 then
    if x.en then .next (ringBell (sinkTake s k) x.ring.toNat) else .next s
  else if k < 104 then .next (tgRequest (sinkTake s k) (k - 96))
  else if x.pulseAfter ≤ s.cycle then .next (sinkPulse (sinkTake s k) (k - 256))
  else .next s

/-! ### Timers -/

/-- The period in 1/65,536 ns (R320). -/
def timerPeriod (t : TimerRec) : Nat := t.period.toNat * 65536 + t.frac.toNat

/-- START on the Almanac's scale (Table 13.8). -/
def timerOrigin (t : TimerRec) : Nat := (t.startSec.toNat * 1000000000 + t.startNs.toNat) * 65536

/-- The least START + k × period after `now`; none: with no period, START is over. -/
def nextTarget (start per now : Nat) : Option Nat :=
  if now < start then some start
  else if per = 0 then none
  else some (start + ((now - start) / per + 1) * per)

/-- The next target of a timer with BASE 1 (R320, R321). -/
def timerAim (s : State) (t : TimerRec) : TimerRec :=
  { t with target := if timeSet s then nextTarget (timerOrigin t) (timerPeriod t) (almTicks s.almanac.time) else none }

/-- The targets that a jump to `now` passes (R321). -/
def targetsPassed (t : TimerRec) (now : Nat) : Nat :=
  match t.target with
  | none => 0
  | some o => if now < o then 0 else if timerPeriod t = 0 then 1 else (now - o) / timerPeriod t + 1

/-- The timer's target is reached on its scale. -/
def timerDue (s : State) (t : TimerRec) : Bool :=
  match t.target with
  | none => false
  | some o => if t.base then timeSet s && decide (o ≤ almTicks s.almanac.time) else inMode s .service && decide (o ≤ t.elapsed)

/-- The target after the one reached. -/
def timerNext (t : TimerRec) : Option Nat :=
  match t.target with
  | none => none
  | some o => if timerPeriod t = 0 then none else some (o + timerPeriod t)

/-- A timer that has fired: a one-shot stops, and so does one that has fired LIMIT times. -/
def timerFired (t : TimerRec) : TimerRec :=
  let n := t.fired + 1
  { t with fired := n, target := timerNext t, running := t.periodic && (t.limit = 0 || n ≠ t.limit) }

/-- Timer `t` fires if its target is reached; a target that passes outside Service is missed (R320). -/
def timerFire (s : State) (t : Nat) : State :=
  let x := getTimer s t
  if !relayOn s || !x.running || !timerDue s x then s
  else if inMode s .service then raise (modTimer s t timerFired) (32 + t)
  else modTimer s t (fun x => { x with missed := x.missed + 1, target := timerNext x })

/-- BASE 1 targets that the time has reached count before a write changes it (Table 13.6). -/
def timersFire (s : State) : State :=
  forAll (tkeys (fun _ (x : TimerRec) => x.running && x.base) s.relay.timers) timerFire s

/-- R321: the time has changed; what a jump passes is missed. -/
def timersMoved (s : State) : State :=
  upRelay s (fun r => { r with timers := tmapv {} (fun _ t =>
    if t.running && t.base then timerAim s { t with missed := t.missed + w32 (targetsPassed t (almTicks s.almanac.time)) } else t) r.timers })

/-- RL_T_CMD is accepted in Provision and Service (Table 13.8). -/
def timerMay (s : State) : Bool := inMode s .provision || inMode s .service

/-- RL_T_CMD refuses a command. -/
def timerRefuse (s : State) (p : CtlPort) (t op : Nat) (st : Status) : State :=
  refuseCmd (modTimer s t (fun x => { x with cmdResult := st.code })) p (rlTimerCmd t) st op

/-- START is refused with ENCODING (R320). -/
def timerBad (t : TimerRec) : Bool := (t.periodic && timerPeriod t < 8 * 65536) || 1000000000 ≤ t.startNs.toNat

/-- A timer after START. -/
def timerStarted (s : State) (t : TimerRec) : TimerRec :=
  let t := { t with running := true, fired := 0, missed := 0, elapsed := 0, cmdResult := Status.done.code }
  if t.base then timerAim s t else { t with target := some (timerPeriod t) }

/-- TIMER_START (R320). A firing that is due stands (Table 13.6). -/
def execTimerStart (p : CtlPort) (timer : Fin 32) (s : State) : Host.Outcome State Fault Refusal :=
  portCmd s p (rlTimerCmd timer.val) 1 (fun s =>
    let t := timer.val
    if !timerMay s then .next (timerRefuse s p t 1 .accessFault)
    else if timerBad (getTimer s t) then .next (timerRefuse s p t 1 .encoding)
    else
      let s := timerFire s t
      .next (modTimer s t (timerStarted s)))

/-- TIMER_STOP (R320). A firing that is due stands (Table 13.6). -/
def execTimerStop (p : CtlPort) (timer : Fin 32) (s : State) : Host.Outcome State Fault Refusal :=
  portCmd s p (rlTimerCmd timer.val) 2 (fun s =>
    let t := timer.val
    if !timerMay s then .next (timerRefuse s p t 2 .accessFault)
    else .next (modTimer (timerFire s t) t (fun x => { x with running := false, cmdResult := Status.done.code })))

/-- TIMER_FIRE (R320). -/
def execTimerFire (timer : Fin 32) (s : State) : Host.Outcome State Fault Refusal := .next (timerFire s timer.val)

end Sys2Proof.Machine
end

