-- ==== Sys2Proof/Machine/Almanac.lean ====
section
/-! DEFINITION. The Almanac: its running time (R324), reads and writes (R326 to R328, R330), PTP discipline (R331, R332), snapshots
(R333), alarms (R334) and the heartbeat (R335). -/

namespace Sys2Proof.Machine

/-! ### Time in 2⁻⁴⁸ ns -/

/-- A time below the second, in units of 2⁻⁴⁸ ns: NSEC, FRAC and the hidden bits (R324). -/
def subSecond (t : AlTime) : Nat := (t.nsec * 65536 + t.frac.toNat) * 2 ^ 32 + t.hidden.toNat

/-- The whole time in nanoseconds. -/
def wholeNs (t : AlTime) : Nat := t.sec.toNat * 1000000000 + t.nsec

/-- The time, SEC, NSEC and FRAC, in units of 2⁻¹⁶ ns (R324). -/
def timeUnits (t : AlTime) : Nat := wholeNs t * 65536 + t.frac.toNat

/-- A second in units of 2⁻⁴⁸ ns. -/
def secondUnits : Nat := 1000000000 * 2 ^ 48

/-- The time with a part below the second of `v` units, which may carry into the seconds. -/
def withSub (t : AlTime) (v : Nat) : AlTime :=
  let low := v % secondUnits
  { sec := t.sec + BitVec.ofNat 48 (v / secondUnits), nsec := low / 2 ^ 48, frac := BitVec.ofNat 16 (low / 2 ^ 32 % 65536)
    hidden := BitVec.ofNat 32 (low % 2 ^ 32) }

/-- What a slew of error `e` has removed after `k` of its control cycles, in units of 2⁻⁴⁸ ns (R331). -/
def slewDone (e : Int) (k : Nat) : Int := e * 2 ^ 48 * k / 500000000

/-- What one slew removes in the next control cycle. -/
def slewNow (x : Int × Nat) : Int := slewDone x.1 (x.2 + 1) - slewDone x.1 x.2

/-- The increment of a control cycle: 2 ns, corrected by AL_FREQ and by the slews (R324, R331). -/
def increment (a : AlmanacRec) : Nat :=
  ((2 ^ 49 : Int) + a.freq.toInt * 2 ^ 17 - (a.slews.map slewNow).sum).toNat

/-- The next control cycle carries NSEC to 10⁹ (R324). -/
def rollsOver (a : AlmanacRec) : Bool := decide (secondUnits ≤ subSecond a.time + increment a)

/-- The slews after one more control cycle: one that has run a second is over. -/
def slewsRun (l : List (Int × Nat)) : List (Int × Nat) :=
  (l.map (fun x => (x.1, x.2 + 1))).filter (fun x => x.2 < 500000000)

/-- One control cycle of the Almanac (R324); each roll-over of NSEC raises source 161 (R337). -/
def almAdvance (s : State) : State :=
  let past := rollsOver s.almanac
  let s := upAlmanac s (fun a => { a with time := withSub a.time (subSecond a.time + increment a), slews := slewsRun a.slews })
  whenS past (fun s => raise s 161) s

/-- SECOND_ROLLOVER (R324): the control cycle in which NSEC reaches 10⁹. -/
def execSecondRollover (s : State) : Host.Outcome State Fault Refusal :=
  if awake s && rollsOver s.almanac then .next (almAdvance s) else .next s

/-! ### Changes of the time and of the state (R330, R332) -/

/-- The Almanac's state becomes `st`; vector 30 on a change (Table 14.3). -/
def alSetState (s : State) (st : AlState) : State :=
  let changed := decide (s.almanac.state ≠ st)
  let s := upAlmanac s (fun a => { a with state := st })
  whenS (changed && s.almanac.irqEn) (fun s => irqBlock s 30) s

/-- KIND 1 slots are flushed: the time was lowered, or is no longer set (R224). -/
def timeFlush (s : State) : State := flushWhere s (fun _ r => r.kind = .tenant)

/-- The words of a TIME_CHANGE record: cause, old time, new time (Table 14.6). -/
def timeWords (cause : Nat) (old new : AlTime) : List W32 :=
  [w32 cause, w32 old.sec.toNat, w32 old.nsec, w32 new.sec.toNat, w32 new.nsec]

/-- The time is at or beyond an alarm (R334). -/
def alarmDue (t : AlTime) (x : AlarmRec) : Bool := decide (x.sec.toNat * 1000000000 + x.ns.toNat ≤ wholeNs t)

/-- Alarm `k` fires if it is due (R334). -/
def alarmFire (s : State) (k : Nat) : State :=
  let x := getAlarm s k
  if awake s && x.en && timeSet s && alarmDue s.almanac.time x then
    raise (modAlarm s k (fun x => { x with en := false, fired := true })) (168 + k)
  else s

/-- R330: the time takes `new`, by a write (cause 1) or a step (cause 2). Alarms and BASE 1 targets that the old time has reached fire
first (Table 14.1). -/
def timeChange (s : State) (new : AlTime) (cause : Nat) : State :=
  let old := s.almanac.time
  let s := upAlmanac (forAll (List.range 16) alarmFire (timersFire s)) (fun a => { a with time := new, steps := a.steps + 1 })
  let s := if timeSet s then s else alSetState s .free
  let s := emit (raise s 164) 12 0x004 0 (timeWords cause old new)
  whenS (decide (timeUnits new < timeUnits old)) timeFlush (timersMoved s)

/-- The Almanac becomes UNSET (R330, R332). -/
def timeUnset (s : State) : State :=
  let t := s.almanac.time
  let s := alSetState (upAlmanac s (fun a => { a with lockRun := 0 })) .unset
  timeFlush (emit (raise s 165) 12 0x004 0 (timeWords 3 t t))

/-! ### The ports (R326 to R328) -/

/-- The shadow and staging registers of a port. -/
def alPort (s : State) (p : CtlPort) : AlPort :=
  match p with
  | .host => s.almanac.host
  | .sideband => s.almanac.sideband

/-- Change them. -/
def modAlPort (s : State) (p : CtlPort) (f : AlPort → AlPort) : State :=
  match p with
  | .host => upAlmanac s (fun a => { a with host := f a.host })
  | .sideband => upAlmanac s (fun a => { a with sideband := f a.sideband })

/-- A write of AL_SEC stages a half or both (R327, R456). -/
def stageSec (half : PairHalf) (data : W64) (x : AlPort) : AlPort :=
  match half with
  | .low => { x with stagedLow := some (getHalf data false) }
  | .high => { x with stagedHigh := some (BitVec.ofNat 16 data.toNat) }
  | .both => { x with stagedLow := some (getHalf data false), stagedHigh := some (BitVec.ofNat 16 (fld data 32 16)) }

/-- SEC_STAGE (R327, R328). -/
def execSecStage (p : CtlPort) (half : PairHalf) (data : W64) (s : State) : Host.Outcome State Fault Refusal :=
  portBoth s p (fun s =>
    if s.almanac.wlock then
      .next (regAccess s p 3 (match half with
        | .high => 0x7C0014
        | .low => 0x7C0010
        | .both => 0x7C0010) (half = .both) data)
    else .next (modAlPort s p (stageSec half data)))

/-- The seconds that an AL_NSEC write sets: an unstaged half keeps what SEC holds (R327, R456). -/
def stagedSec (now : BitVec 48) (x : AlPort) : BitVec 48 :=
  let low := match x.stagedLow with
    | some v => v.toNat
    | none => fld now 0 32
  let high := match x.stagedHigh with
    | some v => v.toNat
    | none => fld now 32 16
  BitVec.ofNat 48 (low + 2 ^ 32 * high)

/-- The staging of a port clears. -/
def unstage (x : AlPort) : AlPort := { x with stagedLow := none, stagedHigh := none }

/-- The sideband port has written AL_NSEC in this control cycle: the host port's write is ignored (Table 14.1). -/
def nsecBeaten (s : State) (p : CtlPort) : Bool := decide (p = .host) && decide (s.almanac.wroteAt = some (s.cycle, .sideband))

/-- NSEC_WRITE (R327, R328, R330, Table 14.1). -/
def execNsecWrite (p : CtlPort) (data : W32) (s : State) : Host.Outcome State Fault Refusal :=
  portBoth s p (fun s =>
    let ns := fld data 0 30
    if s.almanac.wlock then .next (regAccess s p 3 0x7C0008 false (w64 data.toNat))
    else if 1000000000 ≤ ns || nsecBeaten s p then .next (modAlPort (regAccess s p 3 0x7C0008 false (w64 data.toNat)) p unstage)
    else
      let sec := stagedSec s.almanac.time.sec (alPort s p)
      let s := upAlmanac (modAlPort s p unstage) (fun a => { a with wroteAt := some (s.cycle, p) })
      .next (timeChange s { sec := sec, nsec := ns } 1))

/-- A read of AL_NSEC latches SEC and FRAC for the port (R326). -/
def nsecLatch (s : State) (p : CtlPort) : State :=
  modAlPort s p (fun x => { x with sec := s.almanac.time.sec, frac := s.almanac.time.frac })

/-! ### Discipline (R331, R332) -/

/-- STEP_US in effect, in ns (Table 14.3). -/
def stepNs (a : AlmanacRec) : Nat := 1000 * Nat.max 1 (capAt 500 a.stepUs.toNat)

/-- AL_FREQ's limit: ±500 ppm in units of 2⁻³². -/
def freqLimit : Int := 2147483

/-- AL_FREQ with −e / (8 × 10⁹) added, rounded to its units and limited (R331). -/
def freqAfter (freq : W32) (e : Int) (up : Bool) : W32 :=
  let num := -e * 2 ^ 32
  let q := num / 8000000000
  let d := if up && num % 8000000000 ≠ 0 then q + 1 else q
  BitVec.ofInt 32 (max (-freqLimit) (min freqLimit (freq.toInt + d)))

/-- AL_PHASE: `e` in ns, saturating (Table 14.3). -/
def phaseWord (e : Int) : W32 := BitVec.ofInt 32 (max (-2 ^ 31) (min (2 ^ 31 - 1) e))

/-- No edge has been accepted in the 0.9 s before this control cycle (R331). -/
def edgeSpaced (s : State) : Bool :=
  match s.almanac.lastEdge with
  | none => true
  | some c => decide (c + 450000000 ≤ s.cycle)

/-- AL_NSEC has been written in this control cycle: an edge is rejected (Table 14.1). -/
def writeBeats (s : State) : Bool :=
  match s.almanac.wroteAt with
  | some (c, _) => decide (c = s.cycle)
  | none => false

/-- An accepted edge steps or slews the Almanac by error `e`; the edge lies `ago` ns back (R331). -/
def ppsAct (s : State) (tod : BitVec 48) (e : Int) (ago : Nat) (up : Bool) : State :=
  let a := s.almanac
  let run := if timeSet s && e.natAbs < a.lockNs.toNat then Nat.min 4 (a.lockRun + 1) else 0
  if !timeSet s || stepNs a ≤ e.natAbs then
    upAlmanac (timeChange s { sec := tod, nsec := ago } 2) (fun a => { a with lockRun := run })
  else
    upAlmanac s (fun a => { a with slews := a.slews ++ [(e, 0)], freq := freqAfter a.freq e up, lockRun := run })

/-- A set Almanac becomes LOCKED after four consecutive accepted edges within LOCK_NS, and raises source 162 (R332). -/
def ppsLock (s : State) : State :=
  if s.almanac.lockRun = 4 && timeSet s && s.almanac.state ≠ .locked then raise (alSetState s .locked) 162 else s

/-- PPS_EDGE (R331, Table 14.1). -/
def execPpsEdge (tod : BitVec 48) (todValid : Bool) (s : State) : Host.Outcome State Fault Refusal :=
  if !awake s then .next s
  else
    let s := upAlmanac s (fun a => { a with todv := todValid })
    if !s.almanac.disc then .next s
    else if !(todValid && edgeSpaced s) || writeBeats s then .next (upAlmanac s (fun a => { a with ppsRej := a.ppsRej + 1 }))
    else
      let k := s.almanac.ppsAcc.toNat
      let ago := 4 + Config.ppsError k % 5
      let e : Int := (wholeNs s.almanac.time : Int) - (ago : Int) - (tod.toNat : Int) * 1000000000
      let s := ppsLock (ppsAct s tod e ago (Config.freqUp k))
      .next (raise (upAlmanac s (fun a => { a with phase := phaseWord e, ppsAcc := a.ppsAcc + 1, lastEdge := some s.cycle })) 160)

/-- 1.2 s have passed without an accepted edge. -/
def edgeLost (s : State) : Bool :=
  match s.almanac.lastEdge with
  | none => true
  | some c => decide (c + 600000000 ≤ s.cycle)

/-- HOLDOVER (R332). -/
def execHoldover (s : State) : Host.Outcome State Fault Refusal :=
  if s.almanac.state = .locked && edgeLost s then
    .next (raise (alSetState (upAlmanac s (fun a => { a with lockRun := 0, holdSince := s.cycle })) .holdover) 163)
  else .next s

/-- HOLDOVER_EXPIRY (R332): HOLD_MAX seconds of HOLDOVER. -/
def execHoldoverExpiry (s : State) : Host.Outcome State Fault Refusal :=
  let a := s.almanac
  if a.state = .holdover && a.holdMax ≠ 0 && decide (a.holdSince + 500000000 * a.holdMax.toNat ≤ s.cycle) then .next (timeUnset s)
  else .next s

/-- DISC = 0 takes a LOCKED or HOLDOVER Almanac to FREE (R332). -/
def discOff (s : State) : State :=
  if s.almanac.disc then s
  else
    let s := upAlmanac s (fun a => { a with lockRun := 0 })
    if s.almanac.state = .locked || s.almanac.state = .holdover then alSetState s .free else s

/-! ### Snapshots, alarms, heartbeat -/

/-- ALMANAC_SNAPSHOT (R333). -/
def execAlmanacSnapshot (s : State) : Host.Outcome State Fault Refusal :=
  if awake s then .next (upAlmanac s (fun a => { a with snap := a.time, snapSet := a.state ≠ .unset })) else .next s

/-- ALARM_FIRE (R334). -/
def execAlarmFire (alarm : Fin 16) (s : State) : Host.Outcome State Fault Refusal := .next (alarmFire s alarm.val)

/-- A heartbeat write is unacknowledged (R335). -/
def heartbeatOut (s : State) : Bool :=
  busyFor s (fun w => match w with
    | .heartbeat => true
    | _ => false)

/-- A heartbeat is due: in Service, with EN = 1, 4,000 control cycles after the one before (R335). -/
def heartbeatDue (s : State) : Bool :=
  let a := s.almanac
  inMode s .service && a.hbEn && (match a.hbAt with
    | some c => decide (c + 4000 ≤ s.cycle)
    | none => true)

/-- HEARTBEAT (R335): one that falls due while the one before is unacknowledged is skipped. -/
def execHeartbeat (s : State) : Host.Outcome State Fault Refusal :=
  if !heartbeatDue s then .next s
  else
    let s := upAlmanac s (fun a => { a with hbAt := some s.cycle })
    if heartbeatOut s then .next (upAlmanac s (fun a => { a with hbSkipped := a.hbSkipped + 1 }))
    else
      .next (issueAccess s .heartbeat { spaceLocal := true } s.almanac.hbAddr 8
        (some (leBytes 8 (stampOf s.almanac.time).toNat)))

end Sys2Proof.Machine
end

