-- ==== Sys2Proof/Machine/Muster.lean ====
section
/-! DEFINITION. Muster: admission (R126 to R130), placement (R131 to R136), preemption and resumption (R135, R137, R138), laggards
(R141, R142) and the share window (R133). -/

namespace Sys2Proof.Machine

/-! ### Admission -/

/-- Entries are admitted in Service, and where a Recovery lets the jobs of their ring run. -/
def admitMay (s : State) (j : Nat) : Bool := inMode s .service || recovRuns s (getJob s j).ring

/-- R126, R127: the class of a job, with the bucket charged or the demotion counted. -/
def classify (s : State) (j : Nat) : JobClass × State :=
  let x := getJob s j
  match e0Class x.word0 with
  | 1 => (.post, s)
  | 2 => (.freight, s)
  | 3 => (.ballast, s)
  | _ =>
    if !(getRing s x.ring).courier then (.post, s)
    else
      let charge : Int := 1024 * (chargeVal s : Int)
      if charge ≤ s.muster.cbLevel then
        (.courier, upMuster s (fun m => { m with cbLevel := m.cbLevel - charge, cbAdmitted := m.cbAdmitted + 1 }))
      else (.post, upMuster s (fun m => { m with cbDemoted := m.cbDemoted + 1 }))

/-- A job joins the end of its class queue. -/
def enqueue (s : State) (j : Nat) (c : JobClass) : State :=
  let s := modJob s j (fun x => { x with cls := c, seat := .queued, adm := s.muster.admitSeq })
  let s := upMuster s (fun m => { m with admitSeq := m.admitSeq + 1 })
  upMuster s (fun m =>
    match c with
    | .courier => { m with courierQ := m.courierQ ++ [j] }
    | .post => { m with postQ := m.postQ ++ [j] }
    | .freight => { m with freightQ := m.freightQ ++ [j] }
    | .ballast => { m with ballastQ := m.ballastQ ++ [j] })

/-- Muster admits a job: it is queued, or it ends here (R130). R130 does not say whether a job that ends here is charged to the bucket
or counted: it takes no class, no charge and no count (DESIGN CHOICE, log entry 63). -/
def admitJob (s : State) (j : Nat) : State :=
  let w := (getJob s j).word0
  let s := unqueue s j
  if entryRefused w || (e0Yoke w && !anyYoke s) then endAside s j .encoding none
  else
    let (c, s) := classify s j
    enqueue s j c

/-- ADMISSION (R129). -/
def execAdmission (s : State) : Host.Outcome State Fault Refusal :=
  match (s.muster.arrCourier ++ s.muster.arrOther).find? (admitMay s) with
  | some j => .next (admitJob s j)
  | none => .next s

/-! ### Job start -/

/-- R65, R78, R113: the status of a job that fails a job-start check. -/
def startFault (s : State) (x : Job) : Option Status :=
  let P := progLen s x
  if e0Route x.word0 ≠ 0 && !(getRoute s (e0Route x.word0)).valid then some .routeEmpty
  else if !(List.range (e0Ninst x.word0)).all (fun p => staticOk P p (x.slots.getD p 0)) then some .encoding
  else if e0Class x.word0 = 0 && (getRing s x.ring).courier && (List.range P).any (fun p => courierBanned (instrAt s x p)) then
    some .encoding
  else if e0Manifest x.word0 && x.word1.toNat % 16 ≠ 0 then some .manifestFault
  else none

/-- Job start (R80): the state of Table 3.1 takes its job-start values; a failing check ends the job when it enters execution. -/
def startJob (s : State) (l j : Nat) : State :=
  let x := getJob s j
  let f := startFault s x
  modJob s j (fun x => { x with
    sat := [], cursors := [], flags := flagsStart (e0Manifest x.word0) (isYoke s l), pend := .done, pos := 0, run := none
    user := [], wait := .nothing, kept := none, wrote := none, started := true, setUp := false, preparedTo := 0
    stop := match f with
      | some st => some st
      | none => x.stop })

/-- A job is put into execution: what reached it before its entry ends it now (R43, R352). -/
def execute (s : State) (l j : Nat) : State :=
  let s := modLane s l (fun n => { n with run := some j })
  let s := modJob s j (fun x => { x with seat := .running l, onLane := true, stuck := 0, eaten := [] })
  match (getJob s j).stop with
  | some st => endHard s j st
  | none => s

/-- A job enters execution on a target for the first time: its job start comes now, unless preparation has done it (R80, R154). -/
def enterLane (s : State) (l j : Nat) : State :=
  let s := if (getJob s j).started then s else startJob s l j
  let s := modLane s l (fun n => { n with
    staged := n.staged.filter (fun k => k ≠ j), courier := if n.courier = some j then none else n.courier
    prep := if n.prep = some j then none else n.prep, setup := if n.setup = some j then none else n.setup })
  execute (modJob s j (fun x => { x with occ := 0, ran := 0 })) l j

/-! ### Targets (R131) -/

/-- R435: Ration's duty cycle holds an unreserved lane off at this moment: lane n runs DUTY·2,000/64 lane cycles from cycle 125·n of
the epoch. -/
def laneHeld (s : State) (l : Nat) : Bool :=
  !s.muster.reserve.toNat.testBit l &&
  2000 * s.ration.dutyD.toNat ≤ 64 * ((4 * s.ration.phase + 2000 - 125 * l) % 2000)

/-- Table 5.3: the target led by `l` is eligible. -/
def eligible (s : State) (l : Nat) : Bool :=
  domTakes s (trainOf l) && (members s l).all (fun k => laneEnEff s k && !laneHeld s k)

/-- Muster may place the job: nothing of a Recovery's scope is placed but what its third step runs (R391, R394). -/
def placeMay (s : State) (j : Nat) : Bool :=
  let r := (getJob s j).ring
  recovRuns s r || (inMode s .service && !recovAt s r 1)

/-- The target's string takes work: a contained string takes none, except in a block Recovery that runs jobs to their ends. -/
def stringOpen (s : State) (l j : Nat) : Bool :=
  !stringContained s (stringOf l) ||
  (recovRuns s (getJob s j).ring && s.mode.recov.any (fun v => v.scope = .block))

/-- Some lane of the target is reserved, and all are. -/
def anyReserved (s : State) (l : Nat) : Bool := (members s l).any (fun k => s.muster.reserve.toNat.testBit k)
/-- See `anyReserved`. -/
def allReserved (s : State) (l : Nat) : Bool := (members s l).all (fun k => s.muster.reserve.toNat.testBit k)

/-- Nothing runs on the target and Muster has placed no Courier job on it. -/
def laneFree (s : State) (l : Nat) : Bool := (getLane s l).run = none && (getLane s l).courier = none

/-- The target is idle. -/
def laneIdle (s : State) (l : Nat) : Bool := laneFree s l && (getLane s l).saved = [] && (getLane s l).staged = []

/-- R132: a target that is not a laggard first; of several that are alike in this the rule names none, and the lowest lane is taken
(DESIGN CHOICE, log entry 63). -/
def preferred (s : State) (ls : List Nat) : Option Nat :=
  match ls.find? (fun l => !(getLane s l).laggard) with
  | some l => some l
  | none => ls.head?

/-- The member of a list with the least key, the first of several. -/
def argMin (key : Nat → Nat) : List Nat → Option Nat
  | [] => none
  | a :: as =>
    match argMin key as with
    | none => some a
    | some b => if key a ≤ key b then some a else some b

/-! ### Courier placement (R132) -/

/-- Targets that a Courier job may take at all. -/
def courierTargets (s : State) (j : Nat) : List Nat :=
  (targets s).filter (fun l => eligible s l && stringOpen s l j && (!e0Yoke (getJob s j).word0 || isYoke s l) &&
    (getLane s l).courier = none)

/-- The running job of a target may be preempted: it is not Courier, it has not ended, and a save slot is free. -/
def preemptable (s : State) (l : Nat) : Bool :=
  match (getLane s l).run with
  | some v => (getJob s v).cls ≠ .courier && !(getJob s v).isOver && (getLane s l).saved.length < 2
  | none => false

/-- The order of victims: laggards last, Ballast before Freight before Post, fewer saved jobs, the lowest lane. R132 does not rank its
preference for targets that are no laggards against the class of the victim: here it comes first (DESIGN CHOICE, log entry 63). -/
def victimKey (s : State) (l : Nat) : Nat :=
  let rank := match (getLane s l).run with
    | some v => 3 - (getJob s v).cls.code
    | none => 0
  10000 * bit (getLane s l).laggard + 1000 * rank + 100 * (getLane s l).saved.length + l

/-- The target for a Courier job: an idle reserved lane, or for a YOKE job an idle yoke of reserved lanes; any that is idle; one free
between two jobs (R135); or a victim. -/
def courierTarget (s : State) (j : Nat) : Option Nat :=
  let ts := courierTargets s j
  match preferred s (ts.filter (fun l => laneIdle s l && allReserved s l && isYoke s l == e0Yoke (getJob s j).word0)) with
  | some l => some l
  | none =>
    match preferred s (ts.filter (laneIdle s)) with
    | some l => some l
    | none =>
      match preferred s (ts.filter (laneFree s)) with
      | some l => some l
      | none => argMin (victimKey s) (ts.filter (preemptable s))

/-- R154: the jobs in preparation and setup are put back among the staged jobs, unprepared. -/
def displace (s : State) (l : Nat) : State :=
  let js := (getLane s l).setup.toList ++ (getLane s l).prep.toList
  modLane (forAll js unprepare s) l (fun x => { x with prep := none, setup := none })

/-- A Courier job is placed on a target; a running job gets a preemption request. -/
def placeCourier (s : State) (l j : Nat) : State :=
  let s := displace (unqueue s j) l
  let s := modLane s l (fun x => { x with courier := some j, preempt := x.run.isSome })
  startReads (modJob s j (fun x => { x with seat := .staged l })) j

/-- COURIER_PLACEMENT (R132): the head of the Courier queue. -/
def execCourierPlacement (s : State) : Host.Outcome State Fault Refusal :=
  match s.muster.courierQ.find? (placeMay s) with
  | none => .next s
  | some j =>
    match courierTarget s j with
    | some l => .next (placeCourier s l j)
    | none => .next s

/-! ### Placement of the other classes (R133, R134) -/

/-- STAGE in effect. -/
def stageMax (s : State) : Nat := Nat.max 2 (capAt 32 s.muster.stage.toNat)

/-- A YOKE job of any class waits. -/
def yokeWaits (s : State) : Bool :=
  (s.muster.courierQ ++ s.muster.postQ ++ s.muster.freightQ ++ s.muster.ballastQ).any (fun j => e0Yoke (getJob s j).word0)

/-- R131, R134, R142, R148: the target accepts a non-Courier job. A target under a preemption request, whose saved job is to come, accepts
none either (R134 names a target with a saved job; DESIGN CHOICE, log entry 63). -/
def acceptsJob (s : State) (j l : Nat) : Bool :=
  let x := getJob s j
  let n := getLane s l
  eligible s l && stringOpen s l j && n.saved = [] && !n.preempt && n.staged.length < stageMax s &&
  (if e0Yoke x.word0 then isYoke s l else !isYoke s l || !yokeWaits s) &&
  (!n.laggard || x.cls = .ballast) &&
  (!anyReserved s l || (laneIdle s l && s.muster.courierQ = [] && !s.muster.throttle))

/-- The running and staged jobs of a target. -/
def laneLoad (s : State) (l : Nat) : Nat :=
  (getLane s l).run.toList.length + (getLane s l).courier.toList.length + (getLane s l).staged.length

/-- R134: the target for a job: the least load, ties to the first after the last one placed. -/
def targetFor (s : State) (j : Nat) : Option Nat :=
  argMin (fun l => 16 * laneLoad s l + (l + 15 - s.muster.lastLane) % 16) ((targets s).filter (acceptsJob s j))

/-- The queue of a class. -/
def classQueue (s : State) (c : JobClass) : List Nat :=
  match c with
  | .courier => s.muster.courierQ
  | .post => s.muster.postQ
  | .freight => s.muster.freightQ
  | .ballast => s.muster.ballastQ

/-- The ring of a class served last. -/
def lastRing (s : State) (c : JobClass) : Nat :=
  match c with
  | .courier => 4095
  | .post => s.muster.lastPost
  | .freight => s.muster.lastFreight
  | .ballast => s.muster.lastBallast

/-- R133: the job of a class to place next: rings in round-robin order, the oldest of the ring's jobs that a target accepts. -/
def classJob (s : State) (c : JobClass) : Option Nat :=
  let js := (classQueue s c).filter (fun j => placeMay s j && (targetFor s j).isSome)
  let turn := fun (j : Nat) => ((getJob s j).ring + 4095 - lastRing s c) % 4096
  argMin turn js

/-- The lane cycles that shares are measured against: those of eligible targets that Courier jobs did not occupy. -/
def shareCycles (s : State) : Nat := s.muster.winCycles - s.muster.occCourier

/-- A class's share in the current window is below `n`/256; with no cycles counted yet it is 0. -/
def shareBelow (s : State) (occ n : Nat) : Bool := 256 * occ < n * shareCycles s || (shareCycles s = 0 && 0 < n)

/-- FREIGHT in effect. -/
def freightShare (s : State) : Nat :=
  let p := s.muster.sharePost.toNat
  let f := s.muster.shareFreight.toNat
  if 256 < p + f then 256 - p else f

/-- R133: the order in which the classes are tried. -/
def classOrder (s : State) : List JobClass :=
  let m := s.muster
  let on := !m.throttle && !m.sharesOff
  (if on && shareBelow s m.occPost m.sharePost.toNat then [.post] else []) ++
  (if on && shareBelow s m.occFreight (freightShare s) then [.freight] else []) ++ [.post, .freight, .ballast]

/-- A job is placed on a target and waits there, staged; a reserved lane never holds a staged job, and it enters execution at once
(R131). -/
def placeJob (s : State) (l j : Nat) : State :=
  let x := getJob s j
  let s := unqueue s j
  let s := upMuster s (fun m => { m with
    lastLane := l
    lastPost := if x.cls = .post then x.ring else m.lastPost
    lastFreight := if x.cls = .freight then x.ring else m.lastFreight
    lastBallast := if x.cls = .ballast then x.ring else m.lastBallast })
  let s := modLane s l (fun n => { n with staged := n.staged ++ [j] })
  let s := startReads (modJob s j (fun x => { x with seat := .staged l })) j
  if anyReserved s l then enterLane s l j else s

/-- PLACEMENT (R133, R134): while the Courier queue is empty. -/
def execPlacement (s : State) : Host.Outcome State Fault Refusal :=
  if s.muster.courierQ ≠ [] then .next s
  else
    match (classOrder s).findSome? (classJob s) with
    | none => .next s
    | some j =>
      match targetFor s j with
      | some l => .next (placeJob s l j)
      | none => .next s

/-! ### Preemption and resumption -/

/-- One of the Courier jobs that wait would take target `l`, when they are placed in turn. -/
def courierTakes : Nat → State → Nat → Bool
  | 0, _, _ => false
  | fuel + 1, s, l =>
    match s.muster.courierQ.find? (placeMay s) with
    | none => false
    | some j =>
      match courierTarget s j with
      | none => false
      | some t => t = l || courierTakes fuel (placeCourier s t j) l

/-- R135: a Courier job that Muster places on the target goes before its saved and staged jobs. -/
def courierDue (s : State) (l : Nat) : Bool := courierTakes s.muster.courierQ.length s l

/-- A key register's reference in a save slot: whether there is one, usage, tenant, slot, generation. -/
def keyImage (s : State) (j n : Nat) : List Byte :=
  padTo 32 (match keyReg s j n with
    | some r => [1, 0] ++ leBytes 2 r.usage.toNat ++ leBytes 2 r.tenant.toNat ++ leBytes 2 r.slot ++ leBytes 4 r.gen.toNat
    | none => [])

/-- How far the interrupted instruction has consumed each stream. -/
def eatenOf (s : State) (x : Job) : Table Nat :=
  (x.asked.map (fun kv => (kv.1, consumed s x kv.1 kv.2))).filter (fun kv => kv.2 ≠ 0)

/-- What the interrupted instruction has taken of its streams: their bytes from the cursors on, stream after stream. -/
def takenInput (s : State) (x : Job) : List Byte :=
  x.asked.flatMap (fun kv => arrived x kv.1 (cursor x kv.1) (consumed s x kv.1 kv.2 - cursor x kv.1))

/-- The state of the interrupted instruction in a save slot: the PART state and USER that STREAM loaded, its own running state over the whole
blocks of 128 bytes that it has taken, its partial input, the ticket it waits for, and the output that has gone. -/
def instrImage (s : State) (x : Job) : List Byte :=
  let i := instrAt s x x.pos
  let took := takenInput s x
  let whole := took.length / 128 * 128
  let run := match x.run with
    | some r => [1, BitVec.ofNat 8 r.alg, BitVec.ofNat 8 r.step, BitVec.ofNat 8 (bit r.loaded)] ++ padTo 80 r.bytes
    | none => zeros 84
  let start := match x.run with
    | some r => r.bytes
    | none => []
  let wait : Nat × Nat := match x.wait with
    | .nothing => (0, 0)
    | .mint f => (1, f)
    | .bench t => (2, t)
    | .scales t => (3, t)
    | .well d => (4, d)
    | .zeroing p => (5, p)
    | .poison => (6, 0)
  padTo 1120 (run ++ padTo 16 x.user ++ leBytes 4 wait.1 ++ leBytes 4 wait.2 ++ leBytes 8 x.done ++ leBytes 8 took.length ++
    (if whole = 0 then zeros 80 else stdBytes (.part (wAlg i)) [start, took.take whole] 80) ++ padTo 128 (took.drop whole))

/-- The banks and the read tags of a job in a save slot: how many banks it keeps, and for each master port a bit for each of the 256 tags of
its outstanding reads. -/
def readsImage (s : State) (x : Job) (j : Nat) : List Byte :=
  let mine := fun (r : Req) => (tget none s.ai.accesses r.access).any (fun a => isReadOf j a.who)
  padTo 256 (leBytes 1 (2 ^ savedBanks s x - 1) ++ (List.range 4).flatMap (fun p =>
    leBytes 32 (((getPort s p).reads.map (fun kv => if kv.2.any mine then 2 ^ (kv.1 % 256) else 0)).sum)))

/-- The 4,096 bytes of a save slot (Table 6.3). The table gives each part its place and length; what the bits within a part are it does not
say (DESIGN CHOICE, log entry 63). -/
def saveImage (s : State) (j : Nat) : List Byte :=
  let x := getJob s j
  let block := 8 * (x.fragBlocks - 1)
  tread 0 x.sat 0 2048 ++ [0, 1, 2, 3].flatMap (keyImage s j) ++
  padTo 384 ((List.range 58).flatMap (fun k => leBytes 6 (cursor x k))) ++
  padTo 16 (leBytes 1 (flagsCode x.flags) ++ leBytes 2 x.pend.code.toNat ++ leBytes 1 x.pos ++ leBytes 1 (e0Ninst x.word0) ++ leBytes 2 (e0Route x.word0) ++
    leBytes 1 (bit (e0Manifest x.word0))) ++
  (List.range 8).flatMap (fun k =>
    if block + k < fragSkip x then zeros 16 else leBytes 16 (tget 0 x.frags (block + k - fragSkip x)).toNat) ++
  leBytes 8 x.fragBlocks ++ leBytes 8 (fragCount x) ++ instrImage s x ++ readsImage s { x with seat := .saved 0, eaten := eatenOf s x } j

/-- PREEMPTION_SAVE (R137, R138, R157): the victim is saved with everything it holds, and a save slot is written: on a yoke in both lanes
(R170). What its instruction has consumed of its reads is noted: the job keeps the banks of the rest (R155). -/
def execPreemptionSave (lane : Fin 16) (s : State) : Host.Outcome State Fault Refusal :=
  let l := lane.val
  let n := getLane s l
  match n.run with
  | none => .next s
  | some j =>
    if !(n.preempt && preemptable s l) || laneHeld s l then .next s
    else
      let image := saveImage s j
      let s := modLane s l (fun n => { n with run := none, saved := j :: n.saved, preempt := false })
      let s := forAll (members s l) (fun s k => modLane s k (fun n => { n with slots := (j, image) :: n.slots })) s
      let s := modJob s j (fun x => { x with seat := .saved l, eaten := eatenOf s x })
      .next (modUnit s (laneUnit l) (fun u => { u with preempts := u.preempts + 1 }))

/-- RESUMPTION (R135): the target's most recently saved job goes on, on the lane that saved it, and its save slots are cleared (R158). A held
lane executes nothing (R435). -/
def execResumption (lane : Fin 16) (s : State) : Host.Outcome State Fault Refusal :=
  let l := lane.val
  match (getLane s l).saved with
  | [] => .next s
  | j :: rest =>
    if laneFree s l && !laneOut s l && jobMoves s l j && !courierDue s l && !laneHeld s l then
      let s := modLane s l (fun n => { n with saved := rest })
      .next (execute (forAll (members s l) (fun s k => modLane s k (fun n => { n with slots := n.slots.filter (fun c => c.1 ≠ j) })) s) l j)
    else .next s

/-! ### Laggards, shares, the latency register -/

/-- LAGGARD (R142): the target's staged jobs go back and it is marked. -/
def execLaggard (lane : Fin 16) (s : State) : Host.Outcome State Fault Refusal :=
  let l := lane.val
  if leadOf s l = l && isLaggard s l && !(getLane s l).laggard then
    .next (modLane (returnStaged s l) l (fun n => { n with laggard := true }))
  else .next s

/-- A measured share in 1/256: R133 does not say how it is rounded, nor how a full share shows in 8 bits. It is rounded down, and 255 at
most (DESIGN CHOICE, log entry 63). -/
def shareOf (s : State) (occ : Nat) : Byte :=
  if shareCycles s = 0 then 0 else BitVec.ofNat 8 (Nat.min 255 (256 * occ / shareCycles s))

/-- SHARE_WINDOW_END (R133): the shares are measured and the next window starts; shares that a throttle suspended are in force again
from a window that starts after it has cleared (Table 5.3). -/
def execShareWindowEnd (s : State) : Host.Outcome State Fault Refusal :=
  if !awake s then .next s
  else
    .next (upMuster s (fun m => { m with
      measPost := shareOf s m.occPost, measFreight := shareOf s m.occFreight, measBallast := shareOf s m.occBallast
      occPost := 0, occFreight := 0, occBallast := 0, occCourier := 0, winCycles := 0, sharesOff := m.throttle }))

/-- LATMAX_CLEAR (Table 5.5): any write sets 0. -/
def execLatmaxClear (p : CtlPort) (s : State) : Host.Outcome State Fault Refusal :=
  portSet s p 0x200060 false 0 (fun s =>
    .next (upAi s (fun a => { a with crLatMax := 0 })))

end Sys2Proof.Machine
end

