-- ==== Sys2Proof/Machine/Lanes.lean ====
section
/-! DEFINITION. The lanes: the job pipeline (R154), job start with its checks (R65, R78, R80, R113), the compare port of a yoke
(R171, R172), job end (R82), and what every instruction shares: its operands (R60, R73, R74, R89, R90), its key checks (R93, R94,
R192, R218) and its completion. -/

namespace Sys2Proof.Machine

/-! ### Yoke mismatches (R172) -/

/-- The copies of item `row` of Table 6.6 differ on the lane's yoke. -/
def itemDiffers (s : State) (l : Nat) (c : Compare) (row : Nat) : Bool :=
  isYoke s l && (match c with
    | .item r => decide (r.val = row)
    | _ => false)

/-- The copies of the sequencer's progress differ. -/
def progressDiffers (s : State) (l : Nat) (c : Compare) : Bool := isYoke s l && decide (c = .progress)

/-- QUARANTINE is set in a lane. -/
def quarantineLane (s : State) (l : Nat) : State := modUnit s (laneUnit l) (fun u => { u with quarantine := true })

/-- R172 item 2: the job ends, wherever it is: a KEY of a job in preparation or of a saved one is compared too (R154, R214). -/
def mismatchEnds (s : State) (l j : Nat) : State :=
  match (getJob s j).seat with
  | .running _ => endHard s j .yokeMismatch
  | .saved _ => endAside s j .yokeMismatch (some l)
  | _ => unitEnding (endAside s j .yokeMismatch none) (laneUnit l) .yokeMismatch

/-- R172 items 2 to 5; the item is suppressed by the caller. -/
def yokeMismatch (s : State) (l j row : Nat) : State :=
  let x := getJob s j
  let s := mismatchEnds s l j
  let s := emit s 3 0x202 Status.yokeMismatch.code
    [w32 (l + 16 * (l + 1) + 256 * x.pos + 65536 * x.ring), w32 (e0Tag x.word0), w32 row]
  let s := containString s (stringOf l) 10
  let s := returnStaged s l
  quarantineLane (quarantineLane s l) (l + 1)

/-! ### Key registers in use -/

/-- Where a key use fails (R61, R93, R94, R192, R218): an empty register or a missing right, type or lock is KEY_USAGE, a slot that
no longer is what the register names is KEY_CONFLICT. -/
def keyFault (s : State) (j k right alg : Nat) (types : Nat → Bool) : Option Status :=
  match keyReg s j k with
  | none => some .keyUsage
  | some r =>
    let c := getSlot s r.slot
    if !keyRefOk s r then some .keyConflict
    else if !r.usage.toNat.testBit right || !types c.ktype.toNat || !(c.algLock = 0 || c.algLock.toNat = alg) then some .keyUsage
    else none

/-- The job ends for a key use that failed; a slot whose GEN or TENANT differ has its record (R218). -/
def endKey (s : State) (j k : Nat) (st : Status) : State :=
  let s := match keyReg s j k with
    | some r => if st = .keyConflict && (getSlot s r.slot).kind ≠ .dead then genFault s r.slot else s
    | none => s
  endHard s j st

/-- The key behind a register, at its own length. -/
def keyBytes (s : State) (j k : Nat) : List Byte :=
  match keyReg s j k with
  | some r => (slotKey s r.slot).take (getSlot s r.slot).klen
  | none => []

/-- The slot behind a register. -/
def keySlot (s : State) (j k : Nat) : SlotRec :=
  match keyReg s j k with
  | some r => getSlot s r.slot
  | none => {}

/-- The number of a key register designator. -/
def keyNum (b : Nat) : Nat := b - 0x80

/-! ### Leading KEYs (R154) -/

/-- The HANDLE's index. -/
def wIndex (i : W64) : Nat := immF i 0 24

/-- The job's tenant (R31). -/
def jobTenant (s : State) (j : Nat) : BitVec 12 := (getRing s (getJob s j).ring).tenant

/-- What the lookup of a job's tenant record meets (R182, R213): its 64 bytes, with the state after the use, a miss, or two matches. -/
inductive RecRes where
  | here (bs : List Byte) (s : State)
  | miss
  | conflict (s : State)

/-- The tenant record of a job's instruction: the slot that its fill has lent it, or a lookup, whose lease ends with the use (R217). A lent
slot that has become DEAD is a conflict (R227). While the tally version is 0 there is none to look up. -/
def recordUse (s : State) (j : Nat) : RecRes :=
  let t := jobTenant s j
  if s.watch.box.ver = 0 then .here (zeros 64) s
  else match tget none s.mint.lent j with
    | some k => if (getSlot s k).kind = .dead then .conflict (returnLent s j) else .here (slotKey s k) (returnLent s j)
    | none =>
      match matchSlots s .internal t (idxRecord t.toNat) none with
      | [] => .miss
      | [k] => .here (slotKey s k) (briefLease (upSerai s (fun x => { x with hits := x.hits + 1 })))
      | ms => .conflict (conflictSlots s ms)

/-- A KEY leases a resident slot and sets HIT; what its register held is released first (R61). -/
def keyTake (s : State) (j reg slot : Nat) : State :=
  let s := loadKey (takeLease (releaseKey s j reg) slot) j reg slot
  modJob s j (fun x => { x with flags := { x.flags with hit := true } })

/-- The slot that a short-bale KEY hits, when all its checks pass. -/
def keyHits (s : State) (j : Nat) (i : W64) : Option (Nat × State) :=
  if !(wopOf (wOpcode i) = some .key && wB i = 0 && wArg i = 0 && ownerHeld s) then none
  else
    let t := jobTenant s j
    match recordUse s j with
    | .here bs sr =>
      (match lookupKey sr t (wIndex i) (parseRecord bs).epoch with
       | (.hit k, s') => if laneWindowOk s 0 (getSlot s k).notAfter.toNat then some (k, s') else none
       | _ => none)
    | _ => none

/-- Preparation performs leading KEYs while they hit; on a yoke the result and then the progress of each is compared (R171). -/
def prepareKeys : Nat → State → Nat → Nat → Compare → State
  | 0, s, _, _, _ => s
  | fuel + 1, s, l, j, c =>
    let x := getJob s j
    if x.stop.isSome || progLen s x ≤ x.pos then s
    else
      let i := instrAt s x x.pos
      match keyHits s j i with
      | none => s
      | some (k, s) =>
        if itemDiffers s l c 3 then yokeMismatch s l j 3
        else
          let s := keyTake s j (keyNum (wA i)) k
          let s := modJob s j (fun x => { x with pos := x.pos + 1, preparedTo := x.pos + 1 })
          if progressDiffers s l c then yokeMismatch s l j 6 else prepareKeys fuel s l j c

/-! ### The pipeline's commands -/

/-- PREPARATION (R154): the oldest staged job that is not prepared; the stage holds one job. -/
def execPreparation (lane : Fin 16) (cmp : Compare) (s : State) : Host.Outcome State Fault Refusal :=
  let l := lane.val
  let n := getLane s l
  match n.staged.find? (fun j => n.setup ≠ some j) with
  | none => .next s
  | some j =>
    if n.prep.isSome || n.courier.isSome || (getJob s j).started || laneHeld s l || !jobMoves s l j then .next s
    else
      let s := prepareKeys 38 (startJob s l j) l j cmp
      .next (if (getJob s j).isOver then s else modLane s l (fun n => { n with prep := some j }))

/-- The instruction needs an IV (R91). -/
def needsIv (i : W64) : Bool :=
  match wopOf (wOpcode i) with
  | some .sealW => true
  | some .openW => true
  | some .cipher => algCipherIv (wAlg i)
  | some .mac => wAlg i = 0x1A
  | _ => false

/-- Its IV comes from S6. -/
def ivInSat (i : W64) : Bool :=
  match wopOf (wOpcode i) with
  | some .mac => wMacIsat i
  | _ => wIsat i

/-- The IV stream of the instruction is in the lane buffer whole. -/
def ivHere (x : Job) (i : W64) : Bool :=
  match desigOf (wB i) with
  | some (.seg _ k) =>
    let st := 32 + k
    (match bindRes (restOf x st (cursor x st)) (fun n => readIn x st (cursor x st) n) with
     | .ok _ => true
     | _ => false)
  | _ => false

/-- The conditions of R154 on the job's next instruction. -/
def setupOk (s : State) (j : Nat) : Bool :=
  let x := getJob s j
  let i := instrAt s x x.pos
  x.stop.isNone && decide (x.pos < progLen s x) && decide (0 < x.preparedTo) &&
  (match wopOf (wOpcode i) with
   | some .sealW => true
   | some .openW => true
   | some .cipher => true
   | some .mac => true
   | _ => false) &&
  (keyReg s j (keyNum (wC i))).isSome && (!needsIv i || (!ivInSat i && ivHere x i))

/-- SETUP (R154): the prepared job moves to the setup stage. -/
def execSetup (lane : Fin 16) (s : State) : Host.Outcome State Fault Refusal :=
  let l := lane.val
  let n := getLane s l
  match n.prep with
  | none => .next s
  | some j =>
    if n.setup.isNone && !laneHeld s l && jobMoves s l j && setupOk s j then
      .next (modJob (modLane s l (fun n => { n with prep := none, setup := some j })) j (fun x => { x with setUp := true }))
    else .next s

/-- The job that enters execution next (R135): a Courier job that Muster placed, or with nothing saved the oldest staged job. -/
def nextJobOf (n : LaneRec) : Option Nat :=
  match n.courier with
  | some j => some j
  | none => if n.saved = [] then n.staged.head? else none

/-- JOB_START (R80, R135): a Courier job that waits and would take the target comes before a staged one. -/
def execJobStart (lane : Fin 16) (s : State) : Host.Outcome State Fault Refusal :=
  let l := lane.val
  let n := getLane s l
  match nextJobOf n with
  | none => .next s
  | some j =>
    if n.run.isSome || laneHeld s l || laneOut s l || !jobMoves s l j || (n.courier = none && courierDue s l) then .next s
    else .next (enterLane s l j)

/-- JOB_END (R82 steps 1 to 3); on a yoke the STATUS and stamp are compared (Table 6.6), and Muster writes YOKE_MISMATCH in their
place (R172). -/
def execJobEnd (lane : Fin 16) (cmp : Compare) (s : State) : Host.Outcome State Fault Refusal :=
  let l := lane.val
  match (getLane s l).run with
  | none => .next s
  | some j =>
    if !(getJob s j).isOver || laneHeld s l then .next s
    else
      let s := if itemDiffers s l cmp 7 then yokeMismatch s l j 7 else s
      .next (modLane (finishJob s j (some l)) l (fun n => { n with preempt := false }))

/-! ### Running an instruction -/

/-- The running job of a lane with its instruction, when the lane may go on and the instruction is one of those `p` accepts. -/
def laneTask (s : State) (l : Nat) (p : W64 → Bool) : Option (Nat × W64) :=
  match (getLane s l).run with
  | none => none
  | some j =>
    let x := getJob s j
    let i := instrAt s x x.pos
    if x.isOver || (getLane s l).preempt || laneHeld s l || !jobMoves s l j || progLen s x ≤ x.pos || !p i then none
    else some (j, i)

/-- The instruction is of opcode `op`. -/
def isOp (op : WOp) (i : W64) : Bool := wopOf (wOpcode i) = some op

/-- The instruction has ended: the position advances and, on a yoke, progress is compared (R172). -/
def complete (s : State) (l j : Nat) (c : Compare) : State :=
  let s := modJob s j (fun x => { x with pos := x.pos + 1, wait := .nothing, kept := none, wrote := none, done := 0, source := [], stuck := 0 })
  if progressDiffers s l c then yokeMismatch s l j 6 else s

/-! ### Operands -/

/-- A job with a stream's cursor advanced; buffered bytes below it are released (R155). -/
def advJob (x : Job) (st n : Nat) : Job :=
  let c := cursor x st + n
  { x with
    cursors := tset 0 x.cursors st c
    buf := x.buf.filter (fun k => !(k.1 / 2 ^ 64 = st && k.1 % 2 ^ 64 + k.2.length ≤ c)) }

/-- Bytes of satchel `n` from byte `off`; past byte 255 is ENCODING (R60). -/
def satRead (x : Job) (n off len : Nat) : Res (List Byte) :=
  if 256 < off + len then .hard .encoding else .ok (tread 0 x.sat (256 * n + off) len)

/-- Write a satchel (R60). -/
def satWrite (x : Job) (n off : Nat) (bs : List Byte) : Res Job :=
  if 256 < off + bs.length then .hard .encoding else .ok { x with sat := tfill 0 x.sat (256 * n + off) bs }

/-- The data of the frame in satchel `n` (R90). -/
def frameRead (x : Job) (n : Nat) : Res (List Byte) :=
  let m := ofLe (tread 0 x.sat (256 * n) 2)
  if 254 < m then .hard .encoding else .ok (tread 0 x.sat (256 * n + 2) m)

/-- `len` bytes of a stream from its cursor: the job after them has the cursor past them and their addresses among its sources. -/
def takeStream (x : Job) (st len : Nat) : Res (List Byte × Job) :=
  bindRes (readIn x st (cursor x st) len) (fun bs =>
    .ok (bs, { advJob x st len with source := x.source ++ [streamRuns x st (cursor x st) len] }))

/-- The whole remainder of a segment stream. -/
def takeRest (x : Job) (st : Nat) : Res (List Byte × Job) :=
  bindRes (restOf x st (cursor x st)) (fun n => takeStream x st n)

/-- R89, R90: an input of length `len`, where 0 means the rest of a segment stream, or the data of a satchel's frame. -/
def takeIn (x : Job) (d : Desig) (len : Nat) : Res (List Byte × Job) :=
  match d with
  | .seg s i => if len = 0 then takeRest x (8 * s + i) else takeStream x (8 * s + i) len
  | .src => takeStream x srcRead len
  | .sat n => bindRes (frameRead x n) (fun bs => .ok (bs, x))
  | _ => .ok ([], x)

/-- How many bytes an input will give, before they are read. -/
def lenIn (x : Job) (d : Desig) (len : Nat) : Res Nat :=
  match d with
  | .seg s i => if len = 0 then restOf x (8 * s + i) (cursor x (8 * s + i)) else .ok len
  | .src => .ok len
  | .sat n => bindRes (frameRead x n) (fun bs => .ok bs.length)
  | _ => .ok 0

/-- R60, R74, R90, R92: an output to an operand, framed or raw: the job after it, with the memory write if it goes to a stream. -/
def putOut (x : Job) (d : Desig) (framed : Bool) (bs : List Byte) : Res (Job × List OutW) :=
  match d with
  | .sat n =>
    if framed then
      if 254 < bs.length then .hard .encoding
      else bindRes (satWrite x n 0 (leBytes 2 bs.length ++ bs)) (fun y => .ok (y, []))
    else bindRes (satWrite x n 0 bs) (fun y => .ok (y, []))
  | .seg s i =>
    let st := 8 * s + i
    bindRes (reaches x st (cursor x st) bs.length) (fun _ => .ok (advJob x st bs.length, [(st, cursor x st, bs)]))
  | .src => .ok (advJob x srcWrite bs.length, [(srcWrite, cursor x srcWrite, bs)])
  | _ => .ok (x, [])

/-- The designator of an operand byte. -/
def opd (b : Nat) : Desig := (desigOf b).getD .none

/-! ### Checks at issue (R60, R78) -/

/-- R78: a source designator needs MANIFEST = 0 and a segment designator MANIFEST = 1. -/
def streamsOk (x : Job) (i : W64) : Bool :=
  let ok := fun (b : Nat) => match desigOf b with
    | some .src => !e0Manifest x.word0
    | some (.seg _ _) => e0Manifest x.word0
    | _ => true
  ok (wA i) && ok (wB i) && ok (wC i)

/-- The frame in satchel `n` is no longer than R90 allows. -/
def frameOk (x : Job) (n : Nat) : Bool := decide (ofLe (tread 0 x.sat (256 * n) 2) ≤ 254)

/-- The frame of an input operand, if it is a satchel. -/
def operandFrame (x : Job) (b : Nat) : Bool :=
  match opd b with
  | .sat n => frameOk x n
  | _ => true

/-- A raw output of `n` bytes fits operand A, if that is a satchel. -/
def rawFits (i : W64) (n : Option Nat) : Bool := !aIsSat i || n.all (fun n => decide (n ≤ 256))

/-- An output as long as the input B, once its length is known, fits the frame of a satchel A. -/
def framedFits (x : Job) (i : W64) : Bool :=
  match lenIn x (opd (wB i)) (wLen i) with
  | .ok n => !aIsSat i || decide (n ≤ 254)
  | _ => true

/-- The fixed part of a satchel input B, and where `framed` the frame that follows it, lie within the satchel. -/
def fixedFits (x : Job) (i : W64) (fixed : Nat) (framed : Bool) : Bool :=
  match opd (wB i) with
  | .sat n =>
    let m := ofLe (tread 0 x.sat (256 * n + fixed) 2)
    fixed ≤ 256 && (!framed || (decide (m ≤ 254) && decide (fixed + 2 + m ≤ 256)))
  | _ => true

/-- No satchel access of the instruction runs past byte 255, and no frame is too long, as far as lengths are known when it is issued
(R60, R89, R90): what fails here is ENCODING before any input is awaited. -/
def satsOk (x : Job) (i : W64) : Bool :=
  let first := decide (wPart i < 2)
  match wopOf (wOpcode i) with
  | some .sealW =>
    operandFrame x (wB i) && (!(first && wIsat i) || frameOk x 6) && (!(first && wAsat i) || frameOk x 7) && framedFits x i
  | some .openW =>
    operandFrame x (wB i) && (!(first && wIsat i) || frameOk x 6) && (!(first && wAsat i) || frameOk x 7) && framedFits x i
  | some .cipher => operandFrame x (wB i) && (!(first && wIsat i && algCipherIv (wAlg i)) || frameOk x 6) && framedFits x i
  | some .mac => operandFrame x (wB i) && (!(first && wMacIsat i) || frameOk x 6)
  | some .hash => operandFrame x (wB i) && !(aIsSat i && (wAlg i = 0x30 || wAlg i = 0x31))
  | some .derive => operandFrame x (wC i)
  | some .cmp =>
    (match opd (wB i), lenIn x (opd (wA i)) (wLen i) with
     | .sat _, .ok n => aIsSat i || decide (n ≤ 256)
     | _, _ => true)
  | some .loads => wFn i + len8 (wParam i) ≤ 256
  | some .stores => wFn i + len8 (wParam i) ≤ 256
  | some .xform => wParam i + len8 (wField2 i) ≤ 256
  | some .pkop =>
    rawFits i (pkOutLen (wFn i) (wParam i) (wLen i)) &&
    fixedFits x i (pkFixed (wFn i) (wParam i) (wLen i)).sum (pkVar (wFn i) (wParam i) (wLen i)).isSome
  | some .latop => rawFits i (latOutLen i) && fixedFits x i (latFixed (wFn i) (wParam i)).sum (latMsg (wFn i))
  | _ => true

/-- The checks of R78 when an instruction is issued that depend on no key and no input data. -/
def issueOk (x : Job) (i : W64) : Bool := streamsOk x i && satsOk x i

/-! ### Completion with outputs -/

/-- The beats of outputs that end within their first `m` bytes are issued, but for `gone` bytes of the first that have gone already. -/
def issueUpTo (s : State) (j : Nat) (y : Job) (m gone : Nat) (outs : List OutW) : State :=
  match outs with
  | [] => s
  | o :: os =>
    let n := o.2.2.length
    if n ≤ m then issueUpTo (issueOut s j y gone n o) j y (m - n) 0 os
    else
      let e := wholeBeats (cover y o.1 o.2.1 n) m
      if e ≤ gone then s else issueOut s j y gone e o

/-- The copies of a beat differ (Table 6.6, row 1): those before it have gone. Which of the first `top` bytes of the outputs it holds is a
free value. -/
def beatMismatch (s : State) (l j : Nat) (y : Job) (top : Nat) (outs : List OutW) : State :=
  let r := drawNoise s 4
  yokeMismatch (issueUpTo r.2 j y (ofLe r.1 % top) y.done outs) l j 1

/-- The bytes of the outputs. -/
def outBytes (outs : List OutW) : Nat := (outs.map (fun o => o.2.2.length)).sum

/-- The memory writes of an instruction are issued, and the job takes its new state, unless a yoke's copies of a beat differ. -/
def commit (s : State) (l j : Nat) (c : Compare) (y : Job) (outs : List OutW) : State :=
  if itemDiffers s l c 1 && outsLeft y outs then beatMismatch s l j y (outBytes outs) outs
  else
    let s := modJob s j (fun _ => y)
    complete (issueOuts s j y outs) l j c

/-- The input bytes that UW_BYTES counts (R176). -/
def countBytes (s : State) (l n : Nat) : State := modUnit s (laneUnit l) (fun u => { u with bytes := u.bytes + w64 n })

/-- An instruction whose whole effect is a new job state and its outputs: a lost host link ends it when an output is to be issued
(R367). -/
def runPure (s : State) (l j : Nat) (c : Compare) (r : Res (Job × List OutW)) : State :=
  goOn s j r (fun yo => if jobLost s j && outsLeft yo.1 yo.2 then endHard s j .hostLost else commit s l j c yo.1 yo.2)

/-! ### Output as it is produced (R155) -/

/-- The beats of the first output that end within its first `m` bytes are issued, but for those that have gone already. -/
def issueBeats (s : State) (l j : Nat) (c : Compare) (m : Nat) (y : Job) (o : OutW) : State :=
  let e := wholeBeats (cover y o.1 o.2.1 o.2.2.length) m
  if e ≤ y.done then s
  else if jobLost s j then endHard s j .hostLost
  else if itemDiffers s l c 1 then beatMismatch s l j y e [o]
  else issueOut (modJob s j (fun x => { x with done := e })) j y y.done e o

/-- Go on with the result of an instruction that issues its output as it is produced. While input is missing, the first `m` bytes of the
output to A stand, if A is a stream. -/
def goFlow {α : Type} (s : State) (l j : Nat) (c : Compare) (i : W64) (m : Nat) (out : α → Job × List OutW) (r : Res α)
    (k : α → State) : State :=
  let s := match r with
    | .need _ a =>
      (match outStreamOf (opd (wA i)), (out a).2 with
       | some _, o :: _ => issueBeats s l j c m (out a).1 o
       | _, _ => s)
    | _ => s
  if (getJob s j).isOver then s else goOn s j r k

end Sys2Proof.Machine
end

