-- ==== Sys2Proof/Machine/PowerOps.lean ====
section
/-! DEFINITION. Ration's power switches: waking and draining a domain, the known-answer tests of its units, and the end of an RA_CMD
(R439 to R442), as Ration, the Counting House and the Mint use them. -/

namespace Sys2Proof.Machine

/-- The lanes of a train. -/
def trainLanes (t : Nat) : List Nat := (List.range 8).map (fun k => 8 * t + k)

/-- A GATE record: event 1 drain start, 2 drain cancelled, 3 gated, 4 ungated (Table 18.6). -/
def gateRecord (s : State) (d event : Nat) : State := emit s 18 0x903 0 [w32 (d + 4 * event)]

/-- A Ration source, which also requests vector 34 when its RA_IRQ bit is set (R446). -/
def rationRaise (s : State) (src : Nat) (en : Bool) : State := whenS en (fun s => irqBlock s 34) (raise s src)

/-- The RA_CMD in progress on domain `d` (`true` for UNGATE) ends. -/
def raCmdEnd (s : State) (ungate : Bool) (d : Nat) (st : Status) : State :=
  if s.ration.cmd = some (ungate, d) then upRation s (fun r => { r with cmd := none, cmdResult := st.code }) else s

/-- R442: a drain is cancelled; the units take work again. -/
def cancelDrain (s : State) (d : Nat) : State :=
  raCmdEnd (gateRecord (modDom s d (fun x => { x with phase := .powered })) d 2) false d .accessFault

/-- R439 step 1, R442: a gated domain's request rises; a drain is cancelled; a domain that is being gated wakes once it is. -/
def wakeDom (s : State) (d : Nat) : State :=
  match (getDom s d).phase with
  | .gated => if (getDom s d).fault then s else modDom s d (fun x => { x with phase := .waking, req := true })
  | .draining => cancelDrain s d
  | .gating => modDom s d (fun x => { x with wakeAfter := true })
  | _ => s

/-- R441: a queued request wakes the bench row, in Service and with its AUTO bit set. -/
def wakeRow (s : State) : State :=
  if inMode s .service && tb s.ration.auto 2 && (getDom s 2).phase ≠ .powered then wakeDom s 2 else s

/-- Every known-answer test of the domain is over. -/
def testsOver (s : State) (d : Nat) : Bool :=
  if d = 2 then (List.range 8).all (fun b => !(getBench s b).kat) else (trainLanes d).all (fun l => !(getLane s l).kat)

/-- R439: after the last test the domain is ungated: GATE record and source. -/
def testsEnd (s : State) (d : Nat) : State :=
  if (getDom s d).phase = .testing && testsOver s d then
    let s := modDom s d (fun x => { x with phase := .powered })
    raCmdEnd (rationRaise (gateRecord s d 4) (237 + 2 * d) s.ration.irqGate) true d .done
  else s

/-- R441, R442: a drain starts: DRAINING, and a train's staged jobs return to their queues. -/
def startDrain (s : State) (d : Nat) : State :=
  let s := modDom s d (fun x => { x with phase := .draining, wakeAfter := false })
  let s := if d = 2 then s else returnLanes s (trainLanes d)
  gateRecord s d 1

/-- A bench holds nothing that keeps the row from gating: DIRECT, a live lease, a holding. -/
def benchKeeps (s : State) (b : Nat) : Bool := isDirect s b || pinned s b || (getBench s b).holder.isSome

/-- R414, R252: what must never be gated: T0 while the certificate store is held, the bench row while a bench is DIRECT, pinned or
held. -/
def domKept (s : State) (d : Nat) : Bool :=
  if d = 2 then (List.range 8).any (benchKeeps s) else decide (d = 0) && s.safe.held

/-- R442: the domain holds nothing any more. -/
def domEmpty (s : State) (d : Nat) : Bool :=
  if d = 2 then (List.range 8).all (fun b => !benchBusy s b)
  else (trainLanes d).all (fun l => residents s l = [])

/-- R440: every unit of the domain becomes FAULTED with QUARANTINE set. -/
def faultUnits (s : State) (d : Nat) : State :=
  if d = 2 then
    forAll (List.range 8) (fun s b => modUnit (modBench s b (fun x => { x with faulted := true, kat := false })) (benchUnit b)
      (fun u => { u with quarantine := true })) s
  else
    forAll (trainLanes d) (fun s l => modUnit (modLane s l (fun x => { x with faulted := true, kat := false })) (laneUnit l)
      (fun u => { u with quarantine := true })) s

/-- A KAT_FAIL record (Table 14.6). -/
def katRecord (s : State) (producer unit : Nat) : State := emit s producer 0x204 0 [w32 unit]

end Sys2Proof.Machine
end

