-- ==== Sys2Proof/Machine/UnitId.lean ====
section
/-! DEFINITION. The identity of the 32 units: path codes, types and children (R11, R12, Tables 1.1, 1.3 and 1.4). -/

namespace Sys2Proof.Machine

/-- The position of a unit within its parent. -/
def unitPos (u : Nat) : Nat :=
  if u = 0 then 0
  else if u ≤ 2 then u - 1
  else if u ≤ 6 then (u - 3) % 2
  else if u ≤ 22 then (u - 7) % 4
  else if u = 23 then 2
  else u - 24

/-- The depth of a unit. -/
def unitDepth (u : Nat) : Nat :=
  if u = 0 then 0
  else if u ≤ 2 ∨ u = 23 then 1
  else if u ≤ 6 ∨ 24 ≤ u then 2
  else 3

/-- PATH (R12). -/
def pathCode (u : Nat) : Nat :=
  let p := unitParent u
  let q := unitParent p
  match unitDepth u with
  | 0 => 0
  | 1 => 0x1000 * (unitPos u + 1)
  | 2 => 0x1000 * (unitPos p + 1) + 0x100 * (unitPos u + 1)
  | _ => 0x1000 * (unitPos q + 1) + 0x100 * (unitPos p + 1) + 0x10 * (unitPos u + 1)

/-- TYPE. -/
def unitType (u : Nat) : Nat :=
  if u = 0 then 1 else if u ≤ 2 then 2 else if u ≤ 6 then 3 else if u ≤ 22 then 4 else if u = 23 then 5 else 6

/-- The children of a unit, in position order. -/
def unitChildren (u : Nat) : List Nat := (List.range 32).filter (fun v => v ≠ 0 && unitParent v = u)

/-- UW_ID. -/
def unitIdWord (u : Nat) : W32 :=
  w32 (65536 * pathCode u + 4096 * unitDepth u + 256 * (unitChildren u).length + unitType u)

/-- UW_UNIT. -/
def unitNumWord (u : Nat) : W32 :=
  w32 (65536 * unitPos u + 256 * (if u = 0 then 0xFF else unitParent u) + u)

/-- UW_CHILDREN0 to 3. -/
def unitChildWord (u k : Nat) : W32 :=
  w32 ((List.range 4).map (fun j => ((unitChildren u).getD (4 * k + j) 0xFF) * 256 ^ j)).sum

end Sys2Proof.Machine
end

