-- ==== Sys2Proof/Machine/Startup.lean ====
section
/-! DEFINITION. Start-up (R383): reset, PLL lock, sensing of the fuses, and the end of Self-check, with the derivations of Table 7.1
and the certificates of R412 to R414. -/

namespace Sys2Proof.Machine

/-! ### Holding Self-check (R383) -/

/-- A cause holds the block in Self-check: bit 0 FUSE, 1 WELL, 2 ENGINE, 3 SAFECONDUCT. -/
def holdSelfCheck (s : State) (b : Nat) : State :=
  if tb s.mode.scFault b then s
  else
    let s := upMode s (fun m => { m with scFault := m.scFault ||| BitVec.ofNat 4 (2 ^ b) })
    raise (emit s 15 0x708 0 [w32 s.mode.scFault.toNat, s.mode.scTime]) 201

/-! ### Derivations (Table 7.1) -/

/-- The order of P-384, and of P-256. -/
def order384 : Nat := 0xFFFFFFFFFFFFFFFFFFFFFFFFFFFFFFFFFFFFFFFFFFFFFFFFC7634D81F4372DDF581A0DB248B0A77AECEC196ACCC52973
/-- See `order384`. -/
def order256 : Nat := 0xFFFFFFFF00000000FFFFFFFFFFFFFFFFBCE6FAADA7179E84F3B9CAC2FC632551

/-- R99: the scalar (c mod (n − 1)) + 1, as big-endian bytes. -/
def reduceScalar (n len : Nat) (c : List Byte) : List Byte := beBytes len (ofBe c % (n - 1) + 1)

/-- The seeds of the units, in unit order: each from its parent's. -/
def unitSeedTable (dk : List Byte) : List (List Byte) :=
  (List.range 32).foldl (fun acc u =>
    let ctx := leBytes 2 (pathCode u) ++ leBytes 1 (unitType u)
    let key := if u = 0 then dk else acc.getD (unitParent u) []
    acc ++ [kdf108 key "SPN-UNIT" ctx 64]) []

/-- The P-384 scalar and the ML-DSA-65 seed of a unit. -/
def unitScalar (seed : List Byte) : List Byte := reduceScalar order384 48 (kdf108 seed "SPN-UNIT-EC" [] 56)
/-- See `unitScalar`. -/
def unitPqSeed (seed : List Byte) : List Byte := kdf108 seed "SPN-UNIT-PQ" [] 32

/-- The public keys of a unit: P-384 point and ML-DSA-65 key. -/
def unitPublic (seed : List Byte) : List Byte × List Byte :=
  (stdBytes .ecPub [unitScalar seed] 96, stdBytes .mlDsaPub [unitPqSeed seed] 1952)

/-- The unit's key hash (R411). -/
def unitKeyHash (seed : List Byte) : List Byte := stdBytes (.hash 0x22) [[], (unitPublic seed).1 ++ (unitPublic seed).2] 48

/-- The device identifier DID (R404). -/
def deviceId (s : State) : List Byte :=
  (stdBytes (.hash 0x22) [[], labelBytes "SPN-DEVICE-ID" ++ leBytes 32 s.fuse.is.toNat] 48).take 16

/-- OK and TK, from DK and the owner secret (R178): none without DK (Table 17.3). -/
def ownerKeys (s : State) : State :=
  if ownerHeld s && s.mint.root then
    let ok := stdBytes (.hkdf "EXTRACT-384") [leBytes 48 s.mint.dk.toNat, leBytes 32 s.watch.box.os.toNat] 48
    upMint s (fun m => { m with okey := BitVec.ofNat 384 (ofLe ok), tk := BitVec.ofNat 256 (ofLe (kdf108 ok "SPN-TALLY" [] 32)) })
  else upMint s (fun m => { m with okey := 0, tk := 0 })

/-! ### Certificates (R412, R413) -/

/-- SHA-384 of a byte string. -/
def sha384 (bs : List Byte) : List Byte := stdBytes (.hash 0x22) [[], bs] 48

/-- The unit that signs unit `u`'s certificates and reports: its parent, and unit 0 for itself (R412, R415). -/
def signerOf (u : Nat) : Nat := if u = 0 then 0 else unitParent u

/-- A unit's public key of algorithm `a`, 0 for EC and 1 for PQ. -/
def unitKeyOf (s : State) (u a : Nat) : List Byte :=
  let p := unitPublic (leBytes 64 (tget 0 s.mint.unitSeeds u).toNat)
  if a = 0 then p.1 else p.2

/-- `n` as digits of base `b`, the most significant first, `k` of them: upper case. -/
def digitBytes (b n : Nat) : Nat → List Byte
  | 0 => []
  | k + 1 => let d := n / b ^ k % b; BitVec.ofNat 8 (if d < 10 then 48 + d else 55 + d) :: digitBytes b n k

/-- The subject of unit `u` (Table 17.5): O, and CN with the hex digits of DID, byte 0 first, and the digits of `u`. -/
def certSubject (s : State) (u : Nat) : List (List Byte) :=
  [labelBytes "Haldevo", labelBytes "Speone-" ++ digitBytes 16 (ofBe (deviceId s)) 32 ++ labelBytes "-U" ++ digitBytes 10 u 2]

/-- The serial number (Table 17.5). -/
def certSerial (s : State) (u a : Nat) : List Byte :=
  match (sha384 (labelBytes "SPN-SERIAL" ++ leBytes 32 s.fuse.is.toNat ++ leBytes 1 u ++ leBytes 1 a)).take 16 with
  | [] => []
  | b :: bs => (b &&& 0x7F) :: bs

/-- The subjectPublicKey bit string of unit `u`'s key: an uncompressed point for EC. -/
def certKey (s : State) (u a : Nat) : List Byte := if a = 0 then 4 :: unitKeyOf s u 0 else unitKeyOf s u 1

/-- A subjectKeyIdentifier. -/
def keyIdOf (s : State) (u a : Nat) : List Byte := (sha384 (certKey s u a)).take 20

/-- The signature algorithm, and the key's algorithm (Table 17.5). -/
def sigAlgOf (a : Nat) : List Byte := labelBytes (if a = 0 then "1.2.840.10045.4.3.3" else "2.16.840.1.101.3.4.3.18")
/-- See `sigAlgOf`. -/
def keyAlgOf (a : Nat) : List Byte := labelBytes (if a = 0 then "id-ecPublicKey secp384r1" else "2.16.840.1.101.3.4.3.18")

/-- The fields of unit `u`'s certificate of algorithm `a`, in the order of Table 17.5: version, serialNumber, signature, issuer, validity,
subject, subjectPublicKeyInfo, basicConstraints, keyUsage (bit 0 digitalSignature, bit 1 keyCertSign), subjectKeyIdentifier and
authorityKeyIdentifier. -/
def certFields (s : State) (u a : Nat) : List (List Byte) :=
  let group := decide (unitType u ≠ 4 ∧ unitType u ≠ 6)
  [[2], certSerial s u a, sigAlgOf a] ++ certSubject s (signerOf u) ++
  [labelBytes "700101000000Z", labelBytes "99991231235959Z"] ++ certSubject s u ++
  [keyAlgOf a, certKey s u a, [BitVec.ofNat 8 (bit group)], [BitVec.ofNat 8 (1 + 2 * bit group)], keyIdOf s u a, keyIdOf s (signerOf u) a]

/-- The bytes of a certificate that are signed: its fields, in the DER of X.509 (R412). -/
def certTbs (s : State) (u a : Nat) : List Byte :=
  stdBytes .certTbs (certFields s u a) (Config.stdNat .certTbs (certFields s u a) % 6656)

/-- The slot of unit `u`'s signing key of algorithm `a` (R209). -/
def unitKeySlot (u a : Nat) : Nat := 32704 + 2 * u + a

/-- An ECDSA P-384 signature with key `k` over a digest, and an ML-DSA-65 signature over a message with a context string: the operations of
FN 0x11 of PKOP and LATOP (Tables 4.7, 4.8) with drawn bytes `rnd`. -/
def ecSig (k digest rnd : List Byte) : List Byte := stdBytes (.pkop 0x11 48) [k, digest, rnd] 96
/-- See `ecSig`. -/
def pqSig (k msg context rnd : List Byte) : List Byte := stdBytes (.latop 0x11 2) [k, msg, context, rnd] 3309

/-- The attempts that such an ML-DSA-65 signature needs (R263, R265): at least one; one that needs more than 256 is not made. -/
def pqNeeds (k msg context rnd : List Byte) : Nat := Nat.max 1 (Config.stdNat (.latop 0x11 2) [k, msg, context, rnd])

/-- The bytes of unit `u`'s certificate of algorithm `a` with its signature. -/
def certBytes (s : State) (u a : Nat) (sig : List Byte) (room : Nat) : List Byte :=
  let args := [certTbs s u a, sigAlgOf a, sig]
  stdBytes .certificate args (Config.stdNat .certificate args % (room + 1))

/-- Unit `u`'s certificates enter the store, its key hash and its window (R411, R413); `sigs` are the signatures by 2·unit + algorithm. -/
def certUnit (sigs : Table (List Byte)) (s : State) (u : Nat) : State :=
  let ec := certBytes s u 0 (tget [] sigs (2 * u)) 6656
  let pq := certBytes s u 1 (tget [] sigs (2 * u + 1)) (6656 - ec.length)
  let s := upSafe s (fun f => { f with store := tfill 0 f.store (0x2000 * u) (ec ++ pq) })
  modUnit s u (fun x => { x with
    keyHash := BitVec.ofNat 384 (ofLe (unitKeyHash (leBytes 64 (tget 0 s.mint.unitSeeds u).toNat))), certPtr := w32 (0x2000 * u)
    certLen := w32 (ec.length + pq.length) })

/-- The install block of unit 0's slot (R413). -/
def installBlock (s : State) : List Byte :=
  stdBytes .mlKemPub [leBytes 64 s.mint.installKem.toNat] 1184 ++ stdBytes .ecPub [leBytes 48 s.mint.installEc.toNat] 96

/-- The certificate store is made from its signatures, and is then held (R414). -/
def buildStore (sigs : Table (List Byte)) (s : State) : State :=
  let s := forAll (List.range 32) (certUnit sigs) (upSafe s (fun f => { f with store := [] }))
  upSafe s (fun f => { f with store := tfill 0 f.store 0x1A00 (installBlock s), held := true })

/-- One unit's two signatures of Self-check (R414), on bench `b` and context `c`: one that needs more than 256 attempts ends with PK_ABORTED
and is not there (R263). -/
def selfSign (b c : Nat) (s : State) (u : Nat) : State :=
  let ec := slotKey s (unitKeySlot (signerOf u) 0)
  let pq := slotKey s (unitKeySlot (signerOf u) 1)
  let k := ec.take 48
  let q := pq.take 32
  let (r1, s) := wellTake s 64
  let (r2, s) := wellTake s 32
  let tbs := certTbs s u 1
  let made := decide (pqNeeds q tbs [] r2 ≤ 256)
  let att := Nat.min 256 (pqNeeds q tbs [] r2)
  let s := benchEnded (modBench s b (fun x => { x with owner := .internal, lastTime := w32 (ecTime 0 1) })) b false .done
  let s := modUnit s (benchUnit b) (fun x => { x with bytes := x.bytes + 96 })
  let s := modCtx s c (fun x => { x with
    lastTime := w32 (latTime 0x11 2 false false att (2 + tbs.length)), lastAtt := BitVec.ofNat 9 att })
  let s := ctxEnded (upScales s (fun x => { x with attempts := x.attempts + w64 att, wipes := x.wipes + 1 })) c
    (if made then .done else .pkAborted)
  upSafe s (fun f => { f with
    sigs := tset [] (tset [] f.sigs (2 * u) (ecSig k (sha384 (certTbs s u 0)) r1)) (2 * u + 1) (if made then pqSig q tbs [] r2 else []) })

/-- The signatures of Self-check (R414): R414 does not say which benches and contexts make them; here the lowest that can take an internal
request makes all of them (DESIGN CHOICE, log entry 65). -/
def selfSigns (s : State) : State :=
  let b := ((List.range 8).find? (fun b => !(getBench s b).faulted)).getD 0
  let c := ((List.range 4).find? (fun c => !(getCtx s c).faulted)).getD 0
  forAll (List.range 32) (selfSign b c) s

/-- Every signature of Self-check is there. -/
def selfSigned (s : State) : Bool := (List.range 64).all (fun k => !(tget [] s.safe.sigs k).isEmpty)

/-- The certificates of Self-check (R414). -/
def selfStore (s : State) : State := upSafe (buildStore s.safe.sigs s) (fun f => { f with sigs := [] })

/-- A unit's key enters its slot, unless that is DEAD (Table 8.2). -/
def fillUnitSlot (s : State) (slot : Nat) (r : SlotRec) (key : List Byte) : State :=
  if (getSlot s slot).kind = .dead then s else fillSlot s slot r key

/-- The unit slots of the Serai: each unit's P-384 scalar and ML-DSA-65 seed (R209). -/
def unitSlots (seeds : List (List Byte)) (s : State) : State :=
  forAll (List.range 32) (fun s u =>
    let seed := seeds.getD u []
    let meta_ := fun (t len : Nat) =>
      { index := BitVec.ofNat 24 u, kind := .unit, usage := 0x20, ktype := BitVec.ofNat 6 t, notAfter := 0xFFFFFFFFFF#40, klen := len : SlotRec }
    let s := fillUnitSlot s (unitKeySlot u 0) (meta_ 0x11 48) (unitScalar seed)
    fillUnitSlot s (unitKeySlot u 1) (meta_ 0x1A 32) (unitPqSeed seed)) s

/-- Unit seeds, install keys and the unit slots of the Serai (Table 7.1, R209). -/
def unitKeys (s : State) : State :=
  let dk := leBytes 48 s.mint.dk.toNat
  let seeds := unitSeedTable dk
  let s := upMint s (fun m => { m with
    unitSeeds := tfill 0 [] 0 (seeds.map (fun b => BitVec.ofNat 512 (ofLe b)))
    installKem := BitVec.ofNat 512 (ofLe (kdf108 dk "SPN-INSTALL-PQ" [] 64))
    installEc := BitVec.ofNat 384 (ofLe (reduceScalar order384 48 (kdf108 dk "SPN-INSTALL-EC" [] 56))) })
  unitSlots seeds s

/-! ### Strongbox (R418) -/

/-- The invalid fields: bit 0 OS, 1 version, 2 SEQ, 3 FLAGS. -/
def boxFaults (b : Strongbox) : Nat :=
  bit (b.osN ≠ ~~~b.os) + 2 * bit (b.verN ≠ ~~~b.ver) + 4 * bit (b.seqN ≠ ~~~b.seq) + 8 * bit (b.flagsN ≠ ~~~b.flags)

/-- The Strongbox with valid fields throughout. -/
def boxOf (os : BitVec 256) (ver seq : W64) (flags : Byte) : Strongbox :=
  { os := os, osN := ~~~os, ver := ver, verN := ~~~ver, seq := seq, seqN := ~~~seq, flags := flags, flagsN := ~~~flags }

/-- R418: read and check the Strongbox; an invalid field makes it empty, and it is rewritten with valid fields. -/
def boxCheck (s : State) : State :=
  let b := s.watch.box
  let f := boxFaults b
  if f = 0 then s
  else
    let empty := f % 4 ≠ 0 || 8 ≤ f
    let b' := boxOf (if empty then 0 else b.os) (if empty then 0 else b.ver) (if tb (w32 f) 2 then 0x8000000000000000#64 else b.seq)
      (if empty then 0 else b.flags)
    emit (upWatch s (fun w => { w with box := b' })) 17 0x805 0 [1, w32 f]

/-! ### Commands -/

/-- BLOCK_RESET (R383): spn_rst_n falls and is released; the PLL has still to lock. -/
def execBlockReset (s : State) : Host.Outcome State Fault Refusal :=
  let s := resetAll s
  .next { s with pins := { s.pins with pwrAck := 0 }, mode := { s.mode with pllLocked := false } }

/-- The block enters Cold and proposes IDLE, as it does outside Service (R365); with spn_zeroize high it enters Cleared
in the first control cycle of Cold (R422). -/
def enterCold (s : State) : State :=
  let s := proposeLtr (upMode s (fun m => { m with mode := .cold })) s.ai.ltrIdle
  if s.pins.zeroize then tgClear (modeSet s .cleared 8 none) 5 else s

/-- PLL_LOCK (R21): the PLL locks and the block enters Cold. -/
def execPllLock (s : State) : Host.Outcome State Fault Refusal :=
  if inMode s .inReset && !s.mode.pllLocked then .next (enterCold (upMode s (fun m => { m with pllLocked := true })))
  else .next s

/-- PLL_LOCK_LOST (R21): the loss is logged, and the block is held in reset. -/
def execPllLockLost (s : State) : Host.Outcome State Fault Refusal :=
  if s.mode.pllLocked then .next (upMode (resetAll (aonLog s 6)) (fun m => { m with pllLocked := false }))
  else .next s

/-- One secret of the two-of-three rule: its record (R405). -/
def senseSecret (s : State) (which : Nat) (t : List (Option (List Byte)) × Option (List Byte) × Nat) : State :=
  if t.2.1.isSome && t.2.2 ≠ 7 then
    emit s 16 0x801 Status.fuseDisagree.code
      [w32 (which + 2 * intactBits t.1 + 16 * t.2.2)]
  else s

/-- FUSE_SENSE (R382, R405, R406): the fuses are sensed, Self-check begins, DK is derived, and power is requested for T0, T1 and
the bench row. -/
def execFuseSense (s : State) : Host.Outcome State Fault Refusal :=
  if !inMode s .cold then .next s
  else
    let rs := twoOfThree s rsWords
    let is := twoOfThree s isWords
    let life := lifeOf s
    let fault := !fuseRaw s && (rs.2.1.isNone || is.2.1.isNone)
    let s := upWell (modeTo s .selfCheck 1 none) (fun w => { w with sources := [] })
    let s := upFuse s (fun f => { sensedFlags s f with
      sensed := senseWords s, life := BitVec.ofNat 3 life
      rs := BitVec.ofNat 256 (ofLe (rs.2.1.getD [])), is := BitVec.ofNat 256 (ofLe (is.2.1.getD [])) })
    let s := if fuseRaw s then s else senseSecret (senseSecret s 0 rs) 1 is
    let s := whenS (fault && life ≠ 4) (fun s => holdSelfCheck s 0) s
    let s := whenS (!fault && life ≠ 0 && life ≠ 4) (fun s =>
      upMint s (fun m => { m with root := true, dk := BitVec.ofNat 384 (ofLe (kdf108 (rs.2.1.getD []) "SPN-DEVICE" [] 48)) })) s
    let s := forAll [0, 1, 2] (fun s d => modDom s d (fun x => { x with phase := .waking, req := true })) s
    let s := forAll [0, 1, 2, 3] (fun s c => modCtx s c (fun x => { x with kat := true })) s
    .next s

/-- Every known-answer test of Self-check is over: domains powered or switched off by a fault, contexts tested (R383). -/
def katsOver (s : State) : Bool :=
  [0, 1, 2].all (fun d => (getDom s d).phase = .powered || (getDom s d).phase = .gated) &&
  (List.range 4).all (fun c => !(getCtx s c).kat)

/-- At least one bench and one Scales context passed (R383). -/
def enginesOk (s : State) : Bool :=
  (List.range 8).any (fun b => !(getBench s b).faulted) && (List.range 4).any (fun c => !(getCtx s c).faulted)

/-- The steps of Self-check that do not wait for the Well (Table 16.3): the Strongbox is read and checked, OK and TK are derived, and the
block is held if no bench or no context passed. -/
def selfSteps (s : State) : State := whenS (!enginesOk s) (fun s => holdSelfCheck s 2) (ownerKeys (boxCheck s))

/-- The Serai's set-index key and masks are drawn (R211, R222): the grants of Self-check that these draws take, where nothing else draws
(R282; DESIGN CHOICE, log entry 67). -/
def seraiDraws (s : State) : State :=
  let (k, s) := wellTake s 16
  let (ms, s) := wellTake s 32768
  upSerai s (fun x => { x with
    hkey := BitVec.ofNat 128 (ofLe k), hkeyDrawn := true
    masks := tfill 0 [] 0 ((List.range 512).map (fun g => BitVec.ofNat 512 (ofLe (slice ms (64 * g) 64))))
    ages := tfill 0 [] 0 (List.replicate 512 s.cycle) })

/-- SELF_CHECK_DONE (R383): every step is over. The Strongbox is checked, OK and TK are derived, the Serai's set-index key and masks are
drawn, unit keys and certificates are made, and the block enters Provision; a cause that is not tolerated holds it in Self-check, which it
then leaves only by RESET, or, held for the Well alone, after a RETEST that succeeds. -/
def execSelfCheckDone (us : W32) (certsOk : Bool) (s : State) : Host.Outcome State Fault Refusal :=
  let keyed := decide (s.fuse.life ≠ 0) && decide (s.fuse.life ≠ 4)
  if !inMode s .selfCheck || !katsOver s || s.well.state = .notInst then .next s
  else
    let s := selfSteps s
    if s.mode.scFault ≠ 0 || !wellCan s || !wellGives s 36000 then .next s
    else if keyed && !certsOk then .next (holdSelfCheck s 3)
    else
      let s := whenS keyed (fun s => selfSigns (unitKeys s)) (seraiDraws s)
      if keyed && !selfSigned s then .next (holdSelfCheck (upSafe s (fun f => { f with sigs := [] })) 3)
      else
        let s := whenS keyed (fun s => emit (selfStore s) 16 0x807 0 [0, 0]) s
        let s := upMode s (fun m => { m with scTime := us })
        let s := emit s 15 0x708 0 [0, us]
        .next (modeTo s .provision 1 none)

/-- AON_RESET (R425): the always-on domain is reset; with the core rail present this is a zeroize event, and the Fords to the
always-on domain flush (R374). -/
def execAonReset (s : State) : Host.Outcome State Fault Refusal :=
  let old := s.watch
  let blank : WatchRec := {
    irqEn := old.irqEn, events := old.events, cmdResult := old.cmdResult, cleared := old.cleared, tamper := old.tamper
    shown := old.shown, changed := old.changed, zeroAt := old.zeroAt }
  let s := aonLog { s with watch := blank } 7
  let s := emit s 17 0x805 0 [3, 0]
  if inMode s .inReset then .next s
  else
    let s := zeroizeAll (flushFord (flushFord s 9 2) 10 2) []
    .next { s with watch := { s.watch with box := {} } }

end Sys2Proof.Machine
end

