-- ==== Sys2Proof/Machine/Mint.lean ====
section
/-! DEFINITION. KEY in its load form and as PUT, DERIVE, and the Mint's fills (R98, R99, R182, R193 to R198, R213 to R219). -/

namespace Sys2Proof.Machine

/-! ### Fills (R214) -/

/-- A KEY whose job ends with a bale status. -/
def endBale (s : State) (j : Nat) (st : Status) : State := endHard (countBaleFail s st) j st

/-- The pending fill of a triple, if there is one. -/
def findFill (s : State) (t : BitVec 12) (idx : BitVec 24) (recordOnly : Bool) : Option Nat :=
  (s.mint.fills.find? (fun kv => kv.2.tenant = t && kv.2.index = idx && kv.2.recordOnly = recordOnly)).map Prod.fst

/-- The job waits for a fill; what the compare port then finds is noted. -/
def joinFill (s : State) (j f : Nat) (c : Compare) : State :=
  modJob (modFill s f (fun x => { x with joined := x.joined ++ [j] })) j (fun x => { x with wait := .mint f, cmp := c })

/-- A new fill. -/
def newFill (s : State) (r : FillRec) : Nat × State :=
  (s.mint.nextFill, upMint s (fun m => { m with fills := tset {} m.fills m.nextFill r, nextFill := m.nextFill + 1 }))

/-- The tenant record is read from the tally (R182). -/
def readRecord (s : State) (f : Nat) : State :=
  let t := (getFill s f).tenant.toNat
  let s := modFill s f (fun x => { x with addr := recordAddr s t })
  issueAccess s (.record f) {} (recordAddr s t) 64 none

/-- The key table entry is read (R187, Table 7.4 step 4). -/
def readBale (s : State) (f : Nat) : State :=
  let x := getFill s f
  let r := parseRecord x.record
  let addr := r.base + w64 (128 * x.index.toNat)
  if !r.spaceLocal && s.pins.linkLost then modFill s f (fun x => { x with phase := .failed .hostLost })
  else
    let a : FabAttr :=
      if r.spaceLocal then {} else { spaceLocal := false, func := r.func, pv := r.pv, pasid := if r.pv then r.pasid else 0 }
    issueAccess (modFill s f (fun x => { x with addr := addr })) (.bale f) a addr 128 none

/-- The tenant's record is not resident: the lookup misses, and the job waits for the fill of its triple (R214). -/
def wantRecord (s : State) (j : Nat) : State :=
  let t := jobTenant s j
  let idx := BitVec.ofNat 24 (idxRecord t.toNat)
  let s := upSerai s (fun x => { x with misses := x.misses + 1 })
  match findFill s t idx true with
  | some f => joinFill s j f .same
  | none =>
    let (f, s) := newFill s { tenant := t, index := idx, recordOnly := true }
    readRecord (joinFill s j f .same) f

/-- Step 4 of Table 7.4. -/
def tableHas (r : TenantRec) (idx : Nat) : Bool := r.ktv && decide (idx < 2 ^ r.logSize)

/-- A PUT holds the entry busy (R198). -/
def entryBusy (s : State) (t : BitVec 12) (idx : BitVec 24) : Bool := s.mint.busy.any (fun b => b.2.1 = t && b.2.2 = idx)

/-- KEY of a short bale (R98, Table 7.4). -/
def keyShort (s : State) (l j : Nat) (i : W64) (c : Compare) : State :=
  let t := jobTenant s j
  let idx := wIndex i
  if !ownerHeld s then endBale s j .baleRevoked
  else match recordUse s j with
    | .miss => if itemDiffers s l c 3 then yokeMismatch s l j 3 else wantRecord s j
    | .conflict s => endHard s j .keyConflict
    | .here bs sr =>
      let r := parseRecord bs
      match lookupKey sr t idx r.epoch with
      | (.conflict, s') => endHard s' j .keyConflict
      | (.hit k, s') =>
        if !laneWindowOk s' 0 (getSlot s' k).notAfter.toNat then endBale s' j .baleExpired
        else if itemDiffers s' l c 3 then yokeMismatch s' l j 3
        else complete (keyTake s' j (keyNum (wA i)) k) l j c
      | (.miss, s') =>
        if !tableHas r idx then endBale s' j .baleInvalid
        else if entryBusy s t (BitVec.ofNat 24 idx) then s
        else if itemDiffers s' l c 3 then yokeMismatch s' l j 3
        else match findFill s' t (BitVec.ofNat 24 idx) false with
          | some f => joinFill s' j f c
          | none =>
            let (f, s') := newFill s' { tenant := t, index := BitVec.ofNat 24 idx, record := bs }
            readBale (joinFill s' j f c) f

/-! ### Long bales (R190, R196, R238, R241, R267) -/

/-- R241: the conditions on the material of a P-521 scalar and of an RSA key. -/
def chMaterialOk (ktype : Nat) (m : List Byte) : Bool :=
  let b := fun o n => ofLe (slice m o n)
  if ktype = 0x12 then
    decide (m.length = 72) && 1 ≤ b 0 72 &&
    b 0 72 < 0x01FFFFFFFFFFFFFFFFFFFFFFFFFFFFFFFFFFFFFFFFFFFFFFFFFFFFFFFFFFFFFFFFFFFA51868783BF2F966B7FCC0148F709A5D03BB5C9B8899C47AEBB6FB71E91386409
  else
    let n := b 0 2
    let hp := b 2 2
    let hq := b 4 2
    let e := b 8 8
    let p := 16 + 8 * n
    let q := p + 8 * hp
    decide (m.length = 16 + 8 * (n + 3 * hp + 2 * hq)) && 16 ≤ n && n ≤ 256 && b 6 2 = 0 && hp + hq = n &&
    8 ≤ hp && hp ≤ 128 && 8 ≤ hq && hq ≤ 128 &&
    b (p - 8) 8 ≠ 0 && b (q - 8) 8 ≠ 0 && b (q + 8 * hq - 8) 8 ≠ 0 &&
    b p 1 % 2 = 1 && b q 1 % 2 = 1 && e % 2 = 1 && 3 ≤ e

/-- R260: the hash check of a decapsulation key (dk is the PKE key, the encapsulation key, its hash and z), and that an expanded ML-DSA
key decodes with every coefficient in range. -/
def scMaterialOk (ktype : Nat) (m : List Byte) : Bool :=
  if ktype = 0x19 then
    let k := if m.length = dkSize 1 then 2 else if m.length = dkSize 2 then 3 else 4
    let ek := slice m (384 * k) (384 * k + 32)
    slice m (768 * k + 32) 32 = stdBytes (.hash 0x25) [[], ek] 32
  else Config.stdOk .mlDsaPub [m]

/-- Contexts that hold a long bale. -/
def heldCtxs (s : State) : Nat := ((List.range 4).filter (fun c => (getCtx s c).holder.isSome)).length

/-- Where a long bale goes: `none` waits; the engine is a bench, or a context counted from 8. -/
def holdEngine (s : State) (j ktype : Nat) : Option Nat :=
  if ktype = 0x12 ∨ ktype = 0x18 then
    (pickBench s (jobTenant s j) j false).bind (fun b =>
      if !pinned s b && pinEff s ≤ boundBenches s then none else some b)
  else if Nat.min 2 s.scales.holdMax.toNat ≤ heldCtxs s then none
  else ((List.range 4).find? (fun c =>
      ctxIdle s c && (getCtx s c).holder = none && !(getCtx s c).faulted && !(getCtx s c).kat && !ctxMints s c &&
      !s.scales.disable.toNat.testBit c)).map (fun c => 8 + c)

/-- The job already holds a holding of the same kind of engine. -/
def holdsOne (s : State) (j ktype : Nat) : Bool :=
  if ktype = 0x12 ∨ ktype = 0x18 then (List.range 8).any (fun b => (getBench s b).holder = some j)
  else (List.range 4).any (fun c => (getCtx s c).holder = some j)

/-- Material passes into the engine, which the job then holds; a bench counts the operand bytes that it loads (R18). -/
def holdTake (s : State) (l j e ktype : Nat) (m : List Byte) : State :=
  if e < 8 then
    let s := modUnit (benchOwn s e (.tenant (jobTenant s j))) (benchUnit e) (fun u => { u with bytes := u.bytes + w64 m.length })
    modBench s e (fun x => { x with holder := some j, holdLen := m.length, holdType := BitVec.ofNat 6 ktype, mem := tfill 0 x.mem 0x8000 m })
  else
    modCtx s (e - 8) (fun x => { x with
      holder := some j, holdLen := m.length, holdType := BitVec.ofNat 6 ktype, holdLane := l, mem := tfill 0 x.mem 16384 m })

/-- The holding goes, with its wipe. -/
def holdDrop (s : State) (e : Nat) : State := if e < 8 then wipeBench s e 4 else dropCtxHolding s (e - 8)

/-- A KEY of a long bale is a miss (R196); it counts once, when it ends or its material is taken. -/
def longLookup (s : State) : State := upSerai s (fun x => { x with misses := x.misses + 1 })

/-- The material of a long bale is there (R190, R196): `sr` is the state after the lookups, in which the KEY ends or goes on; while a slot
is to be waited for, nothing has happened to `s`. -/
def keyLongTake (s sr : State) (l j e : Nat) (i : W64) (c : Compare) (h : List Byte) (r : TenantRec) (expired : Bool)
    (cy : List Byte × Job) : State :=
  let t := jobTenant s j
  let ktype := ofLe (slice h 1 1)
  let len := ofLe (slice h 26 4)
  match useKek sr t r.epoch with
  | .waits bits => waitWay s bits
  | .fails st sr => endHard sr j st
  | .got kek sr =>
    let args := [kek, slice h 32 12, h.take 32, slice h 48 16, cy.1]
    let plain := stdBytes (.gcmSiv true) args cy.1.length
    let m := plain.take len
    let tagOk := Config.stdOk (.gcmSiv true) args && (plain.drop len).all (fun b => b = 0)
    let good := tagOk && (if e < 8 then chMaterialOk ktype m else scMaterialOk ktype m)
    let sr := whenS tagOk (fun s => upMint s (fun q => { q with unwraps := q.unwraps + 1 })) sr
    let drop := fun (s : State) => holdDrop (holdTake s l j e ktype m) e
    if !good then endBale (drop sr) j .baleInvalid
    else if expired then endBale (drop sr) j .baleExpired
    else if itemDiffers sr l c 3 then yokeMismatch (drop sr) l j 3
    else withWay s (privateWay sr) (endHard (drop sr) j .storageFault) (fun k sr =>
      let sr := fillPrivate (holdTake sr l j e ktype m) k t .holding (len % 256) l e (headerSlot h) []
      let sr := modJob sr j (fun x => { x with cursors := cy.2.cursors, buf := cy.2.buf })
      let sr := loadKey sr j (keyNum (wA i)) k
      complete (modJob sr j (fun x => { x with flags := { x.flags with hit := false } })) l j c)

/-- The header of a long bale is there: steps 5 to 10 of Table 7.4. -/
def keyLongBody (s sr : State) (l j : Nat) (i : W64) (c : Compare) (r : TenantRec) (h : List Byte) (st : Nat) (y : Job) : State :=
  let t := jobTenant s j
  let ktype := ofLe (slice h 1 1)
  let len := ofLe (slice h 26 4)
  let at_ := match (cover (getJob s j) st (cursor (getJob s j) st) 1).head? with
    | some p => w64 p.addr
    | none => 0
  let early := baleFault s h true t (wIndex i) r.epoch true
  let structural := !headerOk h true || ofLe (slice h 44 4) ≠ 0
  let foreign := !(ofLe (slice h 6 2) = t.toNat && ofLe (slice h 12 3) = wIndex i)
  if structural then endBale (baleReject (longLookup sr) .baleInvalid t (wIndex i) at_) j .baleInvalid
  else if foreign then endBale (baleReject (longLookup sr) .baleForeign t (wIndex i) at_) j .baleForeign
  else if early.any (fun e => decide (e ≠ .baleExpired)) then endBale (longLookup sr) j (early.getD .baleInvalid)
  else if holdsOne s j ktype then endHard (longLookup sr) j .keyUsage
  else match holdEngine s j ktype with
    | none => if ktype = 0x12 ∨ ktype = 0x18 then wakeRow s else s
    | some e =>
      goOn s j (takeStream y st (16 * ceilDiv len 16)) (fun cy =>
        keyLongTake s (longLookup sr) l j e i c h r (decide (early = some .baleExpired)) cy)

/-- KEY of a long bale, read from the bale stream B. -/
def keyLong (s : State) (l j : Nat) (i : W64) (c : Compare) : State :=
  if !ownerHeld s then endBale s j .baleRevoked
  else match recordUse s j with
    | .miss => if itemDiffers s l c 3 then yokeMismatch s l j 3 else wantRecord s j
    | .conflict s => endHard s j .keyConflict
    | .here bs sr =>
      match (desigOf (wB i)).bind streamOf with
      | none => endHard s j .encoding
      | some st => goOn s j (takeStream (getJob s j) st 64) (fun hy => keyLongBody s sr l j i c (parseRecord bs) hy.1 st hy.2)

/-- KEY (R98): the flags byte 0xFF is KEY_USAGE. What register A held is released first (R61), so that A is empty when KEY fails. While
the job waits for a fill nothing happens. -/
def execKey (lane : Fin 16) (cmp : Compare) (s : State) : Host.Outcome State Fault Refusal :=
  let l := lane.val
  match laneTask s l (fun i => isOp .key i && wArg i ≠ 1) with
  | none => .next s
  | some (j, i) =>
    let x := getJob s j
    if x.wait ≠ .nothing then .next s
    else if !issueOk x i then .next (endHard s j .encoding)
    else
      let s := releaseKey s j (keyNum (wA i))
      if wArg i = 0xFF then .next (endHard s j .keyUsage)
      else if wB i = 0 then .next (keyShort s l j i cmp)
      else .next (keyLong s l j i cmp)

/-! ### PUT (R197) -/

/-- The header of the bale that PUT writes. -/
def putHeader (r : SlotRec) (t : BitVec 12) (epoch : W32) (idx : Nat) : List Byte :=
  leBytes 1 1 ++ leBytes 1 r.ktype.toNat ++ leBytes 2 r.usage.toNat ++ leBytes 1 r.algLock.toNat ++ leBytes 1 r.klen ++
  leBytes 2 t.toNat ++ leBytes 4 epoch.toNat ++ leBytes 3 idx ++ zeros 1 ++ zeros 5 ++ leBytes 5 r.notAfter.toNat ++ zeros 6

/-- The 128 bytes of a short bale. -/
def wrapBale (kek header nonce key : List Byte) : List Byte :=
  let args := [kek, nonce, header, padTo 64 key]
  header ++ stdBytes (.gcmSiv false) args 64 ++ stdBytes .gcmSivTag args 16 ++ nonce ++ zeros 4

/-- PUT of the key `k`, with its nonce drawn in class 2 (R282); `sr` is the state after the use of the tenant record, which nothing has
happened to while the draw waits. -/
def putKey (s sr : State) (l j : Nat) (i : W64) (c : Compare) (k : KeyRef) (r : TenantRec) : State :=
  let t := jobTenant s j
  let idx := wIndex i
  if !tableHas r idx then endBale sr j .baleInvalid
  else if entryBusy s t (BitVec.ofNat 24 idx) then s
  else match laneDraw s 2 l j 12 with
  | .denied _ => endHard (wellDeny sr) j .entropyFail
  | .waits s => s
  | .got nonce s =>
    if !r.spaceLocal && s.pins.linkLost then endHard sr j .hostLost
    else if itemDiffers s l c 1 then yokeMismatch sr l j 1
    else match useKek sr t r.epoch with
    | .waits bits => waitWay s bits
    | .fails st s => endHard s j st
    | .got kek s =>
      let slot := getSlot s k.slot
      let bale := wrapBale kek (putHeader slot t r.epoch idx) nonce ((slotKey s k.slot).take slot.klen)
      let s := upMint s (fun m => { m with busy := m.busy ++ [(j, t, BitVec.ofNat 24 idx)] })
      let a : FabAttr :=
        if r.spaceLocal then {} else { spaceLocal := false, func := r.func, pv := r.pv, pasid := if r.pv then r.pasid else 0 }
      complete (issueAccess s (.put j t (BitVec.ofNat 24 idx)) a (r.base + w64 (128 * idx)) 128 (some bale)) l j c

/-- PUT (R197, R198). -/
def execPut (lane : Fin 16) (cmp : Compare) (s : State) : Host.Outcome State Fault Refusal :=
  let l := lane.val
  match laneTask s l (fun i => isOp .key i && wArg i = 1) with
  | none => .next s
  | some (j, i) =>
    if (getJob s j).wait ≠ .nothing then .next s
    else match keyReg s j (keyNum (wA i)) with
      | none => .next (endHard s j .keyUsage)
      | some k =>
        if !keyRefOk s k then .next (endKey s j (keyNum (wA i)) .keyConflict)
        else if (getSlot s k.slot).isHolding then .next (endHard s j .keyUsage)
        else if !ownerHeld s then .next (endBale s j .baleRevoked)
        else match recordUse s j with
          | .miss => .next (wantRecord s j)
          | .conflict s => .next (endHard s j .keyConflict)
          | .here bs sr => .next (putKey s sr l j i cmp k (parseRecord bs))

/-! ### MINT_FILL (R214, R215) -/

/-- A job that joined a fill ends with its status; the ending of a KEY, not of a STREAM that needs the record, counts in MI_BALEFAIL. -/
def fillEnds (s : State) (j : Nat) (st : Status) : State :=
  let x := getJob s j
  failJob (if isOp .key (instrAt s x x.pos) then countBaleFail s st else s) j st

/-- Every job that joined a fill ends with a status, and the fill is over. -/
def fillFails (s : State) (f : Nat) (st : Status) : State :=
  let js := (getFill s f).joined
  let s := upMint s (fun m => { m with fills := terase m.fills f })
  forAll js (fun s j => fillEnds s j st) s

/-- A KEY that joined a fill has its key: a running or saved job goes on with its next instruction. On a yoke the copies of the slot reference
are compared (row 3 of Table 6.6): that they differ is a free value, for MINT_FILL brings no compare result (DESIGN CHOICE, log entry 24). -/
def fillServes (s : State) (j slot : Nat) (hit : Bool) : State :=
  let x := getJob s j
  let differ := isYoke s (seatLane x) && Config.copiesDiffer s.free
  let s := loadKey (if isYoke s (seatLane x) then drewFree s 1 else s) j (keyNum (wA (instrAt s x x.pos))) slot
  if differ then yokeMismatch s (seatLane x) j 3
  else complete (modJob s j (fun x => { x with flags := { x.flags with hit := hit } })) (seatLane x) j x.cmp

/-- A flush in progress covers the triple of a fill (R225): a stale flush covers it as it covers the slot that would be filled. -/
def flushHolds (s : State) (x : FillRec) : Bool :=
  let e : Byte := BitVec.ofNat 8 (parseRecord x.record).epoch.toNat
  s.serai.flush.any (fun f => flushCovers f (if x.recordOnly then .internal else .tenant) x.tenant x.index e (flushCur s f))

/-- The key of a set without a way goes to a PRIVATE slot of each joined job (R215), which `serve` then uses; `inl` while a way is to be
waited for. -/
def overflowEach (t : BitVec 12) (r : SlotRec) (key : List Byte) (serve : State → Nat → Nat → State) : List Nat → State → Bool ⊕ State
  | [], s => .inr s
  | j :: js, s =>
    match privateWay s with
    | .way k s =>
      let s := fillPrivate s k t .privateKey key.length (seatLane (getJob s j)) 0 r key
      overflowEach t r key serve js (serve (upSerai s (fun q => { q with overflows := q.overflows + 1 })) j k)
    | .waits bits => .inl bits
    | .none => overflowEach t r key serve js (failJob s j .storageFault)

/-- A key is there for every job that joined fill `f`: it takes one slot with a lease for each, or a PRIVATE slot each. While a way is to
be waited for, nothing has happened to `s0`. -/
def fillWrites (s0 s : State) (f set : Nat) (r : SlotRec) (key : List Byte) (serve : State → Nat → Nat → State) : State :=
  let js := (getFill s f).joined
  let t := (getFill s f).tenant
  let s := upMint s (fun m => { m with fills := terase m.fills f })
  match fillWay s set with
  | .way k s => forAll js (fun s j => serve (takeLease s k) j k) (fillSlot s k r key)
  | .waits bits => waitWay s0 bits
  | .none =>
    match overflowEach t r key serve js s with
    | .inl bits => waitWay s0 bits
    | .inr s => s

/-- The bale has arrived: steps 5 to 10 of Table 7.4. -/
def fillBale (s : State) (f : Nat) : State :=
  let x := getFill s f
  let r := parseRecord x.record
  let h := x.bale.take 32
  let structural := !headerOk h false || ofLe (slice x.bale 124 4) ≠ 0
  let foreign := !(ofLe (slice h 6 2) = x.tenant.toNat && ofLe (slice h 12 3) = x.index.toNat)
  let idx := x.index.toNat
  if structural then fillFails (baleReject s .baleInvalid x.tenant idx x.addr) f .baleInvalid
  else if foreign then fillFails (baleReject s .baleForeign x.tenant idx x.addr) f .baleForeign
  else match baleFault s h false x.tenant idx r.epoch true with
    | some .baleRevoked => fillFails s f .baleRevoked
    | some .baleInvalid => fillFails s f .baleInvalid
    | late =>
      match useKek s x.tenant r.epoch with
      | .waits bits => waitWay s bits
      | .fails st s => fillFails s f st
      | .got kek s' =>
        let args := [kek, slice x.bale 112 12, h, slice x.bale 96 16, slice x.bale 32 64]
        let plain := stdBytes (.gcmSiv true) args 64
        let klen := (headerSlot h).klen
        if !(Config.stdOk (.gcmSiv true) args && (plain.drop klen).all (fun b => b = 0)) then fillFails s' f .baleInvalid
        else
          let s' := upMint s' (fun m => { m with unwraps := m.unwraps + 1 })
          if late.isSome then fillFails s' f .baleExpired
          else fillWrites s s' f (setOf s .tenant x.tenant.toNat idx) (headerSlot h) (plain.take klen) (fun s j k => fillServes s j k false)

/-- An instruction that waited for its tenant's record is lent the slot and goes on (R214, R217). -/
def lendRecord (s : State) (j slot : Nat) : State :=
  modJob (upMint s (fun m => { m with lent := tset none m.lent j (some slot) })) j (fun y => { y with wait := .nothing })

/-- The tenant record has arrived (R182). -/
def fillRecord (s : State) (f : Nat) : State :=
  let x := getFill s f
  let t := x.tenant
  if !recordOk s t.toNat x.bale then
    let s := upMint s (fun m => { m with tallyBad := true })
    fillFails (baleReject s .baleRevoked t x.index.toNat x.addr) f .baleRevoked
  else
    fillWrites s s f (setOf s .internal t.toNat x.index.toNat)
      { index := x.index, tenant := t, kind := .internal, notAfter := 0xFFFFFFFFFF#40, klen := 64 } x.bale lendRecord

/-- MINT_FILL (R182, R195, R214): the read of fill `fill` has returned. A fill of a triple that a flush covers, or of a group without
a fresh mask, waits (R223, R225). -/
def execMintFill (fill : Nat) (s : State) : Host.Outcome State Fault Refusal :=
  if !s.mint.fills.any (fun kv => kv.1 = fill) then .next s
  else
    let x := getFill s fill
    match x.phase with
    | .failed st => .next (fillFails s fill st)
    | .arrived =>
      if flushHolds s x || s.serai.zeroed then .next s
      else .next (if x.recordOnly then fillRecord s fill else fillBale s fill)
    | .reading => .next s

/-! ### DERIVE (R99, R191) -/

/-- The parent types of a KDF (Table 4.5). -/
def kdfTypes (kdf t : Nat) : Bool :=
  if kdf ≤ 3 then (0x08 ≤ t && t ≤ 0x0A) || t = 0x20
  else if kdf ≤ 7 then 0x0C ≤ t && t ≤ 0x0E
  else if kdf ≤ 0xB then (0x08 ≤ t && t ≤ 0x0A) || t = 0x20
  else t = 0x03

/-- The output length of the PRF of a counter-mode KDF (Table 4.5). -/
def prfLen (kdf : Nat) : Nat := if kdf = 0x09 then 32 else if kdf = 0x0A then 48 else if kdf = 0x0B then 64 else 16

/-- `n` bytes of HKDF-Expand, or of a counter-mode KDF. -/
def kdfBytes (kdf : Nat) (parent input : List Byte) (n : Nat) : List Byte :=
  if kdf ≤ 7 then stdBytes (.kdf kdf) [parent, input] n
  else counterKdf (fun m => stdBytes (.prf kdf) [parent, m] (prfLen kdf)) (prfLen kdf) n input

/-- The salt of HKDF-Extract (Table 4.5): an empty input gives the zero salt of RFC 5869, as long as the hash. -/
def extractSalt (kdf : Nat) (input : List Byte) : List Byte :=
  if input.isEmpty then zeros (if kdf = 1 then 32 else if kdf = 2 then 48 else 64) else input

/-- The new key's bytes. -/
def deriveKey (kdf ktype : Nat) (parent input : List Byte) : List Byte :=
  let n := ktypeLen ktype
  if kdf ≤ 3 then stdBytes (.kdf kdf) [parent, extractSalt kdf input] n
  else if ktype = 0x10 then reduceScalar order256 32 (kdfBytes kdf parent input 40)
  else if ktype = 0x11 then reduceScalar order384 48 (kdfBytes kdf parent input 56)
  else kdfBytes kdf parent input n

/-- GRANT of a slot. -/
def grantOf (r : SlotRec) : Nat := fld r.usage 8 7

/-- The slot of a derived key (R191). -/
def derivedSlot (parent : SlotRec) (ktype usage : Nat) : SlotRec :=
  { derived := true, usage := BitVec.ofNat 15 (usage + if usage.testBit 4 then 256 * grantOf parent else 0), ktype := BitVec.ofNat 6 ktype
    notAfter := parent.notAfter }

/-- The input C of DERIVE: at most 1,024 bytes of a stream. -/
def deriveInput (x : Job) (d : Desig) : Res (List Byte × Job) :=
  match d with
  | .seg s i =>
    let st := 8 * s + i
    bindRes (restOf x st (cursor x st)) (fun n => if 1024 < n then .hard .encoding else takeStream x st n)
  | .sat n => bindRes (frameRead x n) (fun bs => .ok (bs, x))
  | _ => .ok ([], x)

/-- A new job-private key is loaded, once a yoke's copies agree (Table 6.6, row 3), and `k` goes on. What the register held is released
first (R61), but for a parent in that very register, whose lease DERIVE releases after the new key is complete (R99). While a way is to be
waited for, nothing has happened to `s0`. -/
def loadPrivate (s0 s : State) (l j : Nat) (c : Compare) (reg : Nat) (parent : Option Nat) (r : SlotRec) (key : List Byte)
    (k : State → State) : State :=
  if itemDiffers s l c 3 then yokeMismatch s l j 3
  else
    let s := if parent = some reg then s else releaseKey s j reg
    withWay s0 (privateWay s) (endHard s j .storageFault) (fun n s =>
      k (loadKey (fillPrivate s n (jobTenant s j) .privateKey key.length l 0 r key) j reg n))

/-- DERIVE (R99). -/
def execDerive (lane : Fin 16) (cmp : Compare) (s : State) : Host.Outcome State Fault Refusal :=
  let l := lane.val
  match laneTask s l (isOp .derive) with
  | none => .next s
  | some (j, i) =>
    let x := getJob s j
    let kb := keyNum (wB i)
    let usage := wField2 i
    if x.wait ≠ .nothing then .next s
    else if !issueOk x i then .next (endHard s j .encoding)
    else match keyFault s j kb 4 (wFn i) (kdfTypes (wFn i)) with
      | some st => .next (endKey s j kb st)
      | none =>
        let parent := keySlot s j kb
        if 128 ≤ usage || Nat.land usage (grantOf parent) ≠ usage then .next (endHard s j .keyUsage)
        else
          .next (goOn s j (deriveInput x (opd (wC i))) (fun iy =>
            let key := deriveKey (wFn i) (wParam i) (keyBytes s j kb) iy.1
            loadPrivate s (modJob s j (fun _ => iy.2)) l j cmp (keyNum (wA i)) (some kb) (derivedSlot parent (wParam i) usage) key
              (fun s => complete s l j cmp)))

end Sys2Proof.Machine
end

