-- ==== Sys2Proof/Machine/Instr.lean ====
section
/-! DEFINITION. The instructions that a lane runs by itself: STREAM, SEAL, OPEN, CIPHER, XFORM, MAC, HASH, CMP, RAND, MOVE, LOADS,
STORES, BRANCH, FENCE, EVENT and END (R75, R76, R89 to R107, R115 to R118, R125, R161 to R167). -/

namespace Sys2Proof.Machine

/-- An output of `n` bytes fits its operand. -/
def roomFor (x : Job) (d : Desig) (n : Nat) : Res Unit := bindRes (putOut x d false (zeros n)) (fun _ => .ok ())

/-! ### Parts (R97, R161) -/

/-- The running state that a part continues, which a STREAM LOAD must have brought in: empty for a whole message and a first part. -/
def partState (x : Job) (i : W64) : Res (List Byte) :=
  if wPart i < 2 then .ok []
  else match x.run with
    | some r => if r.alg = wAlg i && r.loaded then .ok r.bytes else .hard .encoding
    | none => .hard .encoding

/-- The length of a first or middle part. -/
def partLenOk (i : W64) (n : Nat) : Bool := !(wPart i = 1 || wPart i = 2) || n % 128 = 0

/-- The bytes of STATE before its lengths (R161): counter block and GHASH accumulator; nonce, block counter and Poly1305 accumulator; or
the chaining value of the algorithm. R161 names these contents and, but for SHA-384 and SHA-512, no widths or places: they stand here in
its order, lengths in bytes of 64 bits, little-endian (DESIGN CHOICE, log entry 62). -/
def chainLen (alg : Nat) : Nat :=
  if alg = 0x01 ∨ alg = 0x04 ∨ alg = 0x1A then 32
  else if alg = 0x03 then 33
  else if alg = 0x22 ∨ alg = 0x23 then 64
  else if alg = 0x08 ∨ alg = 0x0D then 0
  else if alg = 0x09 ∨ alg = 0x0A ∨ alg = 0x0C ∨ alg = 0x0E ∨ alg = 0x0F ∨ alg = 0x19 then 16
  else 32

/-- The bytes of a length in STATE. -/
def lenWidth (alg : Nat) : Nat := if alg = 0x22 ∨ alg = 0x23 then 16 else 8

/-- Length `k` of a running state. -/
def runLen (alg : Nat) (stt : List Byte) (k : Nat) : Nat := ofLe (slice stt (chainLen alg + k * lenWidth alg) (lenWidth alg))

/-- STATE: 80 bytes, the unused ones zero. -/
def stateBytes (alg : Nat) (chain : List Byte) (lens : List Nat) : List Byte :=
  padTo 80 (padTo (chainLen alg) chain ++ lens.flatMap (leBytes (lenWidth alg)))

/-- The running state after the instruction: its chaining value and the lengths so far. A state that was loaded stays so. -/
def partNext (x : Job) (i : W64) (chain : List Byte) (lens : List Nat) : Job :=
  match wPart i with
  | 0 => x
  | 3 => { x with run := none }
  | p => { x with run := some { alg := wAlg i, step := p, bytes := stateBytes (wAlg i) chain lens, loaded := p = 2 } }

/-- The instance of B's stream, for companions. -/
def instOf (b : Nat) : Nat :=
  match desigOf b with
  | some (.seg _ k) => k
  | _ => 0

/-- A companion (R91): the frame of a satchel, or the rest of the stream (SEG, instance of B). -/
def companion (x : Job) (inSat : Bool) (sat seg : Nat) (i : W64) : Res (List Byte × Job) :=
  if inSat then bindRes (frameRead x sat) (fun bs => .ok (bs, x))
  else if bIsSeg i then takeRest x (8 * seg + instOf (wB i))
  else .ok ([], x)

/-! ### Key types (Table 4.3) -/

/-- Types that a cipher or MAC algorithm accepts. -/
def algTypes (alg t : Nat) : Bool :=
  if alg = 0x0B then t = 0x04 || t = 0x05
  else if alg = 0x03 ∨ alg = 0x0C then t = 0x06
  else if alg = 0x04 ∨ alg = 0x0D ∨ alg = 0x0E ∨ alg = 0x0F then t = 0x07
  else if 0x10 ≤ alg ∧ alg ≤ 0x18 then 0x08 ≤ t && t ≤ 0x0A
  else if alg = 0x1B ∨ alg = 0x1C then t = 0x0B
  else 1 ≤ t && t ≤ 3

/-! ### Block ciphers and stream ciphers (R96) -/

/-- A block cipher on one block. -/
def blockFn (ktype : Nat) (decrypt : Bool) (key b : List Byte) : List Byte := stdBytes (.block ktype decrypt) [key, b] 16

/-- The 16-byte blocks of a message, the last one as long as what is left. -/
def blocks16 (bs : List Byte) : List (List Byte) := (List.range (ceilDiv bs.length 16)).map (fun k => slice bs (16 * k) 16)

/-- `n` bytes of a keystream that comes in blocks of `w` bytes. -/
def keystream (block : Nat → List Byte) (w n : Nat) : List Byte := ((List.range (ceilDiv n w)).flatMap block).take n

/-- CTR: the whole 16-byte counter block counts as a big-endian integer modulo 2¹²⁸. -/
def ctrAdd (c : List Byte) (k : Nat) : List Byte := beBytes 16 ((ofBe c + k) % 2 ^ 128)

/-- GCM: the last 32 bits of the counter block count, big-endian. -/
def ctrAdd32 (c : List Byte) (k : Nat) : List Byte := c.take 12 ++ beBytes 4 ((ofBe (c.drop 12) + k) % 2 ^ 32)

/-- A ChaCha20 keystream block. -/
def chachaBlock (key nonce : List Byte) (counter : Nat) : List Byte := stdBytes .chacha [key, leBytes 4 counter, nonce] 64

/-- CBC encryption from a chaining value. -/
def cbcSeal (ktype : Nat) (key : List Byte) : List Byte → List (List Byte) → List Byte
  | _, [] => []
  | prev, b :: bs =>
    let c := blockFn ktype false key (xorBytes b prev)
    c ++ cbcSeal ktype key c bs

/-- CBC decryption from a chaining value. -/
def cbcOpen (ktype : Nat) (key : List Byte) : List Byte → List (List Byte) → List Byte
  | _, [] => []
  | prev, b :: bs => xorBytes (blockFn ktype true key b) prev ++ cbcOpen ktype key b bs

/-! ### SEAL, OPEN, CIPHER -/

/-- Output bytes that are produced as input comes: byte `q` of the first `keep` depends on the payload up to the end of its 16-byte block,
a later one on all of it. -/
def flowBytes (f : StdFn) (args : List Byte → List (List Byte)) (keep : Nat) (pay : List Byte) : List Byte :=
  (List.range pay.length).map (fun q => Config.std f (args (if q < keep then pay.take (16 * (q / 16) + 16) else pay)) q)

/-- How many of `n` output bytes stand once `m` bytes of the payload have arrived. -/
def flowStand (keep n m : Nat) : Nat := if m = n then n else Nat.min keep (m / 16 * 16)

/-- How much of the payload `n` of B has arrived, from the job's cursor. -/
def payHere (x : Job) (i : W64) (n : Nat) : Nat :=
  match streamOf (opd (wB i)) with
  | some st => (arrived x st (cursor x st) n).length
  | none => n

/-- The inputs of SEAL and OPEN before the payload: running state, IV, AAD. R97 puts the AAD in PART 1 and says of the IV nothing: a
middle or last part goes on from the loaded state and reads neither (DESIGN CHOICE, log entry 62). -/
def aeadHead (x : Job) (i : W64) : Res (List (List Byte) × Job) :=
  bindRes (partState x i) (fun stt =>
  bindRes (if wPart i < 2 then companion x (wIsat i) 6 4 i else .ok ([], x)) (fun iv =>
  bindRes (demand (2 ≤ wPart i || ivLenOk (wAlg i) iv.1.length) .encoding) (fun _ =>
  bindRes (if wPart i < 2 then companion iv.2 (wAsat i) 7 0 i else .ok ([], iv.2)) (fun aad =>
  .ok ([stt, iv.1, aad.1], aad.2)))))

/-- The inputs of SEAL and OPEN before the tag: running state, IV, AAD, payload. -/
def aeadIn (x : Job) (i : W64) : Res (List (List Byte) × Job) :=
  bindRes (aeadHead x i) (fun h =>
  bindRes (lenIn h.2 (opd (wB i)) (wLen i)) (fun n =>
  bindRes (demand (partLenOk i n) .encoding) (fun _ =>
  bindRes (takeIn h.2 (opd (wB i)) (wLen i)) (fun pay =>
  .ok (h.1 ++ [pay.1], pay.2)))))

/-- How many output bytes of SEAL and OPEN stand. -/
def aeadStand (x : Job) (i : W64) : Nat :=
  match bindRes (aeadHead x i) (fun h => bindRes (lenIn h.2 (opd (wB i)) (wLen i)) (fun n => .ok (flowStand n n (payHere h.2 i n)))) with
  | .ok m => m
  | _ => 0

/-- The payload of the inputs. -/
def payOf (a : List (List Byte)) : List Byte := a.getD 3 []

/-- Bytes filled with zero to whole blocks. -/
def pad16 (bs : List Byte) : List Byte := bs ++ zeros ((16 - bs.length % 16) % 16)

/-- GHASH goes on from an accumulator over whole blocks. -/
def ghash (h acc data : List Byte) : List Byte := (blocks16 data).foldl (fun a b => stdBytes .gmul [h, xorBytes a b] 16) acc

/-- The hash key of GCM. -/
def gcmKey (ktype : Nat) (key : List Byte) : List Byte := blockFn ktype false key (zeros 16)

/-- The first counter block of GCM: an IV of 12 bytes directly, any other through GHASH (R96). -/
def gcmStart (ktype : Nat) (key iv : List Byte) : List Byte :=
  if iv.length = 12 then iv ++ beBytes 4 1
  else ghash (gcmKey ktype key) (zeros 16) (pad16 iv ++ zeros 8 ++ beBytes 8 (8 * iv.length))

/-- Counter block `k` of CCM. -/
def ccmCounter (nonce : List Byte) (k : Nat) : List Byte := BitVec.ofNat 8 (14 - nonce.length) :: nonce ++ beBytes (15 - nonce.length) k

/-- Poly1305 goes on from an accumulator over whole blocks. -/
def polyAbsorb (r acc : Nat) (data : List Byte) : Nat :=
  (blocks16 data).foldl (fun a b => (a + ofLe b + 2 ^ 128) * r % (2 ^ 130 - 5)) acc

/-- The one-time key of ChaCha20-Poly1305, from block 0. -/
def polyKey (key nonce : List Byte) : Nat × Nat :=
  let k := chachaBlock key nonce 0
  (Nat.land (ofLe (k.take 16)) 0x0FFFFFFC0FFFFFFC0FFFFFFC0FFFFFFF, ofLe (slice k 16 16))

/-- Where an AEAD stands: its running state (empty at the start of a message) and its IV. -/
structure AeadAt where
  alg : Nat
  ktype : Nat
  key : List Byte
  stt : List Byte
  iv : List Byte
  deriving DecidableEq, Repr

/-- The counter block of the next payload block: the second of GCM, and block 1 of ChaCha20 (R96), at the start of a message. -/
def aeadCounter (p : AeadAt) : List Byte :=
  if p.alg = 0x03 then (if p.stt = [] then p.iv ++ leBytes 4 1 else p.stt.take 16)
  else if p.stt = [] then ctrAdd32 (gcmStart p.ktype p.key p.iv) 1 else p.stt.take 16

/-- The counter block after `n` bytes of payload. -/
def aeadCounterNext (p : AeadAt) (n : Nat) : List Byte :=
  let c := aeadCounter p
  if p.alg = 0x03 then c.take 12 ++ leBytes 4 (ofLe (c.drop 12) + ceilDiv n 64) else ctrAdd32 c (ceilDiv n 16)

/-- `n` bytes of the keystream. -/
def aeadStream (p : AeadAt) (n : Nat) : List Byte :=
  let c := aeadCounter p
  if p.alg = 0x03 then keystream (fun k => chachaBlock p.key (c.take 12) (ofLe (c.drop 12) + k)) 64 n
  else if p.alg = 0x02 then keystream (fun k => blockFn p.ktype false p.key (ccmCounter p.iv (k + 1))) 16 n
  else keystream (fun k => blockFn p.ktype false p.key (ctrAdd32 c k)) 16 n

/-- The accumulator after more bytes of AAD and ciphertext, each filled to whole blocks. -/
def aeadAcc (p : AeadAt) (aad ct : List Byte) : List Byte :=
  let data := pad16 aad ++ pad16 ct
  if p.alg = 0x03 then
    leBytes 17 (polyAbsorb (polyKey p.key ((aeadCounter p).take 12)).1 (ofLe (slice p.stt 16 17)) data)
  else ghash (gcmKey p.ktype p.key) (padTo 16 (slice p.stt 16 16)) data

/-- The lengths of AAD and payload so far. -/
def aeadLens (p : AeadAt) (aad ct : List Byte) : List Nat := [runLen p.alg p.stt 0 + aad.length, runLen p.alg p.stt 1 + ct.length]

/-- The first counter block of a message, from that of its next payload block. -/
def gcmFirst (p : AeadAt) : List Byte :=
  let back := (1 + ceilDiv (runLen p.alg p.stt 1) 16) % 2 ^ 32
  ctrAdd32 (aeadCounter p) (2 ^ 32 - back)

/-- The tag of `n` bytes. -/
def aeadTag (p : AeadAt) (aad ct pt : List Byte) (n : Nat) : List Byte :=
  let acc := aeadAcc p aad ct
  let lens := aeadLens p aad ct
  if p.alg = 0x03 then
    let k := polyKey p.key ((aeadCounter p).take 12)
    (leBytes 16 (polyAbsorb k.1 (ofLe acc) (lens.flatMap (leBytes 8)) + k.2)).take n
  else if p.alg = 0x02 then
    let t := stdBytes (.ccmMac p.ktype) [p.key, p.iv, aad, pt, [BitVec.ofNat 8 n]] n
    xorBytes t (blockFn p.ktype false p.key (ccmCounter p.iv 0))
  else
    let t := ghash (gcmKey p.ktype p.key) acc (lens.flatMap (fun m => beBytes 8 (8 * m)))
    (xorBytes t (blockFn p.ktype false p.key (gcmFirst p))).take n

/-- The chaining part of the running state. -/
def aeadChain (p : AeadAt) (aad ct : List Byte) : List Byte := aeadCounterNext p ct.length ++ aeadAcc p aad ct

/-- Where SEAL or OPEN stands, from its inputs. -/
def aeadAt (i : W64) (ktype : Nat) (key : List Byte) (a : List (List Byte)) : AeadAt :=
  { alg := wAlg i, ktype := ktype, key := key, stt := a.getD 0 [], iv := a.getD 1 [] }

/-- SEAL (R101): the length of the payload; ciphertext to A, and the tag of a whole message or a last part. -/
def sealRun (x : Job) (i : W64) (ktype : Nat) (key : List Byte) : Res (Nat × Job × List OutW) :=
  bindRes (aeadIn x i) (fun a =>
    let n := (payOf a.1).length
    let p := aeadAt i ktype key a.1
    let aad := a.1.getD 2 []
    let ct := xorBytes (payOf a.1) (aeadStream p n)
    bindRes (putOut a.2 (opd (wA i)) true ct) (fun o =>
      let y := partNext o.1 i (aeadChain p aad ct) (aeadLens p aad ct)
      if wPart i = 1 ∨ wPart i = 2 then .ok (n, y, o.2)
      else
        let tag := aeadTag p aad ct (payOf a.1) (wTagLen i)
        let d : Desig := if wTsat i then .sat 5 else .seg 3 (instOf (wB i))
        bindRes (putOut y d false tag) (fun t => .ok (n, t.1, o.2 ++ t.2))))

/-- A run whose result carries the count of input bytes. -/
def runCounted (s : State) (l j : Nat) (c : Compare) (r : Res (Nat × Job × List OutW)) : State :=
  goOn s j r (fun q => runPure (countBytes s l q.1) l j c (.ok q.2))

/-- Such a run that issues its output as it is produced; `m` of its bytes stand while input is missing. -/
def runFlow (s : State) (l j : Nat) (c : Compare) (i : W64) (m : Nat) (r : Res (Nat × Job × List OutW)) : State :=
  goFlow s l j c i m Prod.snd r (fun q => runPure (countBytes s l q.1) l j c (.ok q.2))

/-- SEAL (R101). -/
def execSeal (lane : Fin 16) (cmp : Compare) (s : State) : Host.Outcome State Fault Refusal :=
  let l := lane.val
  match laneTask s l (isOp .sealW) with
  | none => .next s
  | some (j, i) =>
    let x := getJob s j
    let k := keyNum (wC i)
    if !issueOk x i then .next (endHard s j .encoding)
    else match keyFault s j k 0 (wAlg i) (algTypes (wAlg i)) with
      | some st => .next (endKey s j k st)
      | none => .next (runFlow s l j cmp i (aeadStand x i) (sealRun x i (keySlot s j k).ktype.toNat (keyBytes s j k)))

/-- OPEN: the length of the payload; plaintext to A, with the tag read, and whether it verifies. With A = S5 and TSAT = 1 the expected tag
is what S5 holds once the plaintext is written, an order that the spec leaves open (DESIGN CHOICE, log entry 62). -/
def openRun (x : Job) (i : W64) (ktype : Nat) (key : List Byte) : Res (Nat × Job × List OutW × Option Bool) :=
  bindRes (aeadIn x i) (fun a =>
    let n := (payOf a.1).length
    let p := aeadAt i ktype key a.1
    let aad := a.1.getD 2 []
    let pt := xorBytes (payOf a.1) (aeadStream p n)
    bindRes (putOut a.2 (opd (wA i)) true pt) (fun o =>
      let y := partNext o.1 i (aeadChain p aad (payOf a.1)) (aeadLens p aad (payOf a.1))
      if wPart i = 1 ∨ wPart i = 2 then .ok (n, y, o.2, none)
      else
        let t := if wTsat i then bindRes (satRead y 5 0 (wTagLen i)) (fun bs => .ok (bs, y))
          else takeStream y (24 + instOf (wB i)) (wTagLen i)
        bindRes t (fun t =>
          let tag := aeadTag p aad (payOf a.1) pt (wTagLen i)
          .ok (n, t.2, o.2, some (decide (t.1 = tag))))))

/-- A verification's result on the flags and the pending status (R62, R63). -/
def noteVerify (x : Job) (ok : Bool) : Job :=
  let r := flagsVerify x.flags x.pend ok
  { x with flags := r.1, pend := r.2 }

/-- A failing OPEN to a satchel: the frame it wrote is zero (R84). -/
def zeroSat (x : Job) (d : Desig) (n : Nat) : Job :=
  match d with
  | .sat k => { x with sat := tfill 0 x.sat (256 * k) (zeros (n + 2)) }
  | _ => x

/-- OPEN runs: its output is issued; a tag that fails leaves the zero writes to come (R84). -/
def openStart (s : State) (l j : Nat) (i : W64) (c : Compare) (n : Nat) (r : Job × List OutW × Option Bool) : State :=
  let bad := r.2.2 = some false
  let y := match r.2.2 with
    | some ok => noteVerify r.1 ok
    | none => r.1
  if jobLost s j && outsLeft y r.2.1 then endHard s j .hostLost
  else if !bad then commit s l j c y r.2.1
  else match r.2.1 with
    | [] => commit s l j c (zeroSat y (opd (wA i)) n) []
    | o :: _ =>
      if o.2.2.isEmpty then commit s l j c y []
      else if itemDiffers s l c 1 && outsLeft y r.2.1 then beatMismatch s l j y (outBytes r.2.1) r.2.1
      else
        let s := modJob s j (fun _ => { y with
          wait := .zeroing 1, wrote := some (o.1, o.2.1, o.2.2.length), done := 0, source := [] })
        issueOuts s j y r.2.1

/-- The zero writes of R84, once every write of the instruction is acknowledged. -/
def openZero (s : State) (l j : Nat) (c : Compare) : State :=
  if !writesDone s j then s
  else match (getJob s j).wrote with
    | none => complete s l j c
    | some w =>
      if jobLost s j then endHard s j .hostLost
      else if itemDiffers s l c 1 then beatMismatch s l j (getJob s j) w.2.2 [(w.1, w.2.1, zeros w.2.2)]
      else complete (writeStream s j w.1 w.2.1 (zeros w.2.2)) l j c

/-- OPEN (R101, R102, R84). -/
def execOpenI (lane : Fin 16) (cmp : Compare) (s : State) : Host.Outcome State Fault Refusal :=
  let l := lane.val
  match laneTask s l (isOp .openW) with
  | none => .next s
  | some (j, i) =>
    let x := getJob s j
    let k := keyNum (wC i)
    if x.wait ≠ .nothing then .next (openZero s l j cmp)
    else if !issueOk x i then .next (endHard s j .encoding)
    else match keyFault s j k 1 (wAlg i) (algTypes (wAlg i)) with
      | some st => .next (endKey s j k st)
      | none =>
        .next (goFlow s l j cmp i (aeadStand x i) (fun q => (q.2.1, q.2.2.1)) (openRun x i (keySlot s j k).ktype.toNat (keyBytes s j k))
          (fun q => openStart (countBytes s l q.1) l j i cmp q.1 q.2))

/-- CIPHER's length rules (R96). -/
def cipherLenOk (i : W64) (n : Nat) : Bool :=
  partLenOk i n && (!algBlock16 (wAlg i) || n % 16 = 0) && (wAlg i ≠ 0x0B || (16 ≤ n && n ≤ 16777216))

/-- With ciphertext stealing the last two blocks of an XTS data unit are made together. -/
def cipherKeep (i : W64) (n : Nat) : Nat := if wAlg i = 0x0B ∧ n % 16 ≠ 0 then 16 * (n / 16 - 1) else n

/-- CIPHER's inputs before the payload: running state and IV. A CIPHER or AES-GMAC of PART 2 or 3 reads no IV (R97 and R161 do not say;
DESIGN CHOICE, log entry 62). -/
def cipherHead (x : Job) (i : W64) : Res (List Byte × List Byte × Job) :=
  bindRes (partState x i) (fun stt =>
  bindRes (if algCipherIv (wAlg i) && wPart i < 2 then companion x (wIsat i) 6 4 i else .ok ([], x)) (fun iv =>
  bindRes (demand (!(algCipherIv (wAlg i) && wPart i < 2) || ivLenOk (wAlg i) iv.1.length) .encoding) (fun _ =>
  .ok (stt, iv))))

/-- What CIPHER goes on from: the chaining value of the loaded state, or the IV. -/
def cipherStart (stt iv : List Byte) : List Byte := if stt = [] then iv else stt.take 16

/-- CIPHER's output (R96, R103): ECB, CBC, CTR by blocks; XTS with the first half of the key for the data and the second for the tweak;
ChaCha20 with a 4-byte little-endian counter and a 12-byte nonce in its IV. -/
def cipherBytes (alg ktype : Nat) (decrypt : Bool) (key start : List Byte) (keep : Nat) (pay : List Byte) : List Byte :=
  let n := pay.length
  if alg = 0x08 ∨ alg = 0x0D then (blocks16 pay).flatMap (blockFn ktype decrypt key)
  else if alg = 0x09 ∨ alg = 0x0E then
    if decrypt then cbcOpen ktype key start (blocks16 pay) else cbcSeal ktype key start (blocks16 pay)
  else if alg = 0x0A ∨ alg = 0x0F then xorBytes pay (keystream (fun k => blockFn ktype false key (ctrAdd start k)) 16 n)
  else if alg = 0x0C then xorBytes pay (keystream (fun k => chachaBlock key (start.drop 4) (ofLe (start.take 4) + k)) 64 n)
  else
    let h := key.length / 2
    flowBytes (.xts ktype decrypt) (fun p => [key.take h, key.drop h, start, p]) keep pay

/-- The chaining value after CIPHER: the last block of ciphertext for CBC, the next counter for CTR and ChaCha20. -/
def cipherChain (alg : Nat) (decrypt : Bool) (start pay out : List Byte) : List Byte :=
  let n := pay.length
  let ct := if decrypt then pay else out
  if alg = 0x09 ∨ alg = 0x0E then (if n = 0 then start else ct.drop (n - 16))
  else if alg = 0x0A ∨ alg = 0x0F then ctrAdd start (ceilDiv n 16)
  else if alg = 0x0C then leBytes 4 (ofLe (start.take 4) + ceilDiv n 64) ++ start.drop 4
  else []

/-- CIPHER: the length of the input, and A's bytes. -/
def cipherRun (x : Job) (i : W64) (ktype : Nat) (key : List Byte) : Res (Nat × Job × List OutW) :=
  bindRes (cipherHead x i) (fun h =>
  bindRes (lenIn h.2.2 (opd (wB i)) (wLen i)) (fun n =>
  bindRes (demand (cipherLenOk i n) .encoding) (fun _ =>
  bindRes (takeIn h.2.2 (opd (wB i)) (wLen i)) (fun pay =>
    let start := cipherStart h.1 h.2.1
    let out := cipherBytes (wAlg i) ktype (wDec i) key start (cipherKeep i n) pay.1
    bindRes (putOut pay.2 (opd (wA i)) true out) (fun o =>
      .ok (n, partNext o.1 i (cipherChain (wAlg i) (wDec i) start pay.1 out) [runLen (wAlg i) h.1 0 + n], o.2))))))

/-- How many output bytes of CIPHER stand. -/
def cipherStand (x : Job) (i : W64) : Nat :=
  match bindRes (cipherHead x i) (fun h => bindRes (lenIn h.2.2 (opd (wB i)) (wLen i)) (fun n =>
      .ok (flowStand (cipherKeep i n) n (payHere h.2.2 i n)))) with
  | .ok m => m
  | _ => 0

/-- CIPHER (R103). -/
def execCipher (lane : Fin 16) (cmp : Compare) (s : State) : Host.Outcome State Fault Refusal :=
  let l := lane.val
  match laneTask s l (isOp .cipher) with
  | none => .next s
  | some (j, i) =>
    let x := getJob s j
    let k := keyNum (wC i)
    if !issueOk x i then .next (endHard s j .encoding)
    else match keyFault s j k (bit (wDec i)) (wAlg i) (algTypes (wAlg i)) with
      | some st => .next (endKey s j k st)
      | none => .next (runFlow s l j cmp i (cipherStand x i) (cipherRun x i (keySlot s j k).ktype.toNat (keyBytes s j k)))

/-! ### XFORM (R104) -/

/-- The result of an XFORM function on `n` bytes. -/
def xformBytes (fn arg n : Nat) (b c : List Byte) : List Byte :=
  match fn with
  | 1 => xorBytes b c
  | 2 => b
  | 3 => beBytes n ((ofBe b + arg) % 256 ^ n)
  | 4 => b.reverse
  | _ => List.replicate n (BitVec.ofNat 8 arg)

/-- The number of a satchel designator. -/
def satNum (b : Nat) : Nat := b - 0x40

/-- XFORM on the job. -/
def xformRun (x : Job) (i : W64) : Res (Job × List OutW) :=
  let off := wParam i
  let n := len8 (wField2 i)
  bindRes (satRead x (satNum (wB i)) off n) (fun b =>
  bindRes (satRead x (satNum (wC i)) off n) (fun c =>
  bindRes (satWrite x (satNum (wA i)) off (xformBytes (wFn i) (wArg i) n b c)) (fun y => .ok (y, []))))

/-- XFORM (R104). -/
def execXform (lane : Fin 16) (cmp : Compare) (s : State) : Host.Outcome State Fault Refusal :=
  let l := lane.val
  match laneTask s l (isOp .xform) with
  | none => .next s
  | some (j, i) => .next (runPure s l j cmp (xformRun (getJob s j) i))

/-! ### MAC (R105) -/

/-- The expected tag that a verifying MAC reads from A. -/
def macExpected (x : Job) (i : W64) (n : Nat) : Res (List Byte × Job) :=
  match opd (wA i) with
  | .sat k => bindRes (satRead x k 0 n) (fun bs => .ok (bs, x))
  | .seg s k => takeStream x (8 * s + k) n
  | .src => takeStream x srcRead n
  | _ => .ok ([], x)

/-- The tag of MAC: GMAC is GCM with the message as AAD (its IV an IV of R91), KMAC takes the output length as an input. -/
def macTag (i : W64) (ktype : Nat) (key stt iv cust m : List Byte) (t : Nat) : List Byte :=
  let alg := wAlg i
  if alg = 0x1A then aeadTag (aeadAt i ktype key [stt, iv]) m [] [] t
  else if alg = 0x1B ∨ alg = 0x1C then stdBytes (.mac alg ktype) [key, cust, m, [BitVec.ofNat 8 t]] t
  else stdBytes (.mac alg ktype) [key, stt, m] t

/-- The running state after a part of MAC. -/
def macNext (x : Job) (i : W64) (ktype : Nat) (key stt iv m : List Byte) : Job :=
  if wAlg i = 0x1A then
    let p := aeadAt i ktype key [stt, iv]
    partNext x i (aeadChain p m []) (aeadLens p m [])
  else partNext x i (stdBytes (.part (wAlg i)) [key, stt, m] (chainLen (wAlg i))) [runLen (wAlg i) stt 0 + m.length]

/-- MAC on the job. -/
def macRun (x : Job) (i : W64) (ktype : Nat) (key : List Byte) : Res (Nat × Job × List OutW) :=
  let gmac := decide (wAlg i = 0x1A) && decide (wPart i < 2)
  let kmac := (decide (wAlg i = 0x1B) || decide (wAlg i = 0x1C)) && bIsSeg i
  bindRes (partState x i) (fun stt =>
  bindRes (if gmac then companion x (wMacIsat i) 6 4 i else .ok ([], x)) (fun iv =>
  bindRes (demand (!gmac || ivLenOk 0x1A iv.1.length) .encoding) (fun _ =>
  bindRes (if kmac then takeRest iv.2 (instOf (wB i)) else .ok ([], iv.2)) (fun cs =>
  bindRes (lenIn cs.2 (opd (wB i)) (wLen i)) (fun n =>
  bindRes (demand (partLenOk i n) .encoding) (fun _ =>
  bindRes (takeIn cs.2 (opd (wB i)) (wLen i)) (fun m =>
    let y := macNext m.2 i ktype key stt iv.1 m.1
    let t := macLen (wAlg i) (wTlen i)
    let tag := macTag i ktype key stt iv.1 cs.1 m.1 t
    if wPart i = 1 ∨ wPart i = 2 then .ok (m.1.length, y, [])
    else if wVerify i then
      bindRes (macExpected y i t) (fun e => .ok (m.1.length, noteVerify e.2 (decide (e.1 = tag)), []))
    else bindRes (putOut y (opd (wA i)) false tag) (fun o => .ok (m.1.length, o.1, o.2)))))))))

/-- MAC (R105). -/
def execMac (lane : Fin 16) (cmp : Compare) (s : State) : Host.Outcome State Fault Refusal :=
  let l := lane.val
  match laneTask s l (isOp .mac) with
  | none => .next s
  | some (j, i) =>
    let x := getJob s j
    let k := keyNum (wC i)
    if !issueOk x i then .next (endHard s j .encoding)
    else match keyFault s j k (if wVerify i then 3 else 2) (wAlg i) (algTypes (wAlg i)) with
      | some st => .next (endKey s j k st)
      | none => .next (runCounted s l j cmp (macRun x i (keySlot s j k).ktype.toNat (keyBytes s j k)))

/-! ### HASH (R106, R125) -/

/-- The digest length; SHAKE with OLEN 0 fills the rest of A, at most 65,536 bytes (R96). -/
def digestLen (x : Job) (i : W64) : Res Nat :=
  if !algShake (wAlg i) then .ok (hashLen (wAlg i))
  else if wOlen i ≠ 0 then .ok (wOlen i)
  else match opd (wA i) with
    | .seg s k => bindRes (restOf x (8 * s + k) (cursor x (8 * s + k))) (fun n => if 65536 < n then .hard .encoding else .ok n)
    | _ => .hard .encoding

/-- HASH of a message. -/
def hashRun (x : Job) (i : W64) : Res (Nat × Job × List OutW) :=
  bindRes (partState x i) (fun stt =>
  bindRes (lenIn x (opd (wB i)) (wLen i)) (fun n =>
  bindRes (demand (partLenOk i n) .encoding) (fun _ =>
  bindRes (takeIn x (opd (wB i)) (wLen i)) (fun m =>
    let args := [stt, m.1]
    let y := partNext m.2 i (stdBytes (.part (wAlg i)) args (chainLen (wAlg i))) [runLen (wAlg i) stt 0 + m.1.length]
    if wPart i = 1 ∨ wPart i = 2 then .ok (m.1.length, y, [])
    else
      bindRes (digestLen y i) (fun dl =>
      bindRes (putOut y (opd (wA i)) false (stdBytes (.hash (wAlg i)) args dl)) (fun o => .ok (m.1.length, o.1, o.2)))))))

/-- A verdict (R109): 16 zero bytes when valid, and otherwise bytes that are not all zero. -/
def verdict (f : StdFn) (args : List (List Byte)) : List Byte :=
  if Config.stdOk f args then zeros 16
  else
    let v := stdBytes f args 16
    if v = zeros 16 then 1 :: zeros 15 else v

/-- The link satchel S0. -/
def linkSat (x : Job) : List Byte := tread 0 x.sat 0 256

/-- The inputs that the SLH-DSA functions share: M′ from B, and for slh_fors and slh_vfors PK.seed ‖ PK.root from the IV companion (Table
4.17); the link carries what their followers need of it (DEDUCED, log entry 62). -/
def slhIn (x : Job) (i : W64) : Res (List Byte × List Byte × Job) :=
  bindRes (takeIn x (opd (wB i)) 0) (fun m =>
  bindRes (if wAlg i = 0x30 ∨ wAlg i = 0x32 then takeRest m.2 (32 + instOf (wB i)) else .ok ([], m.2)) (fun pk => .ok (m.1, pk.1, pk.2)))

/-- The SLH-DSA functions (R125); `rnd` is opt_rand. R125 gives the link in S0 no layout or length: the model writes the whole satchel
(DESIGN CHOICE, log entry 62). -/
def slhRun (x : Job) (i : W64) (key rnd : List Byte) : Res (Nat × Job × List OutW) :=
  let set := wOlen i
  let f := StdFn.slh (wAlg i) set
  bindRes (slhIn x i) (fun q =>
    let args := [key, rnd, q.1, q.2.1, if wAlg i = 0x31 ∨ wAlg i = 0x33 then linkSat x else []]
    let y := q.2.2
    let n := q.1.length
    match wAlg i with
    | 0x30 =>
      bindRes (putOut y (opd (wA i)) false (stdBytes f args (slhForsLen set))) (fun o =>
        .ok (n, { o.1 with sat := tfill 0 o.1.sat 0 (stdBytes (.slh 0x34 set) args 256) }, o.2))
    | 0x31 => bindRes (putOut y (opd (wA i)) false (stdBytes f args (slhHtLen set))) (fun o => .ok (n, o.1, o.2))
    | 0x32 =>
      bindRes (takeStream y (24 + instOf (wB i)) (slhForsLen set)) (fun sg =>
        .ok (n, { sg.2 with sat := tfill 0 sg.2.sat 0 (stdBytes f (args ++ [sg.1]) 256) }, []))
    | _ =>
      bindRes (takeStream y (24 + instOf (wB i)) (slhHtLen set)) (fun sg =>
      bindRes (putOut sg.2 (opd (wA i)) false (verdict f (args ++ [sg.1]))) (fun o => .ok (n, o.1, o.2))))

/-- The key of an SLH-DSA signing function: type 0x1C, of the length of its SET (R125). -/
def slhKeyFault (s : State) (j : Nat) (i : W64) : Option Status :=
  let k := keyNum (wC i)
  match keyFault s j k 5 (wAlg i) (fun t => decide (t = 0x1C)) with
  | some st => some st
  | none => if (keySlot s j k).klen = 2 * (slhParam (wOlen i)).1 then none else some .keyUsage

/-- HASH (R106, R125). -/
def execHash (lane : Fin 16) (cmp : Compare) (s : State) : Host.Outcome State Fault Refusal :=
  let l := lane.val
  match laneTask s l (isOp .hash) with
  | none => .next s
  | some (j, i) =>
    let x := getJob s j
    if x.wait ≠ .nothing then .next s
    else if !issueOk x i then .next (endHard s j .encoding)
    else if algFamily (wAlg i) ≠ .slh then .next (runCounted s l j cmp (hashRun x i))
    else if wAlg i = 0x30 ∨ wAlg i = 0x31 then
      match slhKeyFault s j i with
      | some st => .next (endKey s j (keyNum (wC i)) st)
      | none =>
        let key := keyBytes s j (keyNum (wC i))
        if wAlg i = 0x31 then .next (runCounted s l j cmp (slhRun x i key []))
        else
          .next (goOn s j (slhRun x i key []) (fun _ =>
            withDraw s l j (slhParam (wOlen i)).1 (fun rnd s => runCounted s l j cmp (slhRun (getJob s j) i key rnd))))
    else .next (runCounted s l j cmp (slhRun x i [] []))

/-! ### CMP (R107) -/

/-- The two operands of CMP (R89). -/
def cmpIn (x : Job) (i : W64) : Res (List Byte × List Byte × Job) :=
  let n := wLen i
  match opd (wA i), opd (wB i) with
  | .sat a, .sat b => bindRes (satRead x a 0 n) (fun p => bindRes (satRead x b 0 n) (fun q => .ok (p, q, x)))
  | .sat a, d => bindRes (satRead x a 0 n) (fun p => bindRes (takeIn x d n) (fun q => .ok (p, q.1, q.2)))
  | d, .sat b =>
    bindRes (lenIn x d n) (fun m =>
    bindRes (demand (decide (m ≤ 256)) .encoding) (fun _ =>
    bindRes (takeIn x d n) (fun p => bindRes (satRead p.2 b 0 m) (fun q => .ok (p.1, q, p.2)))))
  | d, e =>
    bindRes (lenIn x d n) (fun m =>
    bindRes (takeIn x d n) (fun p =>
      if m = 0 then .ok (p.1, [], p.2) else bindRes (takeIn p.2 e m) (fun q => .ok (p.1, q.1, q.2))))

/-- CMP on the job. -/
def cmpRun (x : Job) (i : W64) : Res (Job × List OutW) :=
  bindRes (cmpIn x i) (fun q =>
    let y := q.2.2
    let r := flagsCompare y.flags y.pend (decide (q.1 = q.2.1))
    .ok ({ y with flags := r.1, pend := r.2 }, []))

/-- CMP (R107). -/
def execCmp (lane : Fin 16) (cmp : Compare) (s : State) : Host.Outcome State Fault Refusal :=
  let l := lane.val
  match laneTask s l (isOp .cmp) with
  | none => .next s
  | some (j, i) =>
    let x := getJob s j
    if !issueOk x i then .next (endHard s j .encoding) else .next (runPure s l j cmp (cmpRun x i))

/-! ### RAND, MOVE, LOADS, STORES (R115, R116) -/

/-- RAND (R115). -/
def execRand (lane : Fin 16) (cmp : Compare) (s : State) : Host.Outcome State Fault Refusal :=
  let l := lane.val
  match laneTask s l (isOp .rand) with
  | none => .next s
  | some (j, i) =>
    let x := getJob s j
    if x.wait ≠ .nothing then .next s
    else if !issueOk x i then .next (endHard s j .encoding)
    else
      .next (goOn s j (roomFor x (opd (wA i)) (wLen i)) (fun _ =>
        withDraw s l j (wLen i) (fun bs s => runPure s l j cmp (putOut (getJob s j) (opd (wA i)) false bs))))

/-- MOVE on the job. -/
def moveRun (x : Job) (i : W64) : Res (Job × List OutW) :=
  bindRes (takeIn x (opd (wB i)) (wLen i)) (fun b => putOut b.2 (opd (wA i)) false b.1)

/-- How many bytes of MOVE's output have arrived. -/
def moveStand (x : Job) (i : W64) : Nat :=
  match lenIn x (opd (wB i)) (wLen i) with
  | .ok n => payHere x i n
  | _ => 0

/-- MOVE (R116). -/
def execMove (lane : Fin 16) (cmp : Compare) (s : State) : Host.Outcome State Fault Refusal :=
  let l := lane.val
  match laneTask s l (isOp .move) with
  | none => .next s
  | some (j, i) =>
    let x := getJob s j
    if !issueOk x i then .next (endHard s j .encoding)
    else .next (goFlow s l j cmp i (moveStand x i) id (moveRun x i) (fun q => runPure s l j cmp (.ok q)))

/-- LOADS on the job: satchel bounds first (R60). -/
def loadsRun (x : Job) (i : W64) : Res (Job × List OutW) :=
  let off := wFn i
  let n := len8 (wParam i)
  if 256 < off + n then .hard .encoding
  else bindRes (takeIn x (opd (wB i)) n) (fun b => bindRes (satWrite b.2 (satNum (wA i)) off b.1) (fun y => .ok (y, [])))

/-- LOADS (R116). -/
def execLoads (lane : Fin 16) (cmp : Compare) (s : State) : Host.Outcome State Fault Refusal :=
  let l := lane.val
  match laneTask s l (isOp .loads) with
  | none => .next s
  | some (j, i) =>
    let x := getJob s j
    if !issueOk x i then .next (endHard s j .encoding) else .next (runPure s l j cmp (loadsRun x i))

/-- STORES on the job. -/
def storesRun (x : Job) (i : W64) : Res (Job × List OutW) :=
  bindRes (satRead x (satNum (wB i)) (wFn i) (len8 (wParam i))) (fun b => putOut x (opd (wA i)) false b)

/-- STORES (R116). -/
def execStores (lane : Fin 16) (cmp : Compare) (s : State) : Host.Outcome State Fault Refusal :=
  let l := lane.val
  match laneTask s l (isOp .stores) with
  | none => .next s
  | some (j, i) =>
    let x := getJob s j
    if !issueOk x i then .next (endHard s j .encoding) else .next (runPure s l j cmp (storesRun x i))

/-! ### Control flow -/

/-- BRANCH on the job (R75): CLR acts after the condition is evaluated. -/
def branchJob (x : Job) (i : W64) : Job :=
  let taken := branchTaken x.flags (wA i) (wB i % 4)
  let x := if tb i 23 then { x with flags := flagsClear x.flags, pend := .done } else x
  { x with pos := if taken then x.pos + wImm i else x.pos }

/-- BRANCH (R75). -/
def execBranch (lane : Fin 16) (cmp : Compare) (s : State) : Host.Outcome State Fault Refusal :=
  let l := lane.val
  match laneTask s l (isOp .branch) with
  | none => .next s
  | some (j, i) => .next (complete (modJob s j (fun x => branchJob x i)) l j cmp)

/-- FENCE (R117). -/
def execFence (lane : Fin 16) (cmp : Compare) (s : State) : Host.Outcome State Fault Refusal :=
  let l := lane.val
  match laneTask s l (isOp .fence) with
  | none => .next s
  | some (j, _) => if writesDone s j then .next (complete s l j cmp) else .next s

/-- A lane EVENT adds one count to its sink, from the next SINK_COUNT on (R316). -/
def laneEvent (s : State) (sink : Nat) : State := upRelay s (fun r => { r with laneAdds := tmod 0 r.laneAdds sink (fun n => n + 1) })

/-- EVENT (R118): the wait first, then on a yoke SINK is compared (R172). -/
def execEvent (lane : Fin 16) (cmp : Compare) (s : State) : Host.Outcome State Fault Refusal :=
  let l := lane.val
  match laneTask s l (isOp .event) with
  | none => .next s
  | some (j, i) =>
    if !writesDone s j then .next s
    else if itemDiffers s l cmp 5 then .next (yokeMismatch s l j 5)
    else .next (complete (laneEvent s (immF i 0 9)) l j cmp)

/-- END (R76), and the end of the program: the job ends with its pending status. On a yoke the progress is compared (R172). -/
def execEndI (lane : Fin 16) (cmp : Compare) (s : State) : Host.Outcome State Fault Refusal :=
  let l := lane.val
  match (getLane s l).run with
  | none => .next s
  | some j =>
    let x := getJob s j
    if x.isOver || (getLane s l).preempt || laneHeld s l || !jobMoves s l j then .next s
    else if progLen s x ≤ x.pos || isOp .endW (instrAt s x x.pos) then
      let s := modJob s j (fun x => { x with isOver := true, status := x.pend })
      .next (if progressDiffers s l cmp then yokeMismatch s l j 6 else s)
    else .next s

/-! ### STREAM (R100, R161 to R167) -/

/-- The fragment that STREAM moves: the next one of its stream, 128 bytes and 128-byte aligned. -/
def lineOf (x : Job) (st : Nat) : Res Piece :=
  match (pieces x st).find? (fun p => decide (cursor x st < p.off + p.len)) with
  | some p => if p.off = cursor x st ∧ p.len = 128 ∧ p.addr % 128 = 0 then .ok p else .hard .manifestFault
  | none => if manWhole x then .hard .manifestFault else .man []

/-- ADDR ‖ TENANT of a line (R162). -/
def lineAd (addr : Nat) (t : BitVec 12) : List Byte := leBytes 8 addr ++ leBytes 2 t.toNat

/-- TAG over bytes 0 to 111. -/
def lineTag (ckt : List Byte) (addr : Nat) (t : BitVec 12) (body : List Byte) : List Byte :=
  stdBytes (.kmac256 "SPN-CTX-T") [ckt, lineAd addr t ++ body] 16

/-- STATE is sealed and unsealed by the same pad. -/
def linePad (cke : List Byte) (addr : Nat) (t : BitVec 12) (nonce state : List Byte) : List Byte :=
  xorBytes state (stdBytes (.kmac256 "SPN-CTX-E") [cke, nonce ++ lineAd addr t] 80)

/-- The poison pattern (R166). -/
def poison : List Byte := List.replicate 16 0xA5

/-- The checks of R164; none: the line passes. -/
def lineFault (ckt : List Byte) (addr : Nat) (t : BitVec 12) (line : List Byte) : Option Status :=
  let alg := ofLe (slice line 1 1)
  let step := ofLe (slice line 2 1)
  if slice line 112 16 = poison then some .contextPoisoned
  else if slice line 112 16 ≠ lineTag ckt addr t (line.take 112) || ofLe (line.take 1) ≠ 1 then some .contextTamper
  else if !(alg = 0 || algPart alg) || step = 3 || (step = 0 && alg ≠ 0) then some .contextTamper
  else none

/-- CK-E ‖ CK-T as the lane's context unit keeps them for a job, 32 bytes each; empty before the job's first STREAM. -/
def ctxOf (s : State) (l j : Nat) : List Byte := tget [] (getLane s l).ctxKeys j

/-- The context keys of the job's tenant are at hand from its first STREAM on (R163): the tenant record comes first (R182). -/
def withCtx (s : State) (l j : Nat) (k : State → List Byte → List Byte → State) : State :=
  let t := jobTenant s j
  let kept := ctxOf s l j
  if kept ≠ [] then k s (kept.take 32) (kept.drop 32)
  else if !ownerHeld s then endHard s j .baleRevoked
  else match recordUse s j with
    | .miss => wantRecord s j
    | .conflict s => endHard s j .keyConflict
    | .here bs sr =>
      match useCtxKeys sr t (parseRecord bs).epoch with
      | .waits bits => waitWay s bits
      | .fails st s => endHard s j st
      | .got ks s => k (modLane s l (fun n => { n with ctxKeys := tset [] n.ctxKeys j ks })) (ks.take 32) (ks.drop 32)

/-- The job of a lane with a STREAM instruction of one operation, when it waits for nothing. -/
def streamTask (s : State) (l op : Nat) : Option (Nat × W64) :=
  match laneTask s l (fun i => isOp .stream i && immF i 0 2 = op) with
  | some (j, i) => if (getJob s j).wait = .nothing then some (j, i) else none
  | none => none

/-- The context stream that A names. -/
def ctxStream (i : W64) : Nat := 40 + instOf (wA i)

/-- A line that does not verify (R166): it is poisoned, and the job ends once the write is acknowledged. -/
def poisonLine (s : State) (l j : Nat) (c : Compare) (p : Piece) : State :=
  let x := getJob s j
  if itemDiffers s l c 2 then yokeMismatch s l j 2
  else
    let s := emitFor s l 3 0x201 Status.contextTamper.code (w32 x.ring :: w32 (e0Tag x.word0) :: loHi (w64 p.addr))
    let s := modJob s j (fun x => { x with wait := .poison })
    issueAccess s (.poison j) (jobAttr s j p.ns p.rlx) (w64 (p.addr + 112)) 16 (some poison)

/-- A checked read of the line: `k` goes on with the context keys, the line's bytes and the job after the read. -/
def readLine (s : State) (l j : Nat) (i : W64) (c : Compare)
    (k : State → Piece → List Byte × List Byte → List Byte → Job → State) : State :=
  let x := getJob s j
  let st := ctxStream i
  if !issueOk x i then endHard s j .encoding
  else goOn s j (lineOf x st) (fun p =>
    withCtx s l j (fun s cke ckt =>
      goOn s j (takeStream (getJob s j) st 128) (fun b =>
        match lineFault ckt p.addr (jobTenant s j) b.1 with
        | none => k s p (cke, ckt) b.1 b.2
        | some .contextTamper => poisonLine s l j c p
        | some e => endHard s j e)))

/-- What LOAD makes of a good line: the running state and USER. -/
def loadLine (y : Job) (cke : List Byte) (addr : Nat) (t : BitVec 12) (line : List Byte) : Job :=
  let alg := ofLe (slice line 1 1)
  { y with
    run := if alg = 0 then none
      else some { alg := alg, step := ofLe (slice line 2 1), bytes := linePad cke addr t (slice line 4 12) (slice line 32 80)
                  loaded := true }
    user := slice line 16 16 }

/-- STREAM LOAD (R164). -/
def execStreamLoad (lane : Fin 16) (cmp : Compare) (s : State) : Host.Outcome State Fault Refusal :=
  let l := lane.val
  match streamTask s l 1 with
  | none => .next s
  | some (j, i) =>
    .next (readLine s l j i cmp (fun s p ks line y =>
      commit s l j cmp (loadLine y ks.1 p.addr (jobTenant s j) line) []))

/-- A whole line is written as one aligned 128-byte write (R161). -/
def writeLine (s : State) (l j : Nat) (c : Compare) (p : Piece) (y : Job) (body ckt : List Byte) : State :=
  if jobLost s j then endHard s j .hostLost
  else if itemDiffers s l c 2 then yokeMismatch s l j 2
  else
    let line := body ++ lineTag ckt p.addr (jobTenant s j) body
    let s := modJob s j (fun _ => y)
    complete (issueAccess s (.jobWrite j y.pos) (jobAttr s j p.ns p.rlx) (w64 p.addr) 128 (some line)) l j c

/-- Bytes 0 to 111 of the line that SAVE writes (R167). -/
def saveBody (x : Job) (cke nonce : List Byte) (addr : Nat) (t : BitVec 12) : List Byte :=
  let (alg, step, bytes) := match x.run with
    | some r => (r.alg, r.step, r.bytes)
    | none => (0, 0, [])
  leBytes 1 1 ++ leBytes 1 alg ++ leBytes 1 step ++ zeros 1 ++ nonce ++ padTo 16 x.user ++ linePad cke addr t nonce (padTo 80 bytes)

/-- STREAM SAVE (R167). -/
def execStreamSave (lane : Fin 16) (cmp : Compare) (s : State) : Host.Outcome State Fault Refusal :=
  let l := lane.val
  match streamTask s l 2 with
  | none => .next s
  | some (j, i) =>
    let x := getJob s j
    let st := ctxStream i
    if !issueOk x i then .next (endHard s j .encoding)
    else
      .next (goOn s j (lineOf x st) (fun p =>
        withCtx s l j (fun s cke ckt =>
          withDraw s l j 12 (fun nonce s =>
            let x := getJob s j
            writeLine s l j cmp p (advJob x st 128) (saveBody x cke nonce p.addr (jobTenant s j)) ckt))))

/-- The line with LEN bytes of satchel B merged at OFF (R165). -/
def mergeLine (x : Job) (i : W64) (line : List Byte) : List Byte :=
  let off := wParam i
  let n := wField2 i
  line.take off ++ tread 0 x.sat (256 * satNum (wB i) + off) n ++ slice line (off + n) (112 - off - n)

/-- STREAM UPDATE (R165): NONCE, the sealed STATE and the running state stay. -/
def execStreamUpdate (lane : Fin 16) (cmp : Compare) (s : State) : Host.Outcome State Fault Refusal :=
  let l := lane.val
  match streamTask s l 3 with
  | none => .next s
  | some (j, i) =>
    .next (readLine s l j i cmp (fun s p ks line y => writeLine s l j cmp p y (mergeLine y i line) ks.2))

end Sys2Proof.Machine
end

