-- ==== Sys2Proof/Machine/House.lean ====
section
/-! DEFINITION. The Counting House: PKOP and the ends of bench operations (R108 to R110, R236 to R247), direct commands (R249, R250),
aborts, leases and faults (R244 to R248, R252, R253). -/

namespace Sys2Proof.Machine

/-! ### Public inputs (Table 9.2) -/

/-- The variable input of a satchel: the frame that follows the fixed part (R90, R239). -/
def satFrame (x : Job) (n off : Nat) : Res (List Byte) :=
  if 256 < off + 2 then .hard .encoding
  else
    let m := ofLe (tread 0 x.sat (256 * n + off) 2)
    if 254 < m then .hard .encoding else satRead x n (off + 2) m

/-- The public input B of a PKOP (R239): fixed part, then the variable part. -/
def pkInput (x : Job) (i : W64) : Res (List Byte × List Byte × Job) :=
  let fixed := (pkFixed (wFn i) (wParam i) (wLen i)).sum
  match opd (wB i), pkVar (wFn i) (wParam i) (wLen i) with
  | .sat n, none => bindRes (satRead x n 0 fixed) (fun f => .ok (f, [], x))
  | .sat n, some top =>
    bindRes (satRead x n 0 fixed) (fun f =>
    bindRes (satFrame x n fixed) (fun m => if top < m.length then .hard .encoding else .ok (f, m, x)))
  | .seg s k, none => bindRes (takeStream x (8 * s + k) fixed) (fun f => .ok (f.1, [], f.2))
  | .seg s k, some top =>
    let st := 8 * s + k
    bindRes (takeStream x st fixed) (fun f =>
    bindRes (restOf f.2 st (cursor f.2 st)) (fun r =>
    if top < r then .hard .encoding
    else bindRes (takeStream f.2 st r) (fun m => .ok (f.1, m.1, m.2))))
  | _, _ => .ok ([], [], x)

/-! ### Keys (Tables 4.2, 4.3) -/

/-- The rights of which the key must have one; none: the function takes no key. -/
def pkRights (fn : Nat) : List Nat :=
  if fn = 0x01 ∨ fn = 0x02 ∨ fn = 0x09 ∨ (0x10 ≤ fn ∧ fn ≤ 0x12) ∨ fn = 0x20 ∨ fn = 0x22 then [5]
  else if fn = 0x06 then [1]
  else if (0x18 ≤ fn ∧ fn ≤ 0x1A) ∨ fn = 0x24 ∨ fn = 0x25 then [6]
  else if (0x1C ≤ fn ∧ fn ≤ 0x1E) ∨ fn = 0x26 then [5, 6]
  else []

/-- The key type. -/
def pkType (fn p : Nat) : Nat :=
  if fn ≤ 0x09 then 0x18
  else if 0x10 ≤ fn ∧ fn ≤ 0x12 then fn
  else if 0x18 ≤ fn ∧ fn ≤ 0x1A then fn - 8
  else if 0x1C ≤ fn ∧ fn ≤ 0x1E then fn - 0x0C
  else if fn = 0x20 then 0x13
  else if fn = 0x22 then 0x14
  else if fn = 0x24 then 0x15
  else if fn = 0x25 then 0x16
  else 0x12 + p

/-- Where the key use of a PKOP fails; public-key derivation takes either of its two rights. -/
def pkKeyFault (s : State) (j k fn p : Nat) : Option Status :=
  match pkRights fn with
  | [] => none
  | r :: rs =>
    let f := fun (r : Nat) => keyFault s j k r fn (fun t => decide (t = pkType fn p))
    match f r, rs with
    | some .keyUsage, r' :: _ => f r'
    | o, _ => o

/-- A field of the material of the RSA key that bench `b` holds (R241). -/
def rsaField (s : State) (b off n : Nat) : Nat := ofLe (readBytes (getBench s b).mem (0x8000 + off) n)

/-- NLEN equals the modulus length of an RSA key (R239). -/
def rsaLenOk (s : State) (j k fn n : Nat) : Bool :=
  !(fn = 0x01 || fn = 0x02 || fn = 0x06 || fn = 0x09) ||
  (match holdingOf s (keyReg s j k) with
   | some b => rsaField s b 0 2 = n
   | none => false)

/-! ### Leases (R244, R245) -/

/-- R245 step 1: the fields that a lease token must have. -/
def tokenOk (bs : List Byte) : Bool :=
  let t := w64 (ofLe (bs.take 8))
  fld t 48 16 = 0 && fld t 0 8 ≤ 7 && fld t 8 8 ≤ 31

/-! ### The queue (R236, R237) -/

/-- The request leaves the queue. -/
def unqueueReq (s : State) (t : Nat) : State := upHouse s (fun h => { h with queue := h.queue.filter (fun r => r.ticket ≠ t) })

/-- What ends a request that a bench accepts: a key whose slot has died since its issue (R227), or its lease (R245). -/
def acceptFault (s : State) (r : PkReq) : Option Status :=
  if r.key.any (fun k => !keyStands s r.who k) then some (if r.who = .lane then .keyConflict else .pkAborted)
  else if r.fn = 0x29 then leaseFault s r
  else none

/-- The first queued request that a bench can take goes to it; none: no bench can take any. -/
def houseNext (s : State) : Option State :=
  match s.house.queue.find? (fun r => (placeRequest s r).isSome) with
  | none => none
  | some r =>
    let s' := unqueueReq s r.ticket
    match placeRequest s r with
    | none => none
    | some b =>
      match acceptFault s r with
      | some st => some (requestFails s' r.who r.job st)
      | none => some (benchStart s' b (if r.fn = 0x29 then { r with cell := fld (w64 (ofLe (r.input.take 8))) 8 8 } else r))

/-- The benches are offered to the queue, in queue order (R236). -/
def houseOffer : Nat → State → State
  | 0, s => s
  | fuel + 1, s =>
    match houseNext s with
    | none => s
    | some s' => houseOffer fuel s'

/-- Offer every free bench. -/
def offerBenches (s : State) : State := houseOffer s.house.queue.length s

/-! ### Results -/

/-- The exponent `e` of at most `k` bits: `b` to the power `e` modulo `m`. -/
def powMod (m : Nat) : Nat → Nat → Nat → Nat
  | 0, _, _ => 1 % m
  | k + 1, b, e =>
    let r := powMod m k (b * b % m) (e / 2)
    if e % 2 = 1 then b * r % m else r

/-- FN 0x09 by CRT recombination of the material of R241. -/
def crtExp (m : List Byte) (base : Nat) : Nat :=
  let b := fun o n => ofLe (slice m o n)
  let n := b 0 2
  let hp := b 2 2
  let hq := b 4 2
  let oP := 16 + 8 * n
  let oQ := oP + 8 * hp
  let oDp := oQ + 8 * hq
  let oDq := oDp + 8 * hp
  let oI := oDq + 8 * hq
  let p := b oP (8 * hp)
  let q := b oQ (8 * hq)
  let m1 := powMod p (64 * hp) (base % p) (b oDp (8 * hp))
  let m2 := powMod q (64 * hq) (base % q) (b oDq (8 * hq))
  m2 + ((m1 + p - m2 % p) * b oI (8 * hp) % p) * q

/-- What a bench operation returns. -/
inductive PkResult where
  /-- bytes for A; `framed`: a message, which a satchel takes as a frame -/
  | bytes (bs : List Byte) (framed : Bool)
  /-- a shared secret for the key register A -/
  | secret (key : List Byte)
  /-- R240: nothing is written -/
  | bad

/-- The public key of a curve code, and the agreement with a peer. -/
def codePublic (code : Nat) (priv : List Byte) : List Byte :=
  if code ≤ 3 then stdBytes (.pkop (0x1B + code) 0) [priv, [], []] (codeLen code)
  else stdBytes (.pkop 0x26 (code - 1)) [priv, [], []] (codeLen code)

/-- The function that agrees on a curve code. -/
def agreeFn (code : Nat) : Nat := if code ≤ 3 then 0x17 + code else 0x20 + code

/-- The length of the shared secret of an agreement function: P-521 gives the KDF's 64 bytes (R239). -/
def secretLen (fn : Nat) : Nat := if fn = 0x18 ∨ fn = 0x24 then 32 else if fn = 0x19 then 48 else if fn = 0x1A then 64 else 56

/-- An agreement: the peer must be valid, and an X25519 or X448 result not zero (R240). -/
def agree (fn : Nat) (priv peer : List Byte) : PkResult :=
  let k := stdBytes (.pkop fn 0) [priv, peer, []] (secretLen fn)
  if !Config.stdOk (.pkop fn 0) [priv, peer, []] then .bad
  else if (fn = 0x24 ∨ fn = 0x25) ∧ k.all (fun b => b = 0) then .bad
  else .secret k

/-- R239: the public exponent is odd and at least 3. -/
def expOk (e : Nat) : Bool := e % 2 = 1 && 3 ≤ e

/-- A verdict of which one condition can be computed here. -/
def verdictIf (c : Bool) (f : StdFn) (args : List (List Byte)) : List Byte :=
  if c then verdict f args
  else
    let v := stdBytes f args 16
    if v = zeros 16 then 1 :: zeros 15 else v

/-- The result of a request with the key bytes `key` and the randomness `rnd` (R239, R240, Table 4.7); FN 0x28 apart. -/
def pkResult (r : PkReq) (key rnd : List Byte) : PkResult :=
  let k := 8 * r.nlen
  let f := StdFn.pkop r.fn r.param
  let args := [key, r.input, rnd]
  let le := fun o n => ofLe (slice r.input o n)
  let be := fun o n => ofBe (slice r.input o n)
  let n := be 0 k
  if r.fn = 0x08 then
    let base := le 0 k
    let m := le (2 * k) k
    if m % 2 = 0 ∨ m ≤ base then .bad else .bytes (leBytes k (powMod m (64 * r.nlen) base (le k k))) false
  else if r.fn = 0x09 then
    let base := le 0 k
    let m := ofLe (slice key 16 k)
    if m % 2 = 0 ∨ m ≤ base then .bad else .bytes (leBytes k (crtExp key base)) false
  else if r.fn = 0x03 ∨ r.fn = 0x04 then
    .bytes (verdictIf (expOk (be k 8) && decide (be (k + 8) k < n)) f args) false
  else if (0x14 ≤ r.fn ∧ r.fn ≤ 0x16) ∨ r.fn = 0x21 ∨ r.fn = 0x23 then .bytes (verdict f args) false
  else if r.fn = 0x05 then
    if !(expOk (be k 8) && decide (n % 2 = 1)) then .bad else .bytes (stdBytes f args k) false
  else if r.fn = 0x06 then
    if ofLe (slice key 16 k) ≤ n ∨ !Config.stdOk f args then .bad
    else .bytes (stdBytes f args (Config.stdNat f args % (k - 2 * pkHash r.param - 1))) true
  else if (0x18 ≤ r.fn ∧ r.fn ≤ 0x1A) ∨ r.fn = 0x24 ∨ r.fn = 0x25 then agree r.fn key r.input
  else if r.fn = 0x29 then agree (agreeFn (r.param % 128)) key (r.input.drop 8)
  else .bytes (stdBytes f args ((pkOutLen r.fn r.param r.nlen).getD 0)) false

/-- FN 0x28 (R244): the private key is made in the lease cell, and the cell goes live. -/
def leaseMake (s : State) (b : Nat) (r : PkReq) (rnd : List Byte) : PkResult × State :=
  let code := r.param
  let priv := stdBytes (.pkop 0x28 code) [[], [], rnd] (privLen code)
  let c := tget {} (getBench s b).cells r.cell
  let ttl := Nat.max 1 s.house.leaseTtl.toNat
  let s := modBench s b (fun x => { x with
    mem := tfill 0 x.mem (0xF000 + 128 * r.cell) (padTo 128 (limbBytes (decide (code ≤ 3)) priv))
    cells := tset {} x.cells r.cell
      { live := true, gen := c.gen, curve := code, ring := r.ring, tenant := r.tenant, deadline := s.cycle + 500 * ttl } })
  let s := upHouse s (fun h => { h with leaseIssued := h.leaseIssued + 1 })
  (.bytes (codePublic code priv ++ leBytes 8 (b + 256 * r.cell + 65536 * c.gen.toNat)) false, s)

/-- R245: FN 0x29 releases its lease unless KEEP is set; a lease that has ended since is not returned. -/
def leaseReturn (s : State) (b : Nat) (r : PkReq) : State :=
  let gen := fld (w64 (ofLe (r.input.take 8))) 16 32
  let c := tget {} (getBench s b).cells r.cell
  if r.param.testBit 7 || !c.live || c.gen.toNat ≠ gen then s
  else
    let s := modBench s b (fun x => { x with
      cells := tset {} x.cells r.cell { gen := c.gen + 1 }
      mem := tfill 0 x.mem (0xF000 + 128 * r.cell) (zeros 128) })
    upHouse s (fun h => { h with leaseReturned := h.leaseReturned + 1 })

/-! ### Delivery -/

/-- The slot of a shared secret (R191). -/
def secretSlot : SlotRec := { usage := 0x1F10, ktype := 0x20, notAfter := 0xFFFFFFFFFF#40 }

/-- A job's result bytes go to A. -/
def deliverBytes (s : State) (l j : Nat) (c : Compare) (i : W64) (framed : Bool) (bs : List Byte) : State :=
  runPure s l j c (putOut (getJob s j) (opd (wA i)) framed bs)

/-- A key made for a job is in the Serai's keeping until its register can take it: no save slot ever holds it (R138, R158). -/
def incomingKey (s : State) (j : Nat) : List Byte := tget [] s.serai.incoming j

/-- The key passes on. -/
def takeIncoming (s : State) (j : Nat) : State := upSerai s (fun x => { x with incoming := terase x.incoming j })

/-- The result of an operation is there: a key for the Serai, bytes for the job. -/
def keepParts (s : State) (j : Nat) (key bs : List Byte) : State :=
  modJob (upSerai s (fun x => { x with incoming := tset [] x.incoming j key })) j (fun x => { x with kept := some bs })

/-- The instruction's result is delivered to its operand A: bytes kept with the job, or a shared secret, which waits for the fresh mask of
its slot's group (R223). -/
def pkDeliver (s : State) (l j : Nat) (c : Compare) (i : W64) (bs : List Byte) : State :=
  if accepts (wA i) [.k] then
    loadPrivate s (takeIncoming s j) l j c (keyNum (wA i)) none secretSlot (incomingKey s j) (fun s => complete s l j c)
  else deliverBytes s l j c i (decide (wFn i = 0x06)) bs

/-- The result of an operation is kept, and delivered at once if the job is in execution and its lane goes on (R138). -/
def keepResult (s : State) (j : Nat) (c : Compare) (key bs : List Byte) : State :=
  let s := keepParts s j key bs
  match (getJob s j).seat with
  | .running l =>
    match laneTask s l (isOp .pkop) with
    | some (k, i) => if k = j then pkDeliver s l j c i bs else s
    | none => s
  | _ => s

/-! ### PKOP -/

/-- The input of a PKOP, when A has room for its output (R74). -/
def pkReady (x : Job) (i : W64) : Res (List Byte × List Byte × Job) :=
  bindRes (pkInput x i) (fun q =>
  bindRes (match pkOutLen (wFn i) (wParam i) (wLen i) with
    | some n => roomFor q.2.2 (opd (wA i)) n
    | none => .ok ()) (fun _ => .ok q))

/-- A PKOP that passes its checks is queued (R108, R236). -/
def pkQueue (s : State) (l j : Nat) (i : W64) (c : Compare) (q : List Byte × List Byte × Job) : State :=
  let fn := wFn i
  if fn = 0x29 && !tokenOk q.1 then endHard s j .encoding
  else if pkDraws fn && !wellCan s then endHard (wellDeny s) j .entropyFail
  else if itemDiffers s l c 4 then yokeMismatch s l j 4
  else
    let t := s.house.nextTicket
    let r : PkReq := {
      ticket := t, job := j, ring := (getJob s j).ring, tenant := jobTenant s j, fn := fn, param := wParam i, nlen := wLen i
      input := q.1 ++ q.2.1, key := if pkRights fn = [] then none else keyReg s j (keyNum (wC i)), cmp := c }
    let s := modJob s j (fun _ => { q.2.2 with wait := .bench t })
    offerBenches (wakeRow (queuePk s r))

/-- PKOP (R108): queued, and then held until the result returns; a result that came while the job was saved is delivered. -/
def execPkop (lane : Fin 16) (cmp : Compare) (s : State) : Host.Outcome State Fault Refusal :=
  let l := lane.val
  match laneTask s l (isOp .pkop) with
  | none => .next s
  | some (j, i) =>
    let x := getJob s j
    let k := keyNum (wC i)
    match x.kept with
    | some bs => .next (pkDeliver s l j cmp i bs)
    | none =>
      if x.wait ≠ .nothing then .next s
      else if !issueOk x i then .next (endHard s j .encoding)
      else match pkKeyFault s j k (wFn i) (wParam i) with
        | some st => .next (endKey s j k st)
        | none =>
          if !(rsaLenOk s j k (wFn i) (wLen i) && oaepRoom (wFn i) (wParam i) (wLen i)) then .next (endHard s j .encoding)
          else .next (goOn s j (pkReady x i) (pkQueue s l j i cmp))

/-! ### BENCH_OP_DONE -/

/-- R235: the secret working area is zeroed, except a holding that its job still holds. -/
def benchScrub (s : State) (b : Nat) : State :=
  modBench s b (fun x => { x with
    mem := x.mem.filter (fun kv => kv.1 < 0x8000 || 0xF000 ≤ kv.1 || (x.holder.isSome && kv.1 < 0x8000 + x.holdLen)) })

/-- The request works with the holding of its bench: it has brought no key of its own. -/
def runsHeld (r : PkReq) : Bool := r.key.isSome && r.klen = 0

/-- The key bytes that the running request works with. -/
def runKey (s : State) (b : Nat) (r : PkReq) : List Byte :=
  if runsHeld r then readBytes (getBench s b).mem 0x8000 (getBench s b).holdLen
  else limbOctets (octetsBig r.fn r.param) r.klen (readBytes (getBench s b).mem r.keyAt r.klen)

/-- The public-key cycles of the request (R242). -/
def runTime (s : State) (b : Nat) (r : PkReq) : Nat :=
  let held := runsHeld r
  let msg := r.input.length - (pkFixed r.fn r.param r.nlen).sum
  pkTime r.fn r.param r.nlen (if held then rsaField s b 2 2 else 0) (if held then rsaField s b 4 2 else 0) msg

/-- The lengths of the octet strings in a result of `n` bytes: points and ECDSA signatures are two each, and FN 0x28 ends with its token. -/
def resultParts (fn p n : Nat) : List Nat :=
  if (0x10 ≤ fn ∧ fn ≤ 0x12) ∨ (0x1C ≤ fn ∧ fn ≤ 0x1E) then [n / 2, n / 2]
  else if fn = 0x28 ∧ p ≤ 3 then [(n - 8) / 2, (n - 8) / 2, 8]
  else [n]

/-- A result in the public region, as limbs after the inputs (R231, Table 9.1; its place: DESIGN CHOICE, log entry 64). -/
def putResult (s : State) (b : Nat) (r : PkReq) (bs : List Byte) : State :=
  let limbs := limbsOf (octetsBig r.fn r.param) (resultParts r.fn r.param bs.length) bs
  let off := (pkLimbs r).length
  modBench s b (fun x => { x with mem := tfill 0 x.mem off (limbs.take (0x8000 - off)) })

/-- The requester of a bench operation gets its result; a charter's peer key that R240 refuses gives no secret, so that its payload does not
open (R204). -/
def benchGives (s : State) (r : PkReq) (res : PkResult) : State :=
  match res, r.who with
  | .bad, .mint => if r.part < 2 then requestFails s .mint r.job .pkAborted else internalGives s .mint r.job r.part []
  | .bad, _ => requestFails s r.who r.job .pkAborted
  | .bytes bs _, .lane => keepResult s r.job r.cmp [] bs
  | .secret k, .lane => keepResult s r.job r.cmp k []
  | .bytes bs _, _ => internalGives s r.who r.job r.part bs
  | .secret k, _ => internalGives s r.who r.job r.part k

/-- BENCH_OP_DONE (R235, R240, R242, R251): an operation that has what it draws ends; the result is delivered,
the secret area is scrubbed, and the bench takes the next request. -/
def execBenchOpDone (bench : Fin 8) (s : State) : Host.Outcome State Fault Refusal :=
  let b := bench.val
  match (getBench s b).run with
  | none => .next s
  | some r =>
    if r.rnd.length < pkDraw r.fn || engineHeld s b then .next s else
    let (res, s) := if r.fn = 0x28 then leaseMake s b r r.rnd else (pkResult r (runKey s b r) r.rnd, s)
    let s := modBench s b (fun x => { x with run := none, lastTime := w32 (runTime s b r) })
    let s := if r.fn = 0x29 then leaseReturn s b r else s
    let s := match res with
      | .bytes bs _ => putResult s b r bs
      | _ => s
    let s := benchEnded (benchScrub s b) b false (match res with
      | .bad => .pkAborted
      | _ => .done)
    let s := modBench s b (fun x => { x with endedJob := if r.who = .lane then some r.job else none })
    .next (offerBenches (benchGives s r res))

/-! ### Direct use (R249, R250) -/

/-- The offset of CH_B_CMD. -/
def chCmd (b : Nat) : Nat := 0x481004 + 0x100 * b

/-- The value of a CH_B_CMD write. -/
def chWord (op : Nat) (nlen elen : BitVec 9) : Nat := op + 16 * nlen.toNat + 8192 * elen.toNat

/-- CH_B_CMD refuses a command. -/
def chRefuse (s : State) (p : CtlPort) (b : Nat) (st : Status) (word : Nat) : State :=
  refuseCmd (modBench s b (fun x => { x with cmdResult := st.code })) p (chCmd b) st word

/-- Limb offsets of CH_B_OPS: 0 A, 1 B, 2 M, 3 D. -/
def opsField (ops : W64) (k : Nat) : Nat := fld ops (12 * k) 12

/-- `n` limbs of the public region of bench `b` from an operand's offset. -/
def limbsAt (s : State) (b : Nat) (ops : W64) (k n : Nat) : Nat := ofLe (readBytes (getBench s b).mem (8 * opsField ops k) (8 * n))

/-- The operands of a direct operation (Table 9.7): operand and length in limbs, the inputs and then the result. -/
def directParts (op n e : Nat) : List (Nat × Nat) :=
  if op = 1 then [(0, n), (1, n), (3, 2 * n)]
  else if op = 2 then [(0, 2 * n), (2, n), (3, n)]
  else if op ≤ 5 then [(0, n), (1, n), (2, n), (3, n)]
  else if op = 6 then [(0, n), (2, n), (1, e), (3, n)]
  else [(0, n), (2, n), (3, n)]

/-- The conditions of R250 and Table 9.7. -/
def directOk (s : State) (b op n e : Nat) : Bool :=
  let ops := (getBench s b).ops
  let A := limbsAt s b ops 0 n
  let B := limbsAt s b ops 1 n
  let M := limbsAt s b ops 2 n
  decide (1 ≤ n) && decide (n ≤ 256) && (if op = 6 then decide (1 ≤ e) && decide (e ≤ 256) else decide (e = 0)) &&
  (directParts op n e).all (fun q => decide (opsField ops q.1 + q.2 ≤ 4096)) &&
  (op = 1 || decide (2 ≤ M)) &&
  (if op = 3 ∨ op = 4 ∨ op = 5 then decide (A < M) && decide (B < M) else true) &&
  (if op = 6 ∨ op = 7 then decide (A < M) else true) &&
  (if op = 5 ∨ op = 6 ∨ op = 7 then decide (M % 2 = 1) else true)

/-- The result of a direct operation and its length in limbs: of the operands that CH_B_OPS named at the command. -/
def directResult (s : State) (b : Nat) (d : DirectOp) : Nat × Nat :=
  let n := d.nlen
  let A := limbsAt s b d.ops 0 n
  let B := limbsAt s b d.ops 1 n
  let M := limbsAt s b d.ops 2 n
  match d.op with
  | 1 => (A * B, 2 * n)
  | 2 => (limbsAt s b d.ops 0 (2 * n) % M, n)
  | 3 => ((A + B) % M, n)
  | 4 => ((A + M - B) % M, n)
  | 5 => (A * B % M, n)
  | 6 => (powMod M (64 * d.elen) A (limbsAt s b d.ops 1 d.elen), n)
  | _ => (powMod M (64 * n) A (M - 2), n)

/-- The public-key cycles of a direct operation (Table 9.7). -/
def directTime (d : DirectOp) : Nat :=
  match d.op with
  | 1 => mmTime d.nlen
  | 2 => 2 * mmTime d.nlen + 12
  | 3 => ceilDiv d.nlen 16 + 6
  | 4 => ceilDiv d.nlen 16 + 6
  | 5 => 4 * mmTime d.nlen + 32
  | 6 => eTime d.nlen (64 * d.elen)
  | _ => eTime d.nlen (64 * d.nlen)

/-- The bench can run a direct command: powered, tested and sound. -/
def directReady (s : State) (b : Nat) : Bool := isDirect s b && domOn s 2 && !(getBench s b).kat && !(getBench s b).faulted

/-- A direct command (R250). -/
def directStart (s : State) (p : CtlPort) (b op : Nat) (nlen elen : BitVec 9) : State :=
  let word := chWord op nlen elen
  if !directReady s b || benchBusy s b then chRefuse s p b .accessFault word
  else if !directOk s b op nlen.toNat elen.toNat then chRefuse s p b .encoding word
  else
    let parts := (directParts op nlen.toNat elen.toNat).dropLast
    let s := modUnit s (benchUnit b) (fun u => { u with bytes := u.bytes + w64 (8 * (parts.map Prod.snd).sum) })
    modBench s b (fun x => { x with
      owner := .direct, endedAt := none
      direct := some { op := op, nlen := nlen.toNat, elen := elen.toNat, ops := x.ops } })

/-- MUL (Table 9.7). -/
def execDmul (p : CtlPort) (bench : Fin 8) (nlen elen : BitVec 9) (s : State) : Host.Outcome State Fault Refusal :=
  portCmd s p (chCmd bench.val) (chWord 1 nlen elen) (fun s =>
    .next (directStart s p bench.val 1 nlen elen))

/-- MOD (Table 9.7). -/
def execDmod (p : CtlPort) (bench : Fin 8) (nlen elen : BitVec 9) (s : State) : Host.Outcome State Fault Refusal :=
  portCmd s p (chCmd bench.val) (chWord 2 nlen elen) (fun s =>
    .next (directStart s p bench.val 2 nlen elen))

/-- MODADD (Table 9.7). -/
def execModadd (p : CtlPort) (bench : Fin 8) (nlen elen : BitVec 9) (s : State) : Host.Outcome State Fault Refusal :=
  portCmd s p (chCmd bench.val) (chWord 3 nlen elen) (fun s =>
    .next (directStart s p bench.val 3 nlen elen))

/-- MODSUB (Table 9.7). -/
def execModsub (p : CtlPort) (bench : Fin 8) (nlen elen : BitVec 9) (s : State) : Host.Outcome State Fault Refusal :=
  portCmd s p (chCmd bench.val) (chWord 4 nlen elen) (fun s =>
    .next (directStart s p bench.val 4 nlen elen))

/-- MODMUL (Table 9.7). -/
def execModmul (p : CtlPort) (bench : Fin 8) (nlen elen : BitVec 9) (s : State) : Host.Outcome State Fault Refusal :=
  portCmd s p (chCmd bench.val) (chWord 5 nlen elen) (fun s =>
    .next (directStart s p bench.val 5 nlen elen))

/-- MODEXP (Table 9.7). -/
def execModexp (p : CtlPort) (bench : Fin 8) (nlen elen : BitVec 9) (s : State) : Host.Outcome State Fault Refusal :=
  portCmd s p (chCmd bench.val) (chWord 6 nlen elen) (fun s =>
    .next (directStart s p bench.val 6 nlen elen))

/-- MODINV (Table 9.7). -/
def execModinv (p : CtlPort) (bench : Fin 8) (nlen elen : BitVec 9) (s : State) : Host.Outcome State Fault Refusal :=
  portCmd s p (chCmd bench.val) (chWord 7 nlen elen) (fun s =>
    .next (directStart s p bench.val 7 nlen elen))

/-- DIRECT_OP_DONE (R250, R251). -/
def execDirectOpDone (bench : Fin 8) (s : State) : Host.Outcome State Fault Refusal :=
  let b := bench.val
  match (getBench s b).direct with
  | none => .next s
  | some d =>
    if engineHeld s b then .next s else
    let r := directResult s b d
    let off := 8 * opsField d.ops 3
    let s := modBench s b (fun x => { x with
      direct := none, cmdResult := Status.done.code, lastTime := w32 (directTime d)
      mem := tfill 0 x.mem off (leBytes (8 * r.2) r.1) })
    .next (benchEnded (benchScrub s b) b true .done)

/-- The ABORT command on bench `b`. An operation that ends in the same cycle stands, and the wipe follows (R247). A bench that is neither
DIRECT nor runs anything refuses it (R250). -/
def benchAbortCmd (s : State) (p : CtlPort) (b : Nat) : State :=
  let x := getBench s b
  let done := fun (s : State) => modBench s b (fun x => { x with cmdResult := (if x.direct.isSome then Status.pkAborted else .done).code })
  if benchBusy s b then
    let s := abortBench (done s) b 4
    offerBenches (match x.run with
      | some r => requestFails s r.who r.job .pkAborted
      | none => s)
  else if x.endedAt = some s.cycle then
    offerBenches (wipeBench (modBench (done s) b (fun x => { x with endedAt := none })) b 3)
  else if isDirect s b then done s
  else chRefuse s p b .accessFault 15

/-- ABORT (R248, Table 9.6): it stops what the bench runs, whoever asked for it, and the bench is wiped. -/
def execAbort (p : CtlPort) (bench : Fin 8) (s : State) : Host.Outcome State Fault Refusal :=
  portCmd s p (chCmd bench.val) 15 (fun s =>
    .next (benchAbortCmd s p bench.val))

/-! ### DIRECT and operand memory (R232, R249) -/

/-- The offset of CH_ROW_CFG. -/
def chRowCfg : Nat := 0x480004

/-- The wipe of bench `b` as it enters or leaves DIRECT (R249): what it runs ends with PK_ABORTED (R251). -/
def directWipe (s : State) (b : Nat) : State :=
  let x := getBench s b
  let s := modBench (dropDraws s (Drawer.onBench b)) b (fun y => { y with
    run := none, direct := none, cmdResult := if x.direct.isSome then Status.pkAborted.code else y.cmdResult })
  let s := whenS (x.run.isSome || x.direct.isSome) (fun s => benchEnded s b x.direct.isSome .pkAborted) s
  let s := wipeBench s b 9
  match x.run with
  | some r => requestFails s r.who r.job .pkAborted
  | none => s

/-- A write of CH_ROW_CFG's fields: a bench whose DIRECT bit in effect changes is wiped and enters or leaves DIRECT (R249). -/
def directChange (s : State) (cfg : W32) : State :=
  let before := directBits s.house.direct.toNat
  let s := upHouse s (fun h => { h with direct := BitVec.ofNat 8 (fld cfg 0 8), pinMax := BitVec.ofNat 3 (fld cfg 8 3) })
  let after := directBits s.house.direct.toNat
  let changed := (List.range 8).filter (fun b => before.contains b != after.contains b)
  let s := forAll changed (fun s b =>
    let s := directWipe s b
    if after.contains b then modBench s b (fun x => { x with owner := .direct }) else s) s
  offerBenches s

/-- DIRECT_SELECT: a write of CH_ROW_CFG, which is STOP (R9, R249). -/
def execDirectSelect (p : CtlPort) (cfg : W32) (s : State) : Host.Outcome State Fault Refusal :=
  portSet s p chRowCfg false (w64 cfg.toNat) (fun s =>
    let same := fld cfg 0 8 = s.house.direct.toNat ∧ fld cfg 8 3 = s.house.pinMax.toNat
    if stopWritable s then .next (directChange s cfg)
    else if same then .next s
    else .next (regAccess s p 1 chRowCfg false (w64 cfg.toNat)))

/-- Bytes of an access. -/
def accBytes (z : AccSize) : Nat :=
  match z with
  | .b1 => 1
  | .b2 => 2
  | .b4 => 4
  | .b8 => 8

/-- A write to operand memory that is ignored: each 32-bit access of it is logged (R232, R457). -/
def operandRefused (s : State) (p : CtlPort) (off n : Nat) (data : W64) : State :=
  let s := regAccess s p 3 (0x400000 + off) false (w64 (data.toNat % 2 ^ 32))
  if n = 8 then regAccess s p 3 (0x400000 + off + 4) false (w64 (data.toNat / 2 ^ 32)) else s

/-- OPERAND_MEMORY_WRITE (R232, R250): the public region of a DIRECT bench that is not BUSY takes it; every other is ignored and logged,
with RESULT ACCESS_FAULT where a DIRECT bench is BUSY. -/
def execOperandMemoryWrite (p : CtlPort) (bench : Fin 8) (offset : W16) (size : AccSize) (data : W64) (s : State) :
    Host.Outcome State Fault Refusal :=
  let b := bench.val
  let n := accBytes size
  let off := offset.toNat
  let at_ := 0x10000 * b + off
  if off % n ≠ 0 && portThere s then .next (respond s p true)
  else
    portWrite s p (0x400000 + at_) n (fun s => operandRefused s p at_ n data) (fun s =>
      if isDirect s b && domOn s 2 && off < 0x8000 then
        if benchBusy s b then
          .next (operandRefused (modBench s b (fun x => { x with cmdResult := Status.accessFault.code })) p at_ n data)
        else .next (modBench s b (fun x => { x with mem := tfill 0 x.mem off (leBytes n data.toNat) }))
      else .next (operandRefused s p at_ n data))

/-! ### Leases, faults, tests -/

/-- LEASE_EXPIRY (R244): the cell is zeroed, its generation increments, and the lease-expired source is raised. -/
def execLeaseExpiry (bench : Fin 8) (cell : Fin 32) (s : State) : Host.Outcome State Fault Refusal :=
  let b := bench.val
  let k := tget {} (getBench s b).cells cell.val
  if !k.live || s.cycle < k.deadline then .next s
  else .next (offerBenches (raise (revokeLease s b cell.val 1) (96 + 4 * b + 3)))

/-- A bench becomes FAULTED and quarantined. -/
def faultBench (s : State) (b : Nat) : State :=
  modUnit (modBench s b (fun x => { x with faulted := true })) (benchUnit b) (fun u => { u with quarantine := true })

/-- BENCH_FAULT (R253, Table 9.6): an uncorrectable error aborts what runs and wipes the bench; a parity error also faults it. -/
def execBenchFault (bench : Fin 8) (parity : Bool) (s : State) : Host.Outcome State Fault Refusal :=
  let b := bench.val
  if !(portsServed s && domOn s 2) then .next s
  else
    let x := getBench s b
    let was := benchBusy s b
    let s := if was then abortBench s b 5 else wipeBench s b 11
    let s := if x.direct.isSome then modBench s b (fun x => { x with cmdResult := Status.pkAborted.code }) else s
    let s := match x.run with
      | some r => requestFails s r.who r.job .pkAborted
      | none => s
    let s := whenS (!was) (fun s => raise (emit s 6 0x401 Status.pkAborted.code [w32 b, 5]) (96 + 4 * b + 1)) s
    .next (offerBenches (if parity then faultBench s b else s))

/-- BENCH_KAT_DONE (R252): a wipe follows the test; a bench that fails is FAULTED and quarantined, with its record. -/
def execBenchKatDone (bench : Fin 8) (pass : Bool) (s : State) : Host.Outcome State Fault Refusal :=
  let b := bench.val
  if !((getBench s b).kat && portsServed s) then .next s
  else
    let s := wipeBench s b 11
    let s := modBench s b (fun x => { x with kat := false, faulted := !pass })
    let s := if pass then s else katRecord (modUnit s (benchUnit b) (fun u => { u with quarantine := true })) 6 (benchUnit b)
    .next (offerBenches (testsEnd s 2))

end Sys2Proof.Machine
end

