-- ==== Sys2Proof/Machine/Scales.lean ====
section
/-! DEFINITION. The Scales: LATOP and the ends of its operations (R111, R258 to R266), aborts, faults and known-answer tests (R269 to
R273). -/

namespace Sys2Proof.Machine

/-! ### Inputs and keys -/

/-- The longest message, 16 MiB. -/
def latMsgMax : Nat := 16777216

/-- The inputs of a LATOP: fixed part, message, context string (R259). -/
def latInput (x : Job) (i : W64) : Res (List Byte × List Byte × List Byte × Job) :=
  let fixed := (latFixed (wFn i) (wParam i)).sum
  match opd (wB i) with
  | .sat n =>
    if 256 < fixed then .hard .encoding
    else bindRes (frameRead x n) (fun m => .ok ([], m, [], x))
  | .seg g k =>
    let st := 8 * g + k
    bindRes (takeStream x st fixed) (fun f =>
    if latMsg (wFn i) then
      bindRes (restOf f.2 st (cursor f.2 st)) (fun r =>
      if latMsgMax < r then .hard .encoding
      else bindRes (takeStream f.2 st r) (fun m =>
        bindRes (restOf m.2 k (cursor m.2 k)) (fun c =>
        if 255 < c then .hard .encoding
        else bindRes (takeStream m.2 k c) (fun cx => .ok (f.1, m.1, cx.1, cx.2)))))
    else .ok (f.1, [], [], f.2))
  | _ => .ok ([], [], [], x)

/-- Where the key use of a LATOP fails (R93, R260): the right, the type, and the size of a long bale against SET. -/
def latKeyFault (s : State) (j k fn set : Nat) : Option Status :=
  let held := fun (n : Nat) => match holdingOf s (keyReg s j k) with
    | some e => (getCtx s (e - 8)).holdLen = n
    | none => false
  let isHeld := (keySlot s j k).kind = .holding
  let t := (keySlot s j k).ktype.toNat
  if fn = 0x03 then
    match keyFault s j k 6 fn (fun t => decide (t = 0x19)) with
    | some st => some st
    | none => if (keySlot s j k).derived || (isHeld && !held (dkSize set)) then some .keyUsage else none
  else if fn = 0x11 then
    match keyFault s j k 5 fn (fun t => t = 0x1A || t = 0x1B) with
    | some st => some st
    | none => if t = 0x1B && !held (skSize set) then some .keyUsage else none
  else none

/-- The functions that draw from the Well (R261 to R263). -/
def latDraws (i : W64) : Bool := wFn i = 0x01 || wFn i = 0x02 || (wFn i = 0x11 && !latPubOnly i)

/-! ### The queue (R266) -/

/-- The key that a context takes with a request: none for a holding, whose material is there. -/
def latKey (s : State) (r : LatReq) : List Byte :=
  match r.key with
  | some k => if (getSlot s k.slot).isHolding then [] else (slotKey s k.slot).take (getSlot s k.slot).klen
  | none => r.keyBytes

/-- Context `c` starts a request: what it needs from the Well it draws in class 2 (R282); its inputs
lie in the public area, where those of the Mint lie
already (R268), and a key in the secret area. -/
def ctxStart (s : State) (c : Nat) (r : LatReq) : State :=
  let key := latKey s r
  let s := whenS (latDraw r ≠ 0) (fun s => askDraw s 2 (.ctx c r.ticket) (latDraw r)) s
  modCtx s c (fun x => { x with
    run := some { r with rnd := [], keyBytes := key }, endedAt := none
    mem := tfill 0 (if r.who = .mint then x.mem else tfill 0 x.mem 0 (r.input.take 16384)) 16384 key })

/-- The first queued request that a context can take goes to it; none: no context can take any. A key whose slot has died since its issue
ends it (R227). -/
def scalesNext (s : State) : Option State :=
  match s.scales.queue.find? (fun r => (placeLattice s r).isSome) with
  | none => none
  | some r =>
    let s' := upScales s (fun q => { q with queue := q.queue.filter (fun r' => r'.ticket ≠ r.ticket) })
    match placeLattice s r with
    | none => none
    | some c =>
      if r.key.any (fun k => !keyStands s r.who k) then
        some (requestFails s' r.who r.job (if r.who = .lane then .keyConflict else .pkAborted))
      else some (ctxStart s' c r)

/-- The contexts are offered to the queue, in queue order. -/
def scalesOffer : Nat → State → State
  | 0, s => s
  | fuel + 1, s =>
    match scalesNext s with
    | none => s
    | some s' => scalesOffer fuel s'

/-- Offer every free context. -/
def offerCtxs (s : State) : State := scalesOffer s.scales.queue.length s

/-! ### Results -/

/-- The modulus check of FIPS 203, section 7.2: the 12-bit values of the encoded vector are below 3,329. -/
def ekOk (ek : List Byte) : Bool :=
  (List.range ((ek.length - 32) / 3)).all (fun k =>
    let v := ofLe (slice ek (3 * k) 3)
    decide (v % 4096 < 3329) && decide (v / 4096 < 3329))

/-- The arguments of the standard's function: key, fixed inputs with the message, context string, randomness. -/
def latArgs (r : LatReq) (key rnd : List Byte) : List (List Byte) := [key, r.input, r.context, rnd]

/-- The signing attempts (R263, R265): at least one. -/
def latAttempts (r : LatReq) (key rnd : List Byte) : Nat :=
  if r.fn = 0x11 && !r.pubOnly then Nat.max 1 (Config.stdNat (.latop r.fn r.set) (latArgs r key rnd)) else 0

/-- The result of a request (R261 to R263): the key for a register, empty where there is none, and the bytes for A; none when it ends with
PK_ABORTED. -/
def latResult (r : LatReq) (key rnd : List Byte) : Option (List Byte × List Byte) :=
  let f := StdFn.latop r.fn r.set
  let args := latArgs r key rnd
  match r.fn with
  | 0x01 => some (rnd.take 64, stdBytes f args (ekSize r.set))
  | 0x02 =>
    let out := stdBytes f args (32 + ctSize r.set)
    if ekOk r.input then some (out.take 32, out.drop 32) else none
  | 0x03 => some (stdBytes f args 32, [])
  | 0x11 =>
    if r.pubOnly then some ([], stdBytes (.latop 0x10 r.set) [key] (pkSize r.set))
    else if 256 < latAttempts r key rnd then none
    else some ([], stdBytes f args (sigSize r.set))
  | _ => some ([], verdict f args)

/-- The slot of the seed that FN 0x01 makes (R261). -/
def seedSlot : SlotRec := { usage := 0x40, ktype := 0x19, notAfter := 0xFFFFFFFFFF#40 }

/-- A key for C and the bytes for A. -/
def deliverPair (s : State) (l j : Nat) (c : Compare) (i : W64) (r : SlotRec) (key bs : List Byte) : State :=
  loadPrivate s (takeIncoming s j) l j c (keyNum (wC i)) none r key (fun s => deliverBytes s l j c i false bs)

/-- The secret that register `from_` of the job names lands in register `reg` too: one private slot with a lease for each. -/
def shareKey (s : State) (j from_ reg : Nat) : State :=
  if from_ = reg then s
  else match tget none (getJob s j).keys from_ with
    | some q => loadKey (takeLease s q.slot) j reg q.slot
    | none => s

/-- The instruction's result, kept with the job, is delivered (Table 4.8, R261, R262); a key waits for the fresh mask of its slot's
group (R223). The secret of FN 0x03 lands in A, as Table 4.8 gives, and in C, as R262 gives (DEDUCED, log entry 26). -/
def latDeliver (s : State) (l j : Nat) (c : Compare) (i : W64) (bs : List Byte) : State :=
  match wFn i with
  | 0x01 => deliverPair s l j c i seedSlot (incomingKey s j) bs
  | 0x02 => deliverPair s l j c i secretSlot (incomingKey s j) bs
  | 0x03 =>
    loadPrivate s (takeIncoming s j) l j c (keyNum (wA i)) none secretSlot (incomingKey s j)
      (fun s => complete (shareKey s j (keyNum (wA i)) (keyNum (wC i))) l j c)
  | _ => deliverBytes s l j c i false bs

/-- The result is kept with its job, and delivered at once if the job is in execution and its lane goes on (R138). -/
def keepLattice (s : State) (j : Nat) (c : Compare) (key bs : List Byte) : State :=
  let s := keepParts s j key bs
  match (getJob s j).seat with
  | .running l =>
    match laneTask s l (isOp .latop) with
    | some (k, i) => if k = j then latDeliver s l j c i bs else s
    | none => s
  | _ => s

/-! ### LATOP -/

/-- R266, R271: the request cannot be taken at all. -/
def scalesClosed (s : State) : Bool :=
  s.scales.zeroed || (List.range 4).all (fun c => (getCtx s c).faulted) || (List.range 4).all (fun c => s.scales.disable.toNat.testBit c)

/-- The inputs of a LATOP, when A has room for its output (R74). -/
def latReady (x : Job) (i : W64) : Res (List Byte × List Byte × List Byte × Job) :=
  bindRes (latInput x i) (fun q =>
  bindRes (match latOutLen i with
    | some n => roomFor q.2.2.2 (opd (wA i)) n
    | none => .ok ()) (fun _ => .ok q))

/-- A LATOP that passes its checks is queued (R111, R266). -/
def latQueue (s : State) (l j : Nat) (i : W64) (c : Compare) (q : List Byte × List Byte × List Byte × Job) : State :=
  if latDraws i && !wellCan s then endHard (wellDeny s) j .entropyFail
  else if scalesClosed s then endHard s j .pkAborted
  else if itemDiffers s l c 4 then yokeMismatch s l j 4
  else
    let t := s.scales.nextTicket
    let r : LatReq := {
      ticket := t, who := .lane, job := j, lane := l, fn := wFn i, set := wParam i, input := q.1 ++ q.2.1, context := q.2.2.1
      key := if wFn i = 0x03 ∨ wFn i = 0x11 then keyReg s j (keyNum (wC i)) else none, pubOnly := latPubOnly i, cmp := c }
    let s := modJob s j (fun _ => { q.2.2.2 with wait := .scales t })
    offerCtxs (queueLat s r)

/-- LATOP (R111): queued, and then held until the result returns; a result that came while the job was saved is delivered. -/
def execLatop (lane : Fin 16) (cmp : Compare) (s : State) : Host.Outcome State Fault Refusal :=
  let l := lane.val
  match laneTask s l (isOp .latop) with
  | none => .next s
  | some (j, i) =>
    let x := getJob s j
    let k := keyNum (wC i)
    match x.kept with
    | some bs => .next (latDeliver s l j cmp i bs)
    | none =>
      if x.wait ≠ .nothing then .next s
      else if !issueOk x i then .next (endHard s j .encoding)
      else match latKeyFault s j k (wFn i) (wParam i) with
        | some st => .next (endKey s j k st)
        | none => .next (goOn s j (latReady x i) (latQueue s l j i cmp))

/-! ### SCALES_OP_DONE -/

/-- The request works with the holding of its context: it has brought no key of its own. -/
def latHeld (r : LatReq) : Bool := r.key.isSome && r.keyBytes.isEmpty

/-- The key bytes that the running request works with. -/
def ctxKey (s : State) (c : Nat) (r : LatReq) : List Byte :=
  if latHeld r then readBytes (getCtx s c).mem 16384 (getCtx s c).holdLen else r.keyBytes

/-- The requester of a context's operation gets its result: the key and the bytes of `latResult`. -/
def ctxGives (s : State) (r : LatReq) (res : Option (List Byte × List Byte)) : State :=
  match res, r.who with
  | none, _ => requestFails s r.who r.job .pkAborted
  | some q, .lane => keepLattice s r.job r.cmp q.1 q.2
  | some q, _ => internalGives s r.who r.job r.part (q.1 ++ q.2)

/-- SCALES_OP_DONE (R264, R265, R269, R272): an operation that has what it draws ends; the result is delivered and the context
scrubbed; it takes the next request. -/
def execScalesOpDone (ctx : Fin 4) (s : State) : Host.Outcome State Fault Refusal :=
  let c := ctx.val
  match (getCtx s c).run with
  | none => .next s
  | some r =>
    if r.rnd.length < latDraw r || engineHeld s (8 + c) then .next s else
    let key := ctxKey s c r
    let res := latResult r key r.rnd
    let att := Nat.min 256 (latAttempts r key r.rnd)
    let msg := 2 + r.context.length + (r.input.length - (latFixed r.fn r.set).sum)
    let s := modCtx s c (fun x => { x with
      run := none, lastTime := w32 (latTime r.fn r.set (latHeld r) r.pubOnly att msg), lastAtt := BitVec.ofNat 9 att })
    let s := upScales s (fun x => { x with attempts := x.attempts + w64 att })
    let s := ctxEnded (scrubCtx s c) c (if res.isSome then .done else .pkAborted)
    .next (offerCtxs (ctxGives s r res))

/-! ### Aborts, faults, tests -/

/-- Offsets of SC_CFG and SC_CMD. -/
def scCfg : Nat := 0x500004
/-- See `scCfg`. -/
def scCmd : Nat := 0x500008

/-- Context `c` aborts what it runs, and its request ends with PK_ABORTED. -/
def ctxAbort (s : State) (c : Nat) : State :=
  match (getCtx s c).run with
  | none => s
  | some r => requestFails (abortCtx s c) r.who r.job .pkAborted

/-- The working memory of context `c` is wiped, a holding included. -/
def ctxWipe (s : State) (c : Nat) : State :=
  if (getCtx s c).holder.isSome then dropCtxHolding s c
  else upScales (modCtx s c (fun x => { x with mem := [] })) (fun x => { x with wipes := x.wipes + 1 })

/-- SCALES_ABORT (R270): ACCESS_FAULT when the context is idle. An operation that ends in the same cycle stands, and the wipe follows
(Table 10.5). -/
def execScalesAbort (p : CtlPort) (ctx : Fin 4) (s : State) : Host.Outcome State Fault Refusal :=
  portCmd s p scCmd (1 + 256 * ctx.val) (fun s =>
    let c := ctx.val
    if !ctxBusy s c && (getCtx s c).endedAt = some s.cycle then
      .next (offerCtxs (ctxWipe (modCtx (upScales s (fun x => { x with cmdResult := Status.done.code })) c (fun x => { x with endedAt := none })) c))
    else if !ctxBusy s c then
      .next (refuseCmd (upScales s (fun x => { x with cmdResult := Status.accessFault.code })) p scCmd .accessFault (1 + 256 * c))
    else .next (offerCtxs (ctxAbort (upScales s (fun x => { x with cmdResult := Status.done.code })) c)))

/-- SC_CFG as it reads. -/
def scCfgWord (s : State) : Nat :=
  s.scales.holdMax.toNat + 256 * s.scales.disable.toNat +
    65536 * ((List.range 4).map (fun c => 2 ^ c * bit (getCtx s c).faulted)).sum

/-- A write of SC_CFG's fields: a RETEST bit that reads 1 and is written 0 reruns its context's test (R273). -/
def scCfgSet (s : State) (v : Nat) : State :=
  let s := upScales s (fun x => { x with holdMax := BitVec.ofNat 2 v, disable := BitVec.ofNat 4 (v / 256) })
  offerCtxs (forAll (List.range 4) (fun s c =>
    if (getCtx s c).faulted && !v.testBit (16 + c) then modCtx s c (fun x => { x with kat := true }) else s) s)

/-- A write to SC_CFG, which is STOP (R9). -/
def scCfgWrite (s : State) (p : CtlPort) (v : Nat) : State :=
  if stopWritable s then scCfgSet s v
  else
    let f := fun (n : Nat) => n % 4 + 256 * (n / 256 % 16) + 65536 * (n / 65536 % 16)
    if f v = f (scCfgWord s) then s else regAccess s p 1 scCfg false (w64 v)

/-- The word of SC_CFG that clears the RETEST bit of a context and leaves the other fields. -/
def retestWord (s : State) (c : Nat) : Nat := scCfgWord s - 2 ^ (16 + c) * bit (getCtx s c).faulted

/-- CONTEXT_RETEST (R273): SC_CFG is written as it reads, with the context's RETEST bit 0. -/
def execContextRetest (p : CtlPort) (ctx : Fin 4) (s : State) : Host.Outcome State Fault Refusal :=
  portSet s p scCfg false (w64 (retestWord s ctx.val)) (fun s =>
    .next (scCfgWrite s p (retestWord s ctx.val)))

/-- A fault of context `c`: what it runs is aborted, and a holding is lost with its memory, as is the copy of a charter, which ends with it
(DEDUCED from R268, log entry 65). -/
def ctxFault (s : State) (c : Nat) : State :=
  let was := (getCtx s c).run.isSome
  let s := whenS (ctxMints s c) (fun s => mintRefuse s .pkAborted 0 0) (dropCtxHolding (ctxAbort s c) c)
  whenS (!was) (fun s => raise s (128 + 4 * c + 1)) s

/-- SCALES_FAULT (R272, R273): a parity error faults both contexts of the pipeline. -/
def execScalesFault (ctx : Fin 4) (parity : Bool) (s : State) : Host.Outcome State Fault Refusal :=
  let c := ctx.val
  if !portsServed s then .next s
  else
    let s := if parity then
        forAll [2 * (c / 2), 2 * (c / 2) + 1] (fun s k => modCtx (ctxFault s k) k (fun x => { x with faulted := true })) s
      else ctxFault s c
    .next (offerCtxs (whenS s.scales.irqFault (fun s => irqBlock s 24) s))

/-- CONTEXT_KAT_DONE (R272, R273): a context that passes is idle; one that fails is FAULTED, with its record, source +3 and vector. -/
def execContextKatDone (ctx : Fin 4) (pass : Bool) (s : State) : Host.Outcome State Fault Refusal :=
  let c := ctx.val
  if !(getCtx s c).kat then .next s
  else
    let s := modCtx s c (fun x => { x with kat := false, faulted := !pass })
    if pass then .next (offerCtxs s)
    else
      .next (whenS s.scales.irqFault (fun s => irqBlock s 24) (katRecord (raise s (128 + 4 * c + 3)) 7 (0x100 + c)))

end Sys2Proof.Machine
end

