-- ==== Sys2Proof/Machine/Charters.lean ====
section
/-! DEFINITION. Charters: MI_CH_CMD GO and the processing of Table 7.7 with the commands of Table 7.6 (R183, R185, R186, R200 to R205,
R268). The charter and the tally come over the fabric, the signatures and secrets from a bench and context 3; between these the Mint goes
on by itself (`charterAdvance`), and CHARTER_DONE is the end of processing. -/

namespace Sys2Proof.Machine

/-! ### GO (R203, R268, R444) -/

/-- The offset of MI_CH_CMD. -/
def chGoOff : Nat := 0x380020

/-- The mask store of group 511 has failed: every unit slot is DEAD (R444). -/
def unitMaskDead (s : State) : Bool := (List.range 64).all (fun k => (getSlot s (32704 + k)).kind = .dead)

/-- A CHARTER record (R205): SEQ, REASON, INDEX and the words of an accepted charter's commands. -/
def charterRecord (s : State) (seq : W64) (st : Status) (reason index : Nat) (cmds : List W32) : State :=
  emit s 5 0x302 st.code (loHi seq ++ [w32 (reason + 32 * index)] ++ cmds)

/-- A GO that is refused or fails: RESULT, REASON, INDEX, the count and the record. A GO that is refused before its charter has been read
has no SEQ: the record holds 0 (R205 does not say; DESIGN CHOICE, log entry 69). -/
def charterRefuse (s : State) (seq : W64) (st : Status) (reason index : Nat) : State :=
  let s := upMint s (fun m => { m with
    chRefused := m.chRefused + 1, chResult := st.code, chReason := BitVec.ofNat 5 reason, chIndex := BitVec.ofNat 6 index })
  charterRecord s seq st reason index []

/-- CHARTER_GO (R203): refused while BUSY, outside Provision, and when context 2 or 3 or the unit keys are out of use. R203 gives the read
no length: it is the whole 32,768 bytes, so an error past the charter's own end refuses it too (DESIGN CHOICE, log entry 69). -/
def execCharterGo (p : CtlPort) (s : State) : Host.Outcome State Fault Refusal :=
  portBoth s p (fun s =>
    if s.mint.chBusy then
      .next (refuseCmd (upMint s (fun m => { m with chRefused := m.chRefused + 1 })) p chGoOff .accessFault 1)
    else if !inMode s .provision then .next (refuseCmd (charterRefuse s 0 .accessFault 1 0) p chGoOff .accessFault 1)
    else if (getCtx s 2).faulted || (getCtx s 3).faulted || unitMaskDead s then .next (charterRefuse s 0 .pkAborted 0 0)
    else
      let s := upMint s (fun m => { m with
        chBusy := true, chStage := .reading, chRun := m.chRun + 1, chSeq := 0, chTally := [], chSecrets := [] })
      let s := upScales s (fun x => { x with charter := true })
      .next (issueAccess s .charterRead {} s.mint.chAddr 32768 none))

/-! ### The charter's form (Tables 7.5, 7.6) -/

/-- A command: OP and payload. -/
abbrev ChCmd := Nat × List Byte

/-- The payload length of an OP; none: no such command. -/
def chLen (op : Nat) : Option Nat :=
  match op with
  | 1 => some 16
  | 2 => some 24
  | 3 => some 8
  | 4 => some 8
  | 5 => some 1248
  | 6 => some 8
  | _ => none

/-- Ranges of a payload, as start and length, that Table 7.6 does not name. -/
def chZero (op : Nat) : List (Nat × Nat) :=
  match op with
  | 1 => [(12, 4)]
  | 2 => [(7, 1), (12, 4)]
  | 3 => [(2, 6)]
  | 4 => [(2, 2)]
  | 5 => [(1196, 4)]
  | _ => [(0, 8)]

/-- `n` bytes of a charter from `off` are zero. -/
def zeroAt (bs : List Byte) (off n : Nat) : Bool := (slice bs off n).all (fun b => b = 0)

/-- The commands of a region: heads, LENs and zero bytes must be as R201 says, and they fill it exactly. -/
def chParse : Nat → List Byte → Option (List ChCmd)
  | 0, bs => if bs.isEmpty then some [] else none
  | n + 1, bs =>
    let op := ofLe (bs.take 1)
    match chLen op with
    | none => none
    | some len =>
      let body := slice bs 8 len
      if !(decide (8 + len ≤ bs.length) && zeroAt bs 1 1 && ofLe (slice bs 2 2) = len && zeroAt bs 4 4 &&
        (chZero op).all (fun z => zeroAt body z.1 z.2)) then none
      else (chParse n (bs.drop (8 + len))).map (fun r => (op, body) :: r)

/-- BODYLEN. -/
def chBody (bs : List Byte) : Nat := ofLe (slice bs 28 4)

/-- SEQ. -/
def chSeqOf (bs : List Byte) : W64 := w64 (ofLe (slice bs 8 8))

/-- Step 2 of Table 7.7: the commands of a charter that is well formed. -/
def chCommands (bs : List Byte) : Option (List ChCmd) :=
  let n := ofLe (slice bs 5 1)
  if ofLe (bs.take 4) = 0x48435053 ∧ ofLe (slice bs 4 1) = 1 ∧ 1 ≤ n ∧ n ≤ 64 ∧ zeroAt bs 6 2 ∧ zeroAt bs 26 2 ∧ zeroAt bs 80 16 ∧
    chBody bs % 8 = 0 ∧ chBody bs ≤ 27216 then chParse n (slice bs 2144 (chBody bs))
  else none

/-- M: the charter from byte 0 to the end of the command region. -/
def chM (bs : List Byte) : List Byte := bs.take (2144 + chBody bs)

/-! ### Steps 3 to 6 -/

/-- The first of steps 3 to 6 that fails: its REASON; each has RESULT ACCESS_FAULT. -/
def chGate (s : State) (bs : List Byte) (cmds : List ChCmd) : Option Nat :=
  let b := fun o n => ofLe (slice bs o n)
  let seq := chSeqOf bs
  if ownerHash s ≠ some (stdBytes (.hash 0x22) [[], slice bs 96 2048] 48) then some 4
  else if !laneWindowOk s (b 16 5) (b 21 5) then some 5
  else if !(zeroAt bs 32 48 || slice bs 32 48 = leBytes 48 (getUnit s 0).keyHash.toNat) then some 6
  else if !(if seq = 0 then cmds.all (fun c => c.1 = 1) else decide (s.watch.box.seq.toNat < seq.toNat)) then some 7
  else none

/-! ### Step 7 -/

/-- The context string of R200. -/
def chContext : List Byte := labelBytes "SPN-CHARTER"

/-- The charter, as it lies in the public areas of contexts 2 and 3 (R268). -/
def charterBytes (s : State) : List Byte := readBytes (getCtx s 2).mem 0 16384 ++ readBytes (getCtx s 3).mem 0 16384

/-- The payloads of the OWNER_INSTALL commands. -/
def chInstalls (cmds : List ChCmd) : List (List Byte) := (cmds.filter (fun c => c.1 = 5)).map Prod.snd

/-- Engine operation `k` of a charter is queued: 0 the ECDSA check, 1 the ML-DSA check (R200), and then for each OWNER_INSTALL in order the
decapsulation and the agreement with the install keys (R204; that they run before step 8: DESIGN CHOICE, log entry 65). -/
def chIssue (s : State) (bs : List Byte) (cmds : List ChCmd) (k : Nat) : State :=
  let m := s.mint
  let body := (chInstalls cmds).getD ((k - 2) / 2) []
  let s := upMint s (fun m => { m with chStage := .engine k })
  let lat := fun (r : LatReq) => queueLat s { r with ticket := s.scales.nextTicket, who := .mint, job := m.chRun, part := k, set := 2 }
  let pk := fun (r : PkReq) => queuePk s { r with ticket := s.house.nextTicket, who := .mint, job := m.chRun, part := k }
  if k = 0 then
    pk { fn := 0x15, param := 48, input := slice bs 96 96 ++ slice bs (2144 + chBody bs) 96 ++ stdBytes (.hash 0x22) [[], chM bs] 48 }
  else if k = 1 then lat { fn := 0x12, input := slice bs 192 1952 ++ slice bs (2240 + chBody bs) 3309 ++ chM bs, context := chContext }
  else if k % 2 = 0 then lat { fn := 0x03, input := body.take 1088, keyBytes := leBytes 64 m.installKem.toNat }
  else pk { fn := 0x19, input := slice body 1088 96, keyBytes := leBytes 48 m.installEc.toNat }

/-! ### Step 8 (R204) -/

/-- What the earlier commands of the charter leave: whether an owner secret is held, the tenant records that they changed, and how many
OWNER_INSTALL commands there were. -/
structure ChState where
  owner : Bool
  recs : List (Nat × TenantRec) := []
  fresh : Bool := false
  installs : Nat := 0

/-- The record of tenant `t` in the current tally; none when it does not verify (R182). -/
def chRecord (s : State) (tally : List (Nat × List Byte)) (t : Nat) : Option TenantRec :=
  if s.watch.box.ver = 0 then some {}
  else match tally.find? (fun r => r.1 = t) with
    | some r => if recordOk s t r.2 then some (parseRecord r.2) else none
    | none => none

/-- The record of tenant `t` as the earlier commands leave it. -/
def chRec (s : State) (tally : List (Nat × List Byte)) (q : ChState) (t : Nat) : Option TenantRec :=
  match q.recs.find? (fun r => r.1 = t) with
  | some r => some r.2
  | none => if q.fresh then some {} else chRecord s tally t

/-- The charter changes a tenant's record. -/
def chPut (q : ChState) (t : Nat) (r : TenantRec) : ChState := { q with recs := (t, r) :: q.recs.filter (fun x => x.1 ≠ t) }

/-- The payload of OWNER_INSTALL number `n` opens with its secrets ss₁ ‖ ss₂: the owner secret. -/
def chOpen (s : State) (bs body : List Byte) (n : Nat) : Option (List Byte) :=
  let ss := tget [] s.mint.chSecrets n
  let key := stdBytes (.hkdf "SPN-INSTALL") [ss, bs.take 32] 32
  let args := [key, slice body 1184 12, bs.take 96, slice body 1232 16, slice body 1200 32]
  if ss.length = 80 && Config.stdOk (.gcmSiv true) args then some (stdBytes (.gcmSiv true) args 32) else none

/-- The checks of one command (R185, R204), and what it leaves; none: it fails. A SPACE or PV byte above 1, PASID bits above 19, and in
the tally commands a tenant of 4,096 or more fail the check too, which the lists of R204 do not name (DESIGN CHOICE, log entry 69). -/
def chCheck (s : State) (tally : List (Nat × List Byte)) (bs : List Byte) (q : ChState) (c : ChCmd) : Option ChState :=
  let b := fun o n => ofLe (slice c.2 o n)
  match c.1 with
  | 1 =>
    let st := (getRing s (b 0 2)).state
    if b 0 2 < 4096 ∧ (st = .disabled ∨ st = .stopped) ∧ b 2 2 < 4096 ∧ b 4 1 ≤ 1 ∧ b 5 1 ≤ 1 ∧ b 8 4 < 2 ^ 20 then some q else none
  | 2 =>
    if !(decide (b 0 2 < 4096) && decide (b 2 1 ≤ 1) && decide (b 3 1 ≤ 1) && decide (b 8 4 < 2 ^ 20) &&
      (b 6 1 = 0 || (decide (6 ≤ b 6 1) && decide (b 6 1 ≤ 24) && b 16 8 % 4096 = 0 && b 16 8 ≠ 0))) then none
    else match chRec s tally q (b 0 2) with
      | none => some q
      | some r =>
        some (chPut q (b 0 2) (if b 6 1 = 0 then { epoch := r.epoch } else
          { r with ktv := true, logSize := b 6 1, base := w64 (b 16 8), spaceLocal := b 2 1 = 1, pv := b 3 1 = 1
                   func := BitVec.ofNat 16 (b 4 2), pasid := BitVec.ofNat 20 (b 8 4) }))
  | 3 =>
    if 4096 ≤ b 0 2 then none
    else match chRec s tally q (b 0 2) with
      | none => some q
      | some r => if r.epoch.toNat = 2 ^ 32 - 1 then none else some (chPut q (b 0 2) { r with epoch := r.epoch + 1 })
  | 4 =>
    if 4096 ≤ b 0 2 then none
    else match chRec s tally q (b 0 2) with
      | none => some q
      | some r => if b 4 4 ≤ r.epoch.toNat then none else some (chPut q (b 0 2) { r with epoch := w32 (b 4 4) })
  | 5 =>
    if q.owner then none
    else (chOpen s bs c.2 q.installs).map (fun _ => { owner := true, recs := [], fresh := true, installs := q.installs + 1 })
  | _ => some { owner := false, recs := [], fresh := true, installs := q.installs }

/-- Step 8: what every command leaves, or the number of the first that fails. -/
def chChecks (s : State) (tally : List (Nat × List Byte)) (bs : List Byte) : Nat → ChState → List ChCmd → Nat ⊕ ChState
  | _, q, [] => .inr q
  | n, q, c :: cs =>
    match chCheck s tally bs q c with
    | none => .inl n
    | some q => chChecks s tally bs (n + 1) q cs

/-! ### Step 9: commit (R183, R186, R204) -/

/-- The command changes the tally (R183). -/
def chTally (c : ChCmd) : Bool := c.1 = 2 || c.1 = 3 || c.1 = 4

/-- The 4,096 tally records of version `ver`, with fresh tags. -/
def chWrites (s : State) (recOf : Nat → TenantRec) (ver : Nat) : List Byte :=
  ((List.range 4096).map (fun t =>
    let body := recordBody t (recOf t) ver
    body ++ recordTag s body)).flatten

/-- The slot of the tally's version `ver`. -/
def tallySlot (s : State) (ver : Nat) : W64 := s.mint.tallyAddr + w64 (ver % 2 * 0x40000)

/-- The tally as read: tenants and records. -/
def chTallyOf (s : State) : List (Nat × List Byte) :=
  if s.mint.chTally.isEmpty then [] else (List.range 4096).map (fun t => (t, slice s.mint.chTally (64 * t) 64))

/-- The records that a charter leaves. -/
def chRecOf (s : State) (q : ChState) (t : Nat) : TenantRec :=
  match q.recs.find? (fun r => r.1 = t) with
  | some r => r.2
  | none => if q.fresh then {} else (chRecord s (chTallyOf s) t).getD {}

/-- The Strongbox takes a new version, SEQ, owner secret or FLAGS. -/
def setBox (s : State) (f : Strongbox → Strongbox) : State :=
  upWatch s (fun w => { w with box := let b := f w.box; boxOf b.os b.ver b.seq b.flags })

/-- Benches on which a ring of `p` holds a live lease are wiped (R234). -/
def wipeFor (s : State) (p : Nat → Bool) (cause : Nat) : State :=
  forAll ((List.range 8).filter (fun b => (getBench s b).cells.any (fun kv => kv.2.live && p kv.2.ring))) (fun s b => wipeBench s b cause) s

/-- R186: the epoch of tenant `t` has changed. -/
def epochChanged (s : State) (t : Nat) : State :=
  let s := flushWhere s (fun _ r => (r.kind = .tenant || r.kind = .internal) && r.tenant.toNat = t)
  wipeFor s (fun r => (getRing s r).bound && (getRing s r).tenant.toNat = t) 7

/-- R183 steps 5 and 6. -/
def chCommitTally (s : State) (q : ChState) : State :=
  let old := fun t => ((chRecord s (chTallyOf s) t).getD {}).epoch
  let changed := ((q.recs.map Prod.fst).filter (fun t => (chRecOf s q t).epoch ≠ old t))
  let s := setBox s (fun b => { b with ver := b.ver + 1 })
  let s := flushWhere s (fun _ r => r.kind = .internal && fld r.index 16 8 = 3)
  forAll changed epochChanged s

/-- BIND_RING acts. -/
def bindRing (s : State) (b : Nat → Nat → Nat) : State :=
  let r := b 0 2
  let g := getRing s r
  let s := if g.bound && g.tenant.toNat ≠ b 2 2 then wipeFor s (fun k => decide (k = r)) 6 else s
  modRing s r (fun g => { g with
    bound := true, tenant := BitVec.ofNat 12 (b 2 2), spaceLocal := b 4 1 = 1, pv := b 5 1 = 1
    func := BitVec.ofNat 16 (b 6 2), pasid := BitVec.ofNat 20 (b 8 4) })

/-- OWNER_CLEAR acts. -/
def ownerClear (s : State) : State :=
  let s := setBox s (fun b => { b with os := 0, ver := 0, flags := 0 })
  let s := flushWhere s (fun _ r => r.kind = .tenant || r.kind = .internal || r.kind = .privateKey || r.kind = .holding)
  ownerKeys (forAll (List.range 8) (fun s b => wipeBench s b 8) s)

/-- OWNER_INSTALL acts with the secret that the payload holds. -/
def ownerInstall (s : State) (os : List Byte) : State :=
  ownerKeys (setBox s (fun b => { b with os := BitVec.ofNat 256 (ofLe os), ver := 0, flags := 1 }))

/-- The remaining effects of the commands, in order; `n` counts the OWNER_INSTALL commands. -/
def chEffects (bs : List Byte) : Nat → List ChCmd → State → State
  | _, [], s => s
  | n, c :: cs, s =>
    match c.1 with
    | 1 => chEffects bs n cs (bindRing s (fun o k => ofLe (slice c.2 o k)))
    | 5 => chEffects bs (n + 1) cs (ownerInstall s ((chOpen s bs c.2 n).getD []))
    | 6 => chEffects bs n cs (ownerClear s)
    | _ => chEffects bs n cs s

/-- The CHARTER record's word for a command. -/
def charterWord (c : ChCmd) : W32 :=
  w32 (c.1 + 256 * (if c.1 ≤ 4 then ofLe (c.2.take 2) % 4096 else 0))

/-- Processing ends: contexts 2 and 3 are released and cleared, and nothing of the run is left (R203, R268). -/
def charterEnd (s : State) : State :=
  let s := forAll [2, 3] (fun s c => modCtx s c (fun x => { x with mem := [] })) s
  let s := upHouse s (fun h => { h with queue := h.queue.filter (fun r => r.who ≠ .mint) })
  let s := upScales s (fun x => { x with charter := false, queue := x.queue.filter (fun r => r.who ≠ .mint) })
  upMint s (fun m => { m with chBusy := false, chStage := .idle, chTally := [], chSecrets := [] })

/-- Step 9 from the Strongbox on (R183, Table 7.7): the commit point, the high-water, the remaining effects. -/
def charterCommit (s : State) (bs : List Byte) (cmds : List ChCmd) (q : ChState) : State :=
  let seq := chSeqOf bs
  let s := if cmds.any chTally then chCommitTally s q else s
  let s := if seq = 0 then s else setBox s (fun b => { b with seq := seq })
  let s := chEffects bs 0 cmds s
  let s := upMint s (fun m => { m with chAccepted := m.chAccepted + 1, chResult := Status.done.code, chReason := 0, chIndex := 0
                                       tallyBad := false })
  charterRecord s seq .done 0 0 (cmds.map charterWord)

/-- Steps 2 to 6 of a charter that has been read; then step 7 begins, on a row that Ration ungates for it. -/
def charterChecked (s : State) : State :=
  let bs := charterBytes s
  match chCommands bs with
  | none => mintRefuse s .encoding 3 0
  | some cmds =>
    match chGate s bs cmds with
    | some reason => mintRefuse s .accessFault reason 0
    | none => chIssue (wakeDom s 2) bs cmds 0

/-- What follows engine operation `k`: the next one, or the tally, which a charter that changes it reads first (R183 step 1). -/
def charterPassed (s : State) (k : Nat) : State :=
  let bs := charterBytes s
  let cmds := (chCommands bs).getD []
  let n := (chInstalls cmds).length
  if k = 1 && n ≠ 0 && !wellCan s then mintRefuse (wellDeny s) .entropyFail 0 0
  else if k < 1 + 2 * n then chIssue s bs cmds (k + 1)
  else if cmds.any chTally && s.watch.box.ver ≠ 0 then
    issueAccess (upMint s (fun m => { m with chStage := .tally })) .tallyRead {} (tallySlot s s.watch.box.ver.toNat) 0x40000 none
  else upMint s (fun m => { m with chStage := .checked true })

/-- Step 8, and the records of step 9; then the new tally is written (R183 step 3). `ok`: the tally was read. -/
def charterTallied (s : State) (ok : Bool) : State :=
  let bs := charterBytes s
  let cmds := (chCommands bs).getD []
  match chChecks s (chTallyOf s) bs 0 { owner := ownerHeld s } cmds with
  | .inl n => mintRefuse s .encoding 10 n
  | .inr q =>
    let ver := s.watch.box.ver.toNat + 1
    if !cmds.any chTally then upMint s (fun m => { m with chStage := .ready })
    else if !ok then mintRefuse s .fabricError 11 0
    else if !(List.range 4096).all (fun t => (chRecord s (chTallyOf s) t).isSome) then
      mintRefuse (upMint s (fun m => { m with tallyBad := true })) .accessFault 11 0
    else
      issueAccess (upMint s (fun m => { m with chStage := .writing })) .tallyWrite {} (tallySlot s ver) 0x40000
        (some (chWrites s (chRecOf s q) ver))

/-- The Mint goes on with its charter: in the control cycle after what it waited for. A context that has become FAULTED ends it (R268). -/
def charterAdvance (s : State) : State :=
  let s := if (getCtx s 2).faulted || (getCtx s 3).faulted || unitMaskDead s then mintRefuse s .pkAborted 0 0 else s
  match s.mint.chStage with
  | .here => charterChecked s
  | .passed k => charterPassed s k
  | .checked ok => charterTallied s ok
  | _ => s

/-- An access of the charter is outstanding. -/
def charterAccess (s : State) : Bool :=
  s.ai.accesses.any (fun kv => kv.2.any (fun a => a.who = .charterRead || a.who = .tallyRead || a.who = .tallyWrite))

/-- CHARTER_DONE (R203, Table 7.7): the end of processing, with the first step that failed, or with the commit, once no access of it is
outstanding. A ring that no longer
satisfies its command's check refuses the charter as step 8 does (DEDUCED, log entry 65). -/
def execCharterDone (s : State) : Host.Outcome State Fault Refusal :=
  match s.mint.chStage with
  | .refused st reason index =>
    if charterAccess s then .next s else .next (charterEnd (charterRefuse s s.mint.chSeq st reason index))
  | .ready =>
    if unitMaskDead s then .next (charterEnd (charterRefuse s s.mint.chSeq .pkAborted 0 0)) else
    let bs := charterBytes s
    let cmds := (chCommands bs).getD []
    match chChecks s (chTallyOf s) bs 0 { owner := ownerHeld s } cmds with
    | .inl n => .next (charterEnd (charterRefuse s s.mint.chSeq .encoding 10 n))
    | .inr q => .next (charterEnd (charterCommit s bs cmds q))
  | _ => .next s

end Sys2Proof.Machine
end

