-- ==== Sys2Proof/Machine/Routes.lean ====
section
/-! DEFINITION. The route store: VALIDATE and its completion, INVALIDATE and slot writes (R66 to R69). -/

namespace Sys2Proof.Machine

/-- The offset of MU_RT_CMD. -/
def rtCmd : Nat := 0x21F000

/-- The offset of a slot of a route. -/
def rtSlot (route slot : Nat) : Nat := 0x220000 + 0x100 * route + 8 * slot

/-- MU_RT_CMD refuses a command (R69). `keep`: a command in progress keeps its RESULT. -/
def rtRefuse (s : State) (p : CtlPort) (keep : Bool) (st : Status) (word : Nat) : State :=
  refuseCmd (if keep then s else upRoutes s (fun x => { x with result := st.code })) p rtCmd st word

/-- The route is no longer valid (R68). -/
def routeClear (s : State) (n : Nat) : State := modRoute s n (fun r => { r with valid := false, rlen := 0 })

/-- ROUTE_VALIDATE (R69). -/
def execRouteValidate (p : CtlPort) (route : BitVec 10) (rlen : BitVec 6) (s : State) : Host.Outcome State Fault Refusal :=
  portCmd s p rtCmd (2 ^ 16 + 2 ^ 10 * rlen.toNat + route.toNat) (fun s =>
    let word := 2 ^ 16 + 2 ^ 10 * rlen.toNat + route.toNat
    if s.routes.busy then .next (rtRefuse s p true .accessFault word)
    else if !inMode s .provision then .next (rtRefuse s p false .accessFault word)
    else .next (upRoutes (routeClear s route.toNat) (fun x => { x with busy := true, route := route.toNat, rlen := rlen.toNat })))

/-- The first of a route's first `n` slots that fails VALIDATE (R69, R78). -/
def firstBad (s : State) (route n : Nat) : Option Nat :=
  (List.range n).find? (fun i => !staticOk n i (tget 0 (getRoute s route).slots i))

/-- VALIDATE_COMPLETE (R69). -/
def execValidateComplete (s : State) : Host.Outcome State Fault Refusal :=
  let n := s.routes.rlen
  let k := s.routes.route
  if !s.routes.busy then .next s
  else if n = 0 || 32 < n || k = 0 then
    .next (upRoutes s (fun x => { x with busy := false, result := Status.encoding.code, badv := false, badpos := 0 }))
  else match firstBad s k n with
    | some i => .next (upRoutes s (fun x => { x with
        busy := false, result := Status.encoding.code, badv := true, badpos := BitVec.ofNat 5 i }))
    | none => .next (upRoutes (modRoute s k (fun r => { r with valid := true, rlen := n })) (fun x => { x with
        busy := false, result := Status.done.code, badv := false, badpos := 0 }))

/-- ROUTE_INVALIDATE (R69). R69 gives RESULT alone: BADV and BADPOS read 0 after DONE and stand after a refusal (DESIGN CHOICE, log entry
68). -/
def execRouteInvalidate (p : CtlPort) (route : BitVec 10) (s : State) : Host.Outcome State Fault Refusal :=
  portCmd s p rtCmd (2 ^ 17 + route.toNat) (fun s =>
    let word := 2 ^ 17 + route.toNat
    if s.routes.busy then .next (rtRefuse s p true .accessFault word)
    else if !inMode s .provision then .next (rtRefuse s p false .accessFault word)
    else if route = 0 then .next (rtRefuse s p false .encoding word)
    else .next (upRoutes (routeClear s route.toNat) (fun x => { x with result := Status.done.code, badv := false, badpos := 0 })))

/-- A write lands in a slot (R68); it ends a VALIDATE of its route (R69). -/
def slotSet (s : State) (route slot : Nat) (insn : W64) : State :=
  let s := modRoute s route (fun r => { r with slots := tset 0 r.slots slot insn, valid := false, rlen := 0 })
  if s.routes.busy && s.routes.route = route then
    upRoutes s (fun x => { x with busy := false, result := Status.encoding.code, badv := false, badpos := 0 })
  else s

/-- ROUTE_SLOT_WRITE (R67, R68): STOP. Route 0 does not exist. -/
def execRouteSlotWrite (p : CtlPort) (route : BitVec 10) (slot : BitVec 5) (insn : W64) (s : State) :
    Host.Outcome State Fault Refusal :=
  if route = 0 then portBoth s p .next
  else portSet s p (rtSlot route.toNat slot.toNat) true insn (fun s =>
    let n := route.toNat
    let i := slot.toNat
    if stopWritable s then .next (slotSet s n i insn)
    else if tget 0 (getRoute s n).slots i = insn then .next s
    else .next (regAccess s p 1 (rtSlot n i) true insn))

end Sys2Proof.Machine
end

