-- ==== Sys2Proof/Machine/Serai.lean ====
section
/-! DEFINITION. The Serai's commands and events: flushes (R224, R225), the probe (R229), masks (R222, R223) and uncorrectable slots
(R227). -/

namespace Sys2Proof.Machine

/-- The offset of SER_CMD. -/
def serCmd : Nat := 0x300004

/-! ### Flushes (R224, R225) -/

/-- The flush covers the slot. FLUSH_STALE goes by the resident tenant record. -/
def flushTakes (s : State) (f : FlushOp) (r : SlotRec) : Bool := flushCovers f r.kind r.tenant r.index r.epoch (flushCur s f)

/-- A SER_CMD written while BUSY is set is ignored and logged; another starts its flush. -/
def serBegin (s : State) (p : CtlPort) (word : Nat) (f : FlushOp) : State :=
  if s.serai.cmdBusy then refuseCmd s p serCmd .accessFault word
  else upSerai s (fun x => { x with cmdBusy := true, flush := some f })

/-- The flush in progress has passed every set. -/
def flushEnd (s : State) : State :=
  match s.serai.flush with
  | none => s
  | some f =>
    let s := flushWhere s (fun _ r => flushTakes s f r)
    upSerai s (fun x => { x with flush := none, cmdBusy := false, cmdResult := Status.done.code })

/-- FLUSH_ENTRY (R225): the slot of (TENANT, SER_CMD_INDEX), at once. -/
def execFlushEntry (p : CtlPort) (tenant : BitVec 12) (s : State) : Host.Outcome State Fault Refusal :=
  portCmd s p serCmd (1 + 65536 * tenant.toNat) (fun s =>
    let busy := s.serai.cmdBusy
    let s := serBegin s p (1 + 65536 * tenant.toNat) (.entry tenant s.serai.cmdIndex)
    .next (if busy then s else flushEnd s))

/-- FLUSH_TENANT (R224). -/
def execFlushTenant (p : CtlPort) (tenant : BitVec 12) (s : State) : Host.Outcome State Fault Refusal :=
  portCmd s p serCmd (2 + 65536 * tenant.toNat) (fun s =>
    .next (serBegin s p (2 + 65536 * tenant.toNat) (.tenant tenant)))

/-- FLUSH_STALE (R224). -/
def execFlushStale (p : CtlPort) (tenant : BitVec 12) (s : State) : Host.Outcome State Fault Refusal :=
  portCmd s p serCmd (3 + 65536 * tenant.toNat) (fun s =>
    .next (serBegin s p (3 + 65536 * tenant.toNat) (.stale tenant)))

/-- FLUSH_ALL (R224). -/
def execFlushAll (p : CtlPort) (s : State) : Host.Outcome State Fault Refusal :=
  portCmd s p serCmd 4 (fun s =>
    .next (serBegin s p 4 .all))

/-- FLUSH_WALK_DONE (R225). -/
def execFlushWalkDone (s : State) : Host.Outcome State Fault Refusal := .next (flushEnd s)

/-! ### The probe (R229) -/

/-- The metadata of a slot in the layout of Table 8.1. -/
def slotMeta (r : SlotRec) : BitVec 128 :=
  BitVec.ofNat 128 (r.index.toNat + 2 ^ 24 * r.tenant.toNat + 2 ^ 36 * r.kind.code + 2 ^ 39 * r.gen.toNat + 2 ^ 43 * r.epoch.toNat +
    2 ^ 51 * r.usage.toNat + 2 ^ 66 * r.ktype.toNat + 2 ^ 72 * r.algLock.toNat + 2 ^ 80 * (r.leases % 256) + 2 ^ 88 * r.notAfter.toNat)

/-- PROBE_SELECT (R229). -/
def execProbeSelect (p : CtlPort) (slot : BitVec 15) (s : State) : Host.Outcome State Fault Refusal :=
  portSet s p 0x300070 false (w64 slot.toNat) (fun s =>
    .next (upSerai s (fun x => { x with probeSel := slot, probe := slotMeta (getSlot s slot.toNat) })))

/-- MASKAGE_CLEAR (R229): any write sets 0. -/
def execMaskageClear (p : CtlPort) (s : State) : Host.Outcome State Fault Refusal :=
  portSet s p 0x300060 false 0 (fun s =>
    .next (upSerai s (fun x => { x with maskAgeMax := 0 })))

/-! ### Masks (R221 to R223) -/

/-- The slots of a group. -/
def groupSlots (g : Nat) : List Nat := (List.range 64).map (fun k => 64 * g + k)

/-- A slot whose material lies under its group's mask. -/
def slotMasked (k : SlotKind) : Bool := !(k = .free || k = .dead)

/-- The age of a group's mask, in µs. -/
def maskAge (s : State) (g : Nat) : Nat := 2 * (s.cycle - tget 0 s.serai.ages g) / 1000

/-- R222: one group is rewritten under a new mask. A group that had aged holds no unit key under its old mask; group 511 gets the
unit keys anew (R223). -/
def remask (s : State) (g : Nat) (m : W512) : State :=
  let old := tget 0 s.serai.masks g
  let was := tget false s.serai.aged g
  let age := maskAge s g
  let s := forAll (groupSlots g) (fun s k => modSlot s k (fun r =>
    if slotMasked r.kind && !(was && r.kind = .unit) then { r with material := r.material ^^^ old ^^^ m } else r)) s
  let s := upSerai s (fun x => { x with
    masks := tset 0 x.masks g m, aged := tset false x.aged g false, ages := tset 0 x.ages g s.cycle
    maskAgeMax := if x.maskAgeMax.toNat < age then w32 age else x.maskAgeMax
    remaskNext := (g + 1) % 512, remaskPasses := if g = 511 then x.remaskPasses + 1 else x.remaskPasses })
  if was && g = 511 && s.mint.root then
    unitSlots ((List.range 32).map (fun u => leBytes 64 (tget 0 s.mint.unitSeeds u).toNat)) s
  else s

/-- REMASK_GROUP (R222): the engine draws the mask of the next group, which is rewritten as the draw's last grant arrives (R282). A Well that
cannot deliver leaves the group's turn to the next try, and its request has failed (R283); an engine that still waits draws nothing more. -/
def execRemaskGroup (s : State) : Host.Outcome State Fault Refusal :=
  if !s.serai.hkeyDrawn || s.serai.zeroed || s.well.zeroed then .next s
  else if !wellCan s then .next (wellDeny s)
  else if s.well.draws.any (fun d => d.who = .remask) then .next s
  else .next (askDraw s 1 .remask 64)

/-- MASK_AGED (R223): a mask of 4 ms; the group is flushed; the unit slots of group 511 are overwritten with zero and stay KIND 5. -/
def execMaskAged (group : Fin 512) (s : State) : Host.Outcome State Fault Refusal :=
  let g := group.val
  if !s.serai.hkeyDrawn || s.serai.zeroed || tget false s.serai.aged g || maskAge s g < 4000 then .next s
  else
    let s :=
      if g = 511 then forAll (groupSlots g) (fun s k => modSlot s k (fun r => if r.kind = .unit then { r with material := 0 } else r)) s
      else forAll ((groupSlots g).filter (fun k =>
        let r := getSlot s k
        r.kind = .tenant || r.kind = .internal || r.kind = .privateKey || r.kind = .holding)) flushSlot s
    let s := upSerai s (fun x => { x with aged := tset false x.aged g true, maskLate := true })
    .next (emit s 4 0x304 0 [w32 g])

/-! ### Uncorrectable slots (R227) -/

/-- A slot becomes DEAD: it is overwritten with zero, and its leases stay until the next Recovery. -/
def deadSlot (s : State) (k : Nat) : State := modSlot s k (fun r => { kind := .dead, leases := r.leases })

/-- The slot holds what an instruction of the job takes from its tenant's INTERNAL slots: the record, the KEK, and for STREAM the context
keys. -/
def readsInternal (s : State) (slot j : Nat) (idxs : List Nat) : Bool :=
  let r := getSlot s slot
  r.kind = .internal && r.tenant = jobTenant s j && idxs.contains r.index.toNat

/-- The running instruction of a job touches the slot: it names a register that refers to it, or it is a KEY of the slot's triple, whose
lookup reads the slot, or a KEY, PUT or STREAM that reads an INTERNAL slot of its tenant (DEDUCED, log entry 66). -/
def touches (s : State) (slot : Nat) (j : Nat) : Bool :=
  let x := getJob s j
  let i := instrAt s x x.pos
  let r := getSlot s slot
  let refers := fun (d : Nat) => accepts d [.k] && (keyReg s j (keyNum d)).any (fun k => k.slot = slot)
  let t := (jobTenant s j).toNat
  match wopOf (wOpcode i) with
  | some .stream => readsInternal s slot j [idxRecord t, idxCkE t, idxCkT t]
  | some .key =>
    if readsInternal s slot j [idxRecord t, idxKek t] then true
    else if wArg i = 1 then refers (wA i)
    else wArg i = 0 && wB i = 0 && r.kind = .tenant && r.tenant = jobTenant s j && r.index.toNat = wIndex i
  | some .derive => refers (wB i)
  | some .sealW => refers (wC i)
  | some .openW => refers (wC i)
  | some .cipher => refers (wC i)
  | some .mac => refers (wC i)
  | some .hash => refers (wC i)
  | some .pkop => refers (wC i)
  | some .latop => refers (wC i)
  | _ => false

/-- SLOT_UNCORRECTABLE (R227): the KEY or key use that touched the slot ends with KEY_CONFLICT, and so does every later use of the key,
since a register refers to no DEAD slot. -/
def execSlotUncorrectable (slot : BitVec 15) (s : State) : Host.Outcome State Fault Refusal :=
  if s.serai.zeroed then .next s
  else
    let js := ((List.range 16).filterMap (fun l => (getLane s l).run)).filter (fun j =>
      touches s slot.toNat j && !(getJob s j).isOver && (getJob s j).wait = .nothing)
    let s := seraiRecord (deadSlot s slot.toNat) slot.toNat 3 Status.keyConflict.code
    .next (forAll js (fun s j => endHard s j .keyConflict) s)

end Sys2Proof.Machine
end

