-- ==== Sys2Proof/Machine/Faults.lean ====
section
/-! DEFINITION. Fatal lane faults (R173, R175, Table 6.8) and the storage faults of R444. -/

namespace Sys2Proof.Machine

/-! ### Lanes (R175) -/

/-- A job that the fault of its lane ends: the running job ends now, a saved job at once. -/
def faultJob (lead : Nat) (s : State) (j : Nat) : State :=
  let s := wipeEnded s j 2
  match (getJob s j).seat with
  | .running _ => if (getJob s j).isOver then s else endHard s j .laneFault
  | _ => endAside s j .laneFault (some lead)

/-- A fatal fault of lane `l`, of row `row` of Table 6.8 (R175); on a yoke the partner is quarantined too. -/
def faultLane (s : State) (l row : Nat) : State :=
  let lead := leadOf s l
  let team := members s lead
  let n := getLane s lead
  let js := n.run.toList.filter (fun j => !(getJob s j).isOver) ++ n.saved
  let s := containString s (stringOf l) 11
  let s := forAll js (faultJob lead) s
  let s := returnLanes s team
  let s := match n.courier with
    | some j => queueFront (returnJob s j) [j]
    | none => s
  let s := modLane s l (fun x => { x with faulted := true, kat := false, retest := false })
  let s := forAll team quarantineLane s
  let s := modLane s lead (fun x => { x with preempt := false })
  testsEnd (emit s 3 0x203 Status.laneFault.code [w32 l, w32 row, w32 js.length]) (trainOf l)

/-- The lane is there to fail: the block is out of reset and its train is powered. -/
def laneLive (s : State) (l : Nat) : Bool := portsServed s && domOn s (trainOf l)

/-- SEQUENCER_WATCHDOG (Table 6.8 row 5): no instruction of the running job has completed for 2²⁰ lane cycles in which it waited for
nothing outside its lane. -/
def execSequencerWatchdog (lane : Fin 16) (s : State) : Host.Outcome State Fault Refusal :=
  let l := lane.val
  match (getLane s (leadOf s l)).run with
  | none => .next s
  | some j =>
    if laneLive s l && !(getJob s j).isOver && 2 ^ 20 ≤ (getJob s j).stuck then .next (faultLane s l 5)
    else .next s

/-- FATAL_LANE_FAULT (Table 6.8 rows 2 to 5; the other rows are no fatal faults). -/
def execFatalLaneFault (lane : Fin 16) (row : Fin 8) (s : State) : Host.Outcome State Fault Refusal :=
  if laneLive s lane.val && 2 ≤ row.val && row.val ≤ 5 then .next (faultLane s lane.val row.val) else .next s

/-! ### Storage faults (R444) -/

/-- The STORAGE_ERR code of an array (Table 18.6). -/
def storageCode (a : StorageArray) : Nat :=
  match a with
  | .routeStore => 1
  | .reorderStore => 2
  | .ringContext => 3
  | .translationCache => 4
  | .readReturnBuffer => 5
  | .porterBuffer => 6
  | .maskStore => 7
  | .logicParity => 8

/-- A route's word is lost: the route is invalidated, and a job that runs it on the lane of unit `unit` has read the failing word. -/
def routeLost (s : State) (route unit : Nat) : State :=
  let s := routeClear s route
  if 7 ≤ unit ∧ unit ≤ 22 then
    match (getLane s (leadOf s (unit - 7))).run with
    | some j => if e0Route (getJob s j).word0 = route ∧ route ≠ 0 then failJob s j .routeEmpty else s
    | none => s
  else s

/-- A read return is lost: the outstanding read under the tag has a response with STATUS 1. -/
def readLost (s : State) (port tag : Nat) : State :=
  match tget none (getPort s port).reads tag with
  | none => s
  | some r =>
    modPort s port (fun p => { p with
      reads := tset none p.reads tag (some { r with fail := lowerFail r.fail (some (r.addr.toNat, .fabricError)) }) })

/-- The destination of the data that channel `n` has lost: that of data in its buffer, else that of its oldest outstanding read, and its
DST otherwise. -/
def ptLostAt (s : State) (n : Nat) : W64 :=
  let c := getChan s n
  match (c.xfer.map (fun x => x.early)).getD [] with
  | q :: _ => q.2.1
  | [] =>
    match (accessesOf s (fun w => match w with
      | .ptRead k x _ _ => k = n && x = c.epoch
      | _ => false)).head? with
    | some { who := .ptRead _ _ _ dst, .. } => dst
    | _ => c.act.dst

/-- R227, R444: the mask of a group is lost: every slot of the group becomes DEAD. -/
def maskLost (s : State) (g : Nat) : State :=
  forAll (groupSlots g) (fun s k => seraiRecord (deadSlot s k) k 3 Status.keyConflict.code) s

/-- UNCORRECTABLE_ERROR (R444). -/
def execUncorrectableError (array : StorageArray) (index unit : Nat) (s : State) : Host.Outcome State Fault Refusal :=
  if !portsServed s then .next s
  else
    let s := upRation s (fun r => { r with ue := r.ue + 1 })
    let s := emit s 18 0x905 Status.storageFault.code [w32 (storageCode array), w32 index, w32 unit]
    let s := rationRaise s 244 s.ration.irqFault
    match array with
    | .routeStore => .next (routeLost s (index % 1024) unit)
    | .reorderStore => .next (containBlock (upMuster s (fun m => { m with roBad := true })) 6)
    | .ringContext => .next (ringFault s (index % 4096) .storageFault 0)
    | .translationCache => .next (upAi s (fun a => { a with atc := a.atc.eraseIdx index }))
    | .readReturnBuffer => .next (readLost s (unit % 4) index)
    | .porterBuffer => .next (tgClear (ptStop s none true 3 (ptLostAt s (index % 32))) 6)
    | .maskStore => .next (maskLost s (index % 512))
    | .logicParity => .next (containBlock s 6)

end Sys2Proof.Machine
end

