-- ==== Sys2Proof/Machine/Units.lean ====
section
/-! DEFINITION. Unit windows: UW_STATUS and UW_CTRL as software reads them (R14, R15), and the writes of QUARANTINE, YOKE and ENABLE
(R15, R16, R174, R252). -/

namespace Sys2Proof.Machine

/-- A counter of a unit: a group reads the sum of its leaves (R15). -/
def unitSum (s : State) (u : Nat) (f : UnitRec → Nat) : Nat :=
  if isLeaf u then f (getUnit s u) else ((leavesOf u).map (fun v => f (getUnit s v))).sum

/-! ### Reading (Table 1.5) -/

/-- The leading lane that holds what a lane runs: a lane of a yoke shows its leader's jobs. -/
def shownLane (s : State) (l : Nat) : LaneRec := getLane s (leadOf s l)

/-- Jobs resident on a lane: running and saved. -/
def laneActive (s : State) (l : Nat) : Nat := (shownLane s l).run.toList.length + (shownLane s l).saved.length

/-- A job runs, is saved or is staged on the lane. -/
def laneBusy (s : State) (l : Nat) : Bool :=
  let n := shownLane s l
  decide (0 < laneActive s l) || n.staged ≠ [] || n.courier.isSome

/-- The power of a leaf is off: its domain is gated, or not yet back. -/
def domOff (s : State) (d : Nat) : Bool :=
  (getDom s d).phase = .gated || (getDom s d).phase = .gating || (getDom s d).phase = .waking

/-- STATE of a lane (Table 6.4, the first that applies). While the test that follows a release runs, it is WAKING (R174). -/
def laneState (s : State) (l : Nat) : Nat :=
  let d := (getDom s (trainOf l)).phase
  if (getLane s l).faulted && !((getLane s l).kat && (getLane s l).retest) then 7
  else if stringContained s (stringOf l) then 6
  else if (getUnit s (laneUnit l)).quarantine then 5
  else if d = .draining && laneBusy s l then 4
  else if domOff s (trainOf l) then 0
  else if (getLane s l).kat then 1
  else if laneBusy s l then 3
  else 2

/-- STATE of a bench (R253): BUSY while an operation runs, otherwise in the order of R15. R15 gives OFF no place in that order: here it
stands below QUARANTINED (DESIGN CHOICE, log entry 61). While the test that follows a release runs, it is WAKING (R252). -/
def benchState (s : State) (b : Nat) : Nat :=
  if benchBusy s b then 3
  else if (getBench s b).faulted && !((getBench s b).kat && !(getUnit s (benchUnit b)).quarantine) then 7
  else if (getUnit s (benchUnit b)).quarantine then 5
  else if domOff s 2 then 0
  else if (getDom s 2).phase = .draining then 4
  else if (getBench s b).kat then 1
  else 2

/-- STATE of a leaf. -/
def leafState (s : State) (u : Nat) : Nat := if u < 24 then laneState s (u - 7) else benchState s (u - 24)

/-- The power domain of a leaf. -/
def leafDom (u : Nat) : Nat := if u < 24 then trainOf (u - 7) else 2

/-- The priority order of R15, first the highest: FAULTED, CONTAINED, QUARANTINED, DRAINING, BUSY, WAKING, IDLE. -/
def statePriority : List Nat := [7, 6, 5, 4, 3, 1, 2]

/-- STATE of a unit: a group whose domain is gated is OFF, and so are those parts of the caravan (R15). -/
def unitState (s : State) (u : Nat) : Nat :=
  if isLeaf u then leafState s u
  else
    let states := ((leavesOf u).filter (fun v => !domOff s (leafDom v))).map (leafState s)
    (statePriority.find? (fun x => states.contains x)).getD 0

/-- EN_EFF of a unit. -/
def unitEnEff (s : State) (u : Nat) : Bool :=
  (leavesOf u).any (fun v => if v < 24 then laneEnEff s (v - 7) else benchEnEff s (v - 24))

/-- ACTIVE of a unit: on a yoke each job counts once, in the leading lane. -/
def unitActive (s : State) (u : Nat) : Nat :=
  if 7 ≤ u ∧ u ≤ 22 then laneActive s (u - 7)
  else ((leavesOf u).map (fun v =>
    if v < 24 then (if leadOf s (v - 7) = v - 7 then laneActive s (v - 7) else 0) else bit (benchBusy s (v - 24)))).sum

/-- A lane of a formed yoke. -/
def laneYoked (s : State) (l : Nat) : Bool := yokeFormed s l || (l % 2 = 1 && yokeFormed s (l - 1))

/-- Some lane of the unit satisfies `p`. -/
def anyLane (u : Nat) (p : Nat → Bool) : Bool := (leavesOf u).any (fun v => decide (v < 24) && p (v - 7))

/-- UW_STATUS. -/
def unitStatusWord (s : State) (u : Nat) : W32 :=
  w32 (unitState s u + 8 * bit (unitEnEff s u) + 16 * bit (anyLane u (laneYoked s)) +
    32 * bit (anyLane u (fun l => (shownLane s l).laggard)) + 65536 * (unitActive s u % 256))

/-- QUARANTINE as read: of a group, 1 if any descendant leaf is quarantined. -/
def quarRead (s : State) (u : Nat) : Bool := (leavesOf u).any (fun v => (getUnit s v).quarantine)

/-- YOKE is meaningful only in lanes at positions 0 and 2. -/
def yokeUnit (u : Nat) : Bool := 7 ≤ u && u ≤ 22 && (u - 7) % 2 = 0

/-- UW_CTRL. -/
def unitCtrlWord (s : State) (u : Nat) : W32 :=
  w32 (bit (getUnit s u).enable + 2 * bit (getUnit s u).yoke + 4 * bit (quarRead s u))

/-! ### Writing -/

/-- A leaf becomes quarantined: what is placed on it goes on (R16). -/
def quarantineLeaf (s : State) (u : Nat) : State :=
  let s := modUnit s u (fun x => { x with quarantine := true })
  if u < 24 then modLane s (u - 7) (fun l => { l with retest := false }) else s

/-- A quarantined leaf is released: the bit clears and the known-answer test starts (R174, R252). The spec does not say what a release
does while the leaf is unpowered: the test is then the one that follows the next ungating, and a FAULTED leaf stays FAULTED until it
passes (DESIGN CHOICE, log entry 61). -/
def releaseLeaf (s : State) (u : Nat) : State :=
  if !(getUnit s u).quarantine then s
  else
    let s := modUnit s u (fun x => { x with quarantine := false })
    if u < 24 then modLane s (u - 7) (fun l => { l with kat := domOn s (trainOf (u - 7)), retest := true })
    else modBench s (u - 24) (fun b => { b with kat := domOn s 2 })

/-- QUARANTINE is written with a value in Provision. -/
def setQuarantine (s : State) (u : Nat) (v : Bool) : State :=
  forAll (leavesOf u) (fun s k => if v then (if (getUnit s k).quarantine then s else quarantineLeaf s k) else releaseLeaf s k) s

/-- The offset of UW_CTRL. -/
def uwCtrl (u : Nat) : Nat := 0x1000 * u + 0x200

/-- The word of UW_CTRL that writes QUARANTINE and leaves the other fields. -/
def quarWord (s : State) (u : Nat) (v : Bool) : Nat := (unitCtrlWord s u).toNat % 4 + 4 * bit v

/-- A write of UW_CTRL's QUARANTINE alone. -/
def writeQuarantine (s : State) (p : CtlPort) (u : Nat) (v : Bool) : State :=
  let word := quarWord s u v
  if stopWritable s then setQuarantine s u v
  else if quarRead s u = v then s
  else regAccess s p 1 (uwCtrl u) false (w64 word)

/-- QUARANTINE_SET (R15). -/
def execQuarantineSet (p : CtlPort) (unit : Fin 32) (s : State) : Host.Outcome State Fault Refusal :=
  portSet s p (uwCtrl unit.val) false (w64 (quarWord s unit.val true)) (fun s =>
    .next (writeQuarantine s p unit.val true))

/-- QUARANTINE_RELEASE (R174, R252). -/
def execQuarantineRelease (p : CtlPort) (unit : Fin 32) (s : State) : Host.Outcome State Fault Refusal :=
  portSet s p (uwCtrl unit.val) false (w64 (quarWord s unit.val false)) (fun s =>
    .next (writeQuarantine s p unit.val false))

/-- ENABLE is written. -/
def setEnable (s : State) (u : Nat) (v : Bool) : State := modUnit s u (fun x => { x with enable := v })

/-- ENABLE_WRITE (R16): ENABLE is RW. -/
def execEnableWrite (p : CtlPort) (unit : Fin 32) (enable : Bool) (s : State) : Host.Outcome State Fault Refusal :=
  portSet s p (uwCtrl unit.val) false (w64 ((unitCtrlWord s unit.val).toNat / 2 * 2 + bit enable)) (fun s =>
    .next (setEnable s unit.val enable))

/-- A whole write of UW_CTRL: each field by its type (R458). -/
def writeCtrl (s : State) (p : CtlPort) (u : Nat) (word : W32) : State :=
  let s' := setEnable s u (tb word 0)
  if stopWritable s then
    let s' := if yokeUnit u then modUnit s' u (fun x => { x with yoke := tb word 1 }) else s'
    setQuarantine s' u (tb word 2)
  else if (yokeUnit u && (getUnit s u).yoke) != tb word 1 || quarRead s u ≠ tb word 2 then regAccess s' p 1 (uwCtrl u) false (word.setWidth 64)
  else s'

end Sys2Proof.Machine
end

