-- ==== Sys2Proof/Machine/Fuses.lean ====
section
/-! DEFINITION. The Fuse controller's commands (R408, R409) and Safe-conduct's: PUBLISH (R414) and ATTEST (R415, R416). -/

namespace Sys2Proof.Machine

/-! ### Fuse commands: acceptance (Table 17.4) -/

/-- The offset of FZ_CMD. -/
def fzCmd : Nat := 0xA01004

/-- The word written to FZ_CMD. -/
def fzWord (op word : Nat) (acc : Bool) : Nat := op + 8 * bit acc + 65536 * word

/-- FZ_CMD refuses a command: RESULT, the log, and the FUSE_PROGRAM record that every command has, with nothing blown. While BUSY is set
a command is ignored and logged (R408). -/
def fzRefuse (s : State) (p : CtlPort) (st : Status) (op word : Nat) (acc : Bool) : State :=
  let data := fzWord op word acc
  if s.fuse.cmd.isSome then refuseCmd s p fzCmd st data
  else
    let s := refuseCmd (upFuse s (fun f => { f with cmdResult := st.code })) p fzCmd st data
    fuseRecord s { op := op, word := if op = 1 then word else 0x1FF, acc := acc, plan := [] } st.code 0

/-- A command that acts: its plan of words and data. -/
def fzBegin (s : State) (op word : Nat) (acc : Bool) (plan : List (Nat × W32)) : State :=
  upFuse s (fun f => { f with cmd := some { op := op, word := word, acc := acc, plan := plan } })

/-- R408: a command acts only when none is in progress, in Provision, and in the states of Table 17.4 (`allowed`). -/
def fzMay (s : State) (allowed : Bool) : Bool := s.fuse.cmd.isNone && inMode s .provision && allowed

/-- R409 step 1: without ACC, a word of the plan that is not zero. -/
def notBlank (s : State) (acc : Bool) (plan : List (Nat × W32)) : Bool :=
  !acc && plan.any (fun p => tget 0 s.fuse.array p.1 ≠ 0)

/-- PROGRAM's words (Table 17.4). -/
def programMay (s : State) (w : Nat) : Bool :=
  (96 ≤ w && decide (s.fuse.life ≠ 4)) || (80 ≤ w && w ≤ 95 && !secretLocked s)

/-- PROGRAM (R408, R409). -/
def execProgram (p : CtlPort) (word : BitVec 9) (acc : Bool) (s : State) : Host.Outcome State Fault Refusal :=
  portCmd s p fzCmd (fzWord 1 word.toNat acc) (fun s =>
    let w := word.toNat
    let plan := [(w, s.fuse.pdata)]
    if !fzMay s (programMay s w) then .next (fzRefuse s p .accessFault 1 w acc)
    else if notBlank s acc plan then .next (fzRefuse s p .fuseNotBlank 1 w acc)
    else .next (fzBegin s 1 w acc plan))

/-- GENROOT (R408): RS and IS are drawn in class 2 (R282), and then programmed: nothing is planned while the draw waits. -/
def execGenroot (p : CtlPort) (s : State) : Host.Outcome State Fault Refusal :=
  portCmd s p fzCmd (fzWord 2 0 false) (fun s =>
    if !fzMay s (s.fuse.life = 0) then .next (fzRefuse s p .accessFault 2 0 false)
    else if !wellCan s then .next (genrootFails (wellDeny s))
    else .next (askDraw (fzBegin s 2 0x1FF false []) 2 .genroot 64))

/-- LOCK_SECRET (R408). -/
def execLockSecret (p : CtlPort) (s : State) : Host.Outcome State Fault Refusal :=
  portCmd s p fzCmd (fzWord 3 0 false) (fun s =>
    if !fzMay s (s.fuse.life = 1 && !s.fuse.disagree && !s.fuse.fault) then .next (fzRefuse s p .accessFault 3 0 false)
    else .next (fzBegin s 3 0x1FF false [(64, 0x007)]))

/-- The plan of OWNERHASH: words 65 to 76 and their ECC word (Table 17.4). -/
def ownerPlan (h : BitVec 384) : List (Nat × W32) :=
  let data := leBytes 48 h.toNat
  (List.range 12).map (fun i => (65 + i, w32 (ofLe (slice data (4 * i) 4)))) ++ [(77, w32 (fuseEcc data))]

/-- OWNERHASH (R408, R409). -/
def execOwnerhash (p : CtlPort) (acc : Bool) (s : State) : Host.Outcome State Fault Refusal :=
  portCmd s p fzCmd (fzWord 4 0 acc) (fun s =>
    let plan := ownerPlan s.fuse.ownData
    if !fzMay s (s.fuse.life = 2) then .next (fzRefuse s p .accessFault 4 0 acc)
    else if s.fuse.ownData = 0 then .next (fzRefuse s p .encoding 4 0 acc)
    else if notBlank s acc plan then .next (fzRefuse s p .fuseNotBlank 4 0 acc)
    else .next (fzBegin s 4 0x1FF acc plan))

/-- LOCK_OWNER (R408). -/
def execLockOwner (p : CtlPort) (s : State) : Host.Outcome State Fault Refusal :=
  portCmd s p fzCmd (fzWord 5 0 false) (fun s =>
    if !fzMay s (s.fuse.life = 2 && s.fuse.ownerV) then .next (fzRefuse s p .accessFault 5 0 false)
    else .next (fzBegin s 5 0x1FF false [(64, 0x038)]))

/-- RETIRE (R408). -/
def execRetire (p : CtlPort) (s : State) : Host.Outcome State Fault Refusal :=
  portCmd s p fzCmd (fzWord 6 0 false) (fun s =>
    let live := s.fuse.life = 1 || s.fuse.life = 2 || s.fuse.life = 3
    if !fzMay s (live && !ownerHeld s) then .next (fzRefuse s p .accessFault 6 0 false)
    else .next (fzBegin s 6 0x1FF false [(64, 0x1C0)]))

/-! ### Fuse commands: the end (R409) -/

/-- The number of bits of a word that are 1. -/
def ones (w : W32) : Nat := ((List.range 32).map (fun b => bit (tb w b))).sum

/-- The words are programmed in order, each read back; `stuck` are the bits of each that do not blow. The state, the bits blown, and
whether every word read back as it should: the first that does not ends the command. -/
def fuseBlow : State → List (Nat × W32) → List W32 → Nat → State × Nat × Bool
  | s, [], _, n => (s, n, true)
  | s, (w, d) :: rest, stuck, n =>
    let old := tget 0 s.fuse.array w
    let new := old ||| (d &&& ~~~(stuck.headD 0))
    let s := upFuse s (fun f => { f with array := tset 0 f.array w new })
    let n := n + (ones new - ones old)
    if new = old ||| d then fuseBlow s rest stuck.tail n else (s, n, false)

/-- FUSE_COMMAND_DONE (R408, R409). -/
def execFuseCommandDone (stuck : List W32) (s : State) : Host.Outcome State Fault Refusal :=
  match s.fuse.cmd with
  | none => .next s
  | some j =>
    if j.plan.isEmpty then .next s else
    let (s, n, ok) := fuseBlow s j.plan stuck 0
    let st : Status := if ok then .done else .fuseVerify
    let s := upFuse s (fun f => { f with cmd := none, cmdResult := st.code, blown := f.blown + w32 n })
    .next (fuseSensed (fuseRecord s j st.code n))

/-! ### Safe-conduct: acceptance (R414, R416) -/

/-- The offset of SF_CMD. -/
def sfCmd : Nat := 0xA02004

/-- SF_CMD refuses a command. -/
def sfRefuse (s : State) (p : CtlPort) (st : Status) (data : Nat) : State :=
  refuseCmd (if s.safe.cmd.isSome then s else upSafe s (fun f => { f with cmdResult := st.code })) p sfCmd st data

/-- ATTEST is refused: each ATTEST writes an ATTEST record (R416), but one written while BUSY is set, which is ignored. -/
def attRefuse (s : State) (p : CtlPort) (st : Status) (u : Nat) : State :=
  let t := sfRefuse s p st (2 + 256 * u)
  whenS s.safe.cmd.isNone (fun t => emit t 16 0x804 st.code (w32 u :: w32 st.code.toNat :: loHi s.safe.attAddr)) t

/-- Unit keys exist: neither RAW nor RETIRED (R406), and a Self-check since GENROOT has derived them (R408). -/
def unitKeyed (s : State) : Bool := decide (s.fuse.life ≠ 0) && decide (s.fuse.life ≠ 4) && s.mint.root

/-- A request for signatures wakes the bench row (R441). -/
def signWake (s : State) : State := if inMode s .service then wakeRow s else wakeDom s 2

/-! ### Signing (R414, R416) -/

/-- A Safe-conduct command begins. -/
def safeBegin (s : State) (c : SafeCmd) (stage : SafeStage) : State :=
  upSafe s (fun f => { f with cmd := some c, run := f.run + 1, stage := stage, sigs := [] })

/-- Signatures number `2k` and `2k + 1` of the command are requested, of unit `u`'s two keys: over a digest, and over a message with a
context string (R236, R266). -/
def signRequest (k u : Nat) (ecBody pqBody context : List Byte) (s : State) : State :=
  let s := queuePk s {
    ticket := s.house.nextTicket, who := .safeConduct, job := s.safe.run, part := 2 * k, fn := 0x11, param := 48
    input := sha384 ecBody, key := some (keyRefOf s (unitKeySlot u 0)) }
  queueLat s {
    ticket := s.scales.nextTicket, who := .safeConduct, job := s.safe.run, part := 2 * k + 1, fn := 0x11, set := 2
    input := pqBody, context := context, key := some (keyRefOf s (unitKeySlot u 1)) }

/-- Signatures are made, if the unit keys (R444) and the Well (R283) can give them. -/
def signStart (s : State) (c : SafeCmd) (requests : State → State) : State :=
  if unitMaskDead s then safeBegin s c (.over .pkAborted)
  else if !wellCan s then safeBegin (wellDeny s) c (.over .entropyFail)
  else offerCtxs (offerBenches (requests (signWake (safeBegin s c .signing))))

/-- The signatures 0 to `n − 1` of the command are made. -/
def signed (s : State) (n : Nat) : Bool := (List.range n).all (fun k => !(tget [] s.safe.sigs k).isEmpty)

/-! ### PUBLISH (R414) -/

/-- The store is written to SF_STORE_ADDR. -/
def storeWrite (s : State) : State :=
  issueAccess (upSafe s (fun f => { f with stage := .writing })) .storeWrite {} s.safe.storeAddr 0x40000
    (some (readBytes s.safe.store 0 0x40000))

/-- PUBLISH (R414): in Provision; a store that is not held is rebuilt first, with 32 signatures of each kind. -/
def execPublish (p : CtlPort) (s : State) : Host.Outcome State Fault Refusal :=
  portCmd s p sfCmd 1 (fun s =>
    if s.safe.cmd.isSome || !inMode s .provision || !unitKeyed s then .next (sfRefuse s p .accessFault 1)
    else if s.safe.storeAddr = 0 || s.safe.storeAddr.toNat % 4096 ≠ 0 then .next (sfRefuse s p .encoding 1)
    else if s.safe.held then .next (storeWrite (safeBegin s .publish .writing))
    else
      .next (signStart s .publish (forAll (List.range 32) (fun s u =>
        signRequest u (signerOf u) (certTbs s u 0) (certTbs s u 1) [] s))))

/-- PUBLISH_DONE (R414, R444): the command ends as its signatures and writes have ended. -/
def execPublishDone (s : State) : Host.Outcome State Fault Refusal :=
  match s.safe.cmd, s.safe.stage with
  | some .publish, .over st => .next (safeEnd (whenS (st = .done) (fun s => upSafe s (fun f => { f with published := true })) s) .publish st)
  | _, _ => .next s

/-! ### ATTEST (R415) -/

/-- MU_RT_VALID*k*. -/
def rtValidWord (s : State) (k : Nat) : W32 :=
  w32 ((List.range 32).map (fun j => 2 ^ j * bit (getRoute s (32 * k + j)).valid)).sum

/-- MU_RT_LEN*k*. -/
def rtLenWord (s : State) (k : Nat) : W32 :=
  w32 ((List.range 4).map (fun j =>
    256 ^ j * (if (getRoute s (4 * k + j)).valid then (getRoute s (4 * k + j)).rlen % 256 else 0))).sum

/-- The bytes under ROUTES (Table 17.6). -/
def routesBytes (s : State) : List Byte :=
  (List.range 32).flatMap (fun k => leBytes 4 (rtValidWord s k).toNat) ++
  (List.range 256).flatMap (fun k => leBytes 4 (rtLenWord s k).toNat) ++
  (tkeys (fun _ (r : RouteRec) => r.valid) s.routes.routes).flatMap (fun n =>
    (List.range 32).flatMap (fun i => leBytes 8 (tget 0 (getRoute s n).slots i).toNat))

/-- FLAGS of the report. -/
def reportFlags (s : State) : Nat :=
  bit s.fuse.disagree + 2 * bit (ownerHeld s) + 4 * bit (timeSet s) + 8 * bit s.safe.published

/-- The body of unit `u`'s report (Table 17.6). -/
def reportBody (s : State) (u : Nat) : List Byte :=
  let t := s.almanac.time
  let kids := unitChildren u
  leBytes 4 0x54415053 ++ [1, BitVec.ofNat 8 u] ++ leBytes 2 (pathCode u) ++
  [BitVec.ofNat 8 (unitType u), BitVec.ofNat 8 kids.length, BitVec.ofNat 8 (signerOf u), BitVec.ofNat 8 (reportFlags s),
   BitVec.ofNat 8 s.fuse.life.toNat, BitVec.ofNat 8 s.mode.mode.code] ++ zeros 2 ++
  leBytes 32 s.safe.attNonce.toNat ++ leBytes 8 t.sec.toNat ++ leBytes 4 t.nsec ++ zeros 4 ++
  leBytes 48 (getUnit s u).keyHash.toNat ++
  (if (ownerHash s).isNone then zeros 48 else (List.range 12).flatMap (fun i => leBytes 4 (tget 0 s.fuse.sensed (65 + i)).toNat)) ++ deviceId s ++
  leBytes 8 s.watch.box.ver.toNat ++ leBytes 8 s.watch.box.seq.toNat ++ sha384 (routesBytes s) ++
  leBytes 4 (unitStatusWord s u).toNat ++ leBytes 4 (unitSum s u (fun r => r.faults.toNat)) ++ leBytes 8 (unitSum s u (fun r => r.jobs.toNat)) ++
  (if u = 0 then sha384 (installBlock s) else zeros 48) ++ zeros 16 ++
  kids.flatMap (fun v => leBytes 48 (getUnit s v).keyHash.toNat)

/-- The context string of R415. -/
def attestContext : List Byte := labelBytes "SPN-ATTEST"

/-- ATTEST (R415, R416): in Provision and Service. The body is what the registers show at the command (DESIGN CHOICE, log entry 65). -/
def execAttest (p : CtlPort) (unit : BitVec 5) (s : State) : Host.Outcome State Fault Refusal :=
  portCmd s p sfCmd (2 + 256 * unit.toNat) (fun s =>
    let u := unit.toNat
    let body := reportBody s u
    if s.safe.cmd.isSome || !(inMode s .provision || inMode s .service) || !unitKeyed s then
      .next (attRefuse s p .accessFault u)
    else
      .next (signStart (upSafe s (fun f => { f with body := body })) (.attest u) (signRequest 0 (signerOf u) body body attestContext)))

/-- The report is written to SF_ATT_ADDR. -/
def reportWrite (s : State) : State :=
  let report := s.safe.body ++ tget [] s.safe.sigs 0 ++ tget [] s.safe.sigs 1
  issueAccess (upSafe s (fun f => { f with stage := .writing })) .reportWrite {} s.safe.attAddr report.length (some report)

/-- ATTEST_DONE (R415, R416, R444): the command ends as its signatures and writes have ended. -/
def execAttestDone (s : State) : Host.Outcome State Fault Refusal :=
  match s.safe.cmd, s.safe.stage with
  | some (.attest u), .over st =>
    .next (safeEnd (whenS (st = .done) (fun s => upSafe s (fun f => { f with reports := f.reports + 1 })) s) (.attest u) st)
  | _, _ => .next s

/-- Safe-conduct goes on: its last signature has been made, so that the store or the report can be written; or the unit keys are lost. -/
def safeAdvance (s : State) : State :=
  match s.safe.cmd, s.safe.stage with
  | some c, .signing =>
    if unitMaskDead s then upSafe s (fun f => { f with stage := .over .pkAborted })
    else (match c with
      | .publish => if signed s 64 then storeWrite (buildStore s.safe.sigs s) else s
      | .attest _ => if signed s 2 then reportWrite s else s)
  | _, _ => s

end Sys2Proof.Machine
end

