-- ==== Sys2Proof/Machine/Ledger.lean ====
section
/-! DEFINITION. The Ledger: records (R338, R339), banks (R340, R341, R343) and reads through the aperture (R346). -/

namespace Sys2Proof.Machine

/-- Producer words that a bank holds (R340). -/
def bankWords : Nat := 3584

/-- Source `src` is raised, and vector 29 is requested if its enable is set (R349). -/
def ledgerSignal (s : State) (src : Nat) (en : Bool) : State := whenS en (fun s => irqBlock s 29) (raise s src)

/-- Ledger words that `n` producer words take. -/
def wordsBegun (n : Nat) : Nat := (n + 6) / 7

/-- The producer words in groups of seven. -/
def sevens : Nat → List W32 → List (List W32)
  | 0, _ => []
  | fuel + 1, l => if l.isEmpty then [] else l.take 7 :: sevens fuel (l.drop 7)

/-- One Ledger word of a bank (R340, R341). -/
def ledgerWord (bad : List Nat) (i : Nat) (l : List W32) : LedgerWord :=
  { data := BitVec.ofNat 224 (ofLe (l.flatMap (fun w => leBytes 4 w.toNat))), nbytes := 4 * l.length, ue := bad.contains i }

/-- The banks may swap (R341): between records none is open. -/
def swapMay (s : State) : Bool := s.ledger.drain.isEmpty && !s.ledger.fill.isEmpty

/-- The swap (R341, R343): the drain bank becomes non-empty, and an overflow record is due if records were dropped. -/
def ledgerSwap (s : State) : State :=
  let l := s.ledger
  let groups := sevens bankWords l.fill
  let words := (List.range groups.length).map (fun i => ledgerWord l.fillBad i (groups.getD i []))
  let s := upLedger s (fun l => { l with
    drain := words, fill := [], fillBad := [], bank := !l.bank, ovfDue := l.ovfDue || l.newDrops ≠ 0 })
  ledgerSignal s 208 s.ledger.irqAvail

/-- LEDGER_SWAP (R341). -/
def execLedgerSwap (s : State) : Host.Outcome State Fault Refusal :=
  if awake s && swapMay s then .next (ledgerSwap s) else .next s

/-- The header and body of a record (R338): at most 64 words, TRUNC when the producer is cut off. -/
def recordWords (s : State) (r : LedgerRec) : List W32 :=
  let body := r.body.take 60
  let t := s.almanac.time
  [w32 (4 + body.length + 256 * bit (60 < r.body.length) + 65536 * s.ledger.rseq.toNat),
   w32 (r.type % 4096 + 65536 * r.code.toNat), w32 t.sec.toNat, w32 (t.nsec % 2 ^ 30 + 2 ^ 30 * bit (timeSet s))] ++ body

/-- The words that a record takes. -/
def recordLen (r : LedgerRec) : Nat := 4 + Nat.min 60 r.body.length

/-- The record fits the space left in the fill bank (R341). -/
def recordFits (s : State) (r : LedgerRec) : Bool := s.ledger.fill.length + recordLen r ≤ bankWords

/-- A record is written and closed (R338, R345); source 209 when FILL reaches HIWAT. -/
def recordWrite (s : State) (r : LedgerRec) : State :=
  let l := s.ledger
  let ws := recordWords s r
  let before := wordsBegun l.fill.length
  let after := wordsBegun (l.fill.length + ws.length)
  let s := upLedger s (fun l => { l with
    fill := l.fill ++ ws, rseq := l.rseq + 1, bytesIn := l.bytesIn + w64 (4 * ws.length), records := l.records + 1 })
  if before < l.hiwat.toNat ∧ l.hiwat.toNat ≤ after then ledgerSignal s 209 s.ledger.irqHiwat else s

/-- A record is dropped (R343). -/
def recordDrop (s : State) (r : LedgerRec) : State :=
  let n := 4 * recordLen r
  let s := upLedger s (fun l => { l with
    rseq := l.rseq + 1, droppedRecs := l.droppedRecs + 1, droppedBytes := l.droppedBytes + w32 n, ovf := true
    newDrops := l.newDrops + 1, newDropBytes := l.newDropBytes + n })
  ledgerSignal s 210 s.ledger.irqDrop

/-- The LEDGER_OVERFLOW record: the drops since the one before (R343). -/
def overflowWrite (s : State) : State :=
  let l := s.ledger
  recordWrite (upLedger s (fun l => { l with newDrops := 0, newDropBytes := 0, ovfDue := false }))
    { producer := 13, type := 0x002, code := 0, body := [w32 l.newDrops, w32 l.newDropBytes] }

/-- The position of the record that producer `p` gives next (R339): of those of the cycle of its oldest, the first of the lowest unit. -/
def producerNext (l : LedgerState) (p : Nat) : Option Nat :=
  match l.waiting.find? (fun r => r.producer = p) with
  | none => none
  | some r =>
    let same := fun (q : LedgerRec) => q.producer = p && q.madeAt = r.madeAt
    let u := ((l.waiting.filter same).map (fun q => q.unit)).foldl Nat.min r.unit
    l.waiting.findIdx? (fun q => same q && q.unit = u)

/-- The position of the record served next: that of the first producer after the one served last that has one (R339). -/
def nextRecord (l : LedgerState) : Option Nat :=
  ((List.range 18).map (fun i => (l.last + i) % 18 + 1)).findSome? (producerNext l)

/-- A waiting record is served: written, or dropped when it does not fit and the drain bank is not empty. When it does not fit and the
drain bank is empty, the banks swap first, and an overflow record that is then due goes before it (R341, R343). -/
def recordServe (s : State) (r : LedgerRec) : State :=
  if recordFits s r then recordWrite s r
  else if !s.ledger.drain.isEmpty then recordDrop s r
  else
    let s := ledgerSwap s
    recordWrite (if s.ledger.ovfDue then overflowWrite s else s) r

/-- LEDGER_RECORD (R339, R343). -/
def execLedgerRecord (s : State) : Host.Outcome State Fault Refusal :=
  if !awake s then .next s
  else if s.ledger.ovfDue then .next (overflowWrite s)
  else match nextRecord s.ledger with
    | none => .next s
    | some i =>
      match s.ledger.waiting[i]? with
      | none => .next s
      | some r => .next (recordServe (upLedger s (fun l => { l with waiting := l.waiting.eraseIdx i, last := r.producer })) r)

/-- Reads of the Ledger are served: in Cleared to the sideband port alone (Table 19.3). -/
def ledgerServed (s : State) (p : CtlPort) : Bool :=
  served s || (inMode s .cleared && !s.pins.icRst && !s.ai.icStop && decide (p = .sideband))

/-- The port's latch takes a word (R346). -/
def latchWord (s : State) (p : CtlPort) (w : Nat) : State :=
  match p with
  | .host => upLedger s (fun l => { l with latchHost := BitVec.ofNat 256 w })
  | .sideband => upLedger s (fun l => { l with latchSide := BitVec.ofNat 256 w })

end Sys2Proof.Machine
end

