-- ==== Sys2Proof/Machine/RecoveryOps.lean ====
section
/-! DEFINITION. The steps of a Recovery (R394 to R397, Table 16.5): what each begins with, when it has ended, and the RECONCILE record
with which it ends. -/

namespace Sys2Proof.Machine

/-- A RECONCILE record (Table 16.7): the outstanding count at the start, returned, written off, and at the end. -/
def reconcile (s : State) (resource port start woff now : Nat) : State :=
  emit s 15 0x705 0 [w32 (resource + 256 * port), w32 start, w32 (start - woff - now), w32 woff, w32 now]

/-- R396: an identity fails. -/
def conserveFail (s : State) (resource port : Nat) (vals : List W32) : State :=
  emit (upMode s (fun m => { m with consErr := true })) 15 0x707 0 (w32 (resource + 256 * port) :: vals)

/-- Check an identity: issued, returned, written off and outstanding, modulo 2^32. -/
def conserve (s : State) (resource port : Nat) (issued returned woff out : W32) : State :=
  if issued - returned - woff = out then s else conserveFail s resource port [issued, returned, woff, out]

/-! ### Fabric -/

/-- A request belongs to the scope: every one at block scope, host memory at host scope. -/
def reqInScope (v : Recov) (r : Req) : Bool := v.scope = .block || !r.spaceLocal

/-- The port's requests in scope that have no response yet. -/
def scopeOut (s : State) (v : Recov) (k : Nat) : Nat :=
  let f := fun (t : Table (Option Req)) => (t.filter (fun kv => kv.2.any (reqInScope v))).length
  f (getPort s k).reads + f (getPort s k).writes

/-- AI_P_OUT of a port. -/
def portOut (s : State) (k : Nat) : Nat := (getPort s k).reads.length + (getPort s k).writes.length

/-- R358. -/
def checkPort (v : Recov) (s : State) (k : Nat) : State :=
  let p := getPort s k
  let start := v.atStart.getD (2 * k) 0
  let woff := Nat.min start (p.woff - w32 (v.atStart.getD (2 * k + 1) 0)).toNat
  let s := conserve s 1 k (getHalf p.issued false) (getHalf p.resp false) p.woff (w32 (portOut s k))
  reconcile s 1 k start woff (scopeOut s v k)

/-! ### Jobs (R395) -/

/-- The leading lane that holds a job which has entered execution. -/
def laneHolding (s : State) (j : Nat) : Option Nat :=
  match (getJob s j).seat with
  | .running l => some l
  | .saved l => some l
  | _ => none

/-- The job has not ended. -/
def notEnded (s : State) (j : Nat) : Bool :=
  match (getJob s j).seat with
  | .ended => false
  | .statusOut => false
  | .acked => false
  | .held => false
  | _ => true

/-- A job that cannot resume on its own lane. -/
def cannotResume (s : State) (j : Nat) : Bool :=
  match (getJob s j).seat with
  | .running l => laneOut s l
  | .saved l => laneOut s l
  | .staged l => laneOut s l
  | _ => false

/-- End a job of the scope with FLUSHED: a running job at once, its JOB_END following; another job without running. -/
def flushJob (s : State) (j : Nat) : State :=
  let x := getJob s j
  let count := fun (s : State) => upMode s (fun m => { m with recov := m.recov.map (fun r => { r with flushed := r.flushed + 1 }) })
  match x.seat with
  | .running _ => if x.isOver then s else count (endHard (dropWork s j 3) j .flushed)
  | _ => count (endAside (dropWork s j 3) j .flushed (laneHolding s j))

/-- Step 3: the jobs that FLUSH ends, and those that cannot resume, end with FLUSHED. -/
def stepJobs (s : State) (v : Recov) : State :=
  forAll ((recovJobs s v.rings).filter (fun j => notEnded s j && (v.flush || cannotResume s j))) flushJob s

/-- Step 3 has ended: every job in scope has. -/
def jobsEnded (s : State) (v : Recov) : Bool := (recovJobs s v.rings).all (fun j => !notEnded s j)

/-! ### Ring entries and reorder slots -/

/-- A STATUS or count write of the ring is outstanding. -/
def ringWrites (s : State) (r : Nat) : Bool :=
  countOut s r || busyFor s (fun w => match w with
    | .status j => (getJob s j).ring = r
    | _ => false)

/-- Step 4 has ended for a ring: everything is published, or the ring is FAULTED and nothing more can be written for it, or its endings
stay held because the host link is lost (R367). -/
def ringDone (s : State) (r : Nat) : Bool :=
  let g := getRing s r
  let mine := recovJobs s [r]
  !ringWrites s r &&
  (if hostGone s r then true
   else if g.countStop || g.state = .faulted then
    !statusMay s r || mine.all (fun j => (getJob s j).seat ≠ .ended)
   else mine.isEmpty && g.count = g.countAcked)

/-- Reorder slots in use. -/
def slotsUsed (s : State) : Nat := 65536 - s.muster.roFree

/-- Write off what remains of a ring in step 4 (R29, R57): its slots return to the free pool and its jobs leave INFLIGHT. -/
def ringWriteOff (s : State) (r : Nat) : State :=
  let js := recovJobs s [r]
  let s := dropJobs (forAll js settle s) js
  modRing s r (fun g => { g with inflight := 0, order := [], woff := g.woff + js.length })

/-- Step 4 ends for one ring: write-offs, the identity of R29, and its RECONCILE record. -/
def endRing (v : Recov) (s : State) (ir : Nat × Nat) : State :=
  let r := ir.2
  let faulted := (getRing s r).state = .faulted
  let n := if faulted then (recovJobs s [r]).length else 0
  let had := v.atStart.getD (ir.1 + 1) 0
  let s := if faulted then ringWriteOff s r else s
  let g := getRing s r
  let s := conserve s 2 0 g.taken g.count (w32 g.woff) (w32 g.inflight)
  let s := reconcile s 2 0 had n g.inflight
  upMode s (fun m => { m with recov := m.recov.map (fun q => { q with
    published := if !faulted && !hostGone s r && 0 < had then q.published ++ [r] else q.published
    faultedRings := if faulted then q.faultedRings ++ [r] else q.faultedRings }) })

/-- Step 4 ends: each ring in ring order, then the reorder slots (R139), whose identity fails after an
uncorrectable error of their store (R444). -/
def stepEntriesEnd (s : State) (v : Recov) : State :=
  let before := slotsUsed s
  let s := ((List.range v.rings.length).zip v.rings).foldl (endRing v) s
  let held := (s.rings.map (fun kv => kv.2.inflight)).sum
  let s := if s.muster.roBad then conserveFail s 3 0 [w32 65536, w32 s.muster.roFree, 0, w32 held]
    else conserve s 3 0 (w32 65536) (w32 s.muster.roFree) 0 (w32 held)
  reconcile s 3 0 (v.atStart.getD 0 0) (before - slotsUsed s) (slotsUsed s)

/-! ### Leases, sinks, Ledger -/

/-- Leases of a slot that jobs outside the scope hold, in key registers or lent by a fill. -/
def heldOutside (s : State) (v : Recov) (k : Nat) : Nat :=
  let out := fun (j : Nat) => !v.rings.contains (getJob s j).ring
  ((tkeys (fun j (_ : Job) => out j) s.jobs).map (fun j =>
    ((getJob s j).keys.filter (fun kv => kv.2.any (fun q => q.slot = k))).length)).sum +
  (tkeys (fun j (q : Option Nat) => out j && q = some k) s.mint.lent).length

/-- Step 5: every lease of a DEAD slot is written off (R227) but those of jobs outside the scope, which go on (R394). -/
def leaseStep (s : State) (v : Recov) : Nat × State :=
  let dead := tkeys (fun _ (r : SlotRec) => r.kind = .dead && 0 < r.leases) s.serai.slots
  let left := dead.map (fun k => (k, Nat.min (getSlot s k).leases (heldOutside s v k)))
  let n := (dead.map (fun k => (getSlot s k).leases)).sum - (left.map Prod.snd).sum
  let s := left.foldl (fun s kn => modSlot s kn.1 (fun r => { r with leases := kn.2 })) s
  let s := upSerai s (fun x => { x with leaseWoff := x.leaseWoff + w32 n })
  (n, if n = 0 then s else seraiWoff s n 12)

/-- Step 6: bench leases of the scope. -/
def benchStep (s : State) (v : Recov) : Nat × State :=
  let mine := fun (c : CellRec) => c.live && (match v.scope with
    | .block => true
    | .host => v.rings.contains c.ring && (getRing s c.ring).state = .frozen
    | .string => false)
  let l := (List.range 8).flatMap (fun b => (tkeys (fun _ c => mine c) (getBench s b).cells).map (fun i => (b, i)))
  (l.length, l.foldl (fun s bi => revokeLease s bi.1 bi.2 12) s)

/-- Step 7: with RLCLR the counts of every sink. -/
def relayStep (s : State) (v : Recov) : Nat × State :=
  let before := relayPending s
  let s := if v.rlclr then forAll (tkeys (fun _ (k : SinkRec) => 0 < k.count) s.relay.sinks) (fun s k => sinkWriteOff s k 3) s else s
  (before - relayPending s, s)

/-- LG_HELD: the bytes of closed records in both banks (R345). -/
def ledgerHeld (s : State) : Nat := 4 * s.ledger.fill.length + (s.ledger.drain.map (fun w => w.nbytes)).sum

/-! ### Steps -/

/-- The steps of a scope (Table 16.5). -/
def stepIn (sc : Scope) (n : Nat) : Bool :=
  match sc with
  | .block => true
  | .string => n ≠ 2 && n ≠ 7
  | .host => n ≠ 7

/-- The step after `n` in the scope. -/
def stepAfter (sc : Scope) (n : Nat) : Nat := ((List.range 10).find? (fun k => n < k && stepIn sc k)).getD 9

/-- Set the counts a step starts from. -/
def setStart (s : State) (l : List Nat) : State := upMode s (fun m => { m with recov := m.recov.map (fun r => { r with atStart := l }) })

/-- Step `n` begins (Table 16.5). -/
def stepBegin (s : State) (v : Recov) (n : Nat) : State :=
  let s := upMode s (fun m => { m with recov := m.recov.map (fun r => { r with step := n }) })
  match n with
  | 2 => setStart s ([0, 1, 2, 3].flatMap (fun k => [scopeOut s v k, (getPort s k).woff.toNat]))
  | 3 => stepJobs s v
  | 4 =>
    let s := setStart s (slotsUsed s :: v.rings.map (fun r => (getRing s r).inflight))
    forAll v.rings tryPublish s
  | 5 =>
    let r := leaseStep s v
    setStart r.2 [v.leases, r.1]
  | 6 =>
    let before := benchLeases s
    let r := benchStep s v
    setStart r.2 [before, r.1]
  | 7 =>
    let before := relayPending s
    let r := relayStep s v
    setStart r.2 [before, r.1]
  | 8 => setStart s [ledgerHeld s]
  | _ => s

/-- Step 2, first part: every request of the scope has its response or is written off. -/
def allAnswered (s : State) (v : Recov) : Bool := [0, 1, 2, 3].all (fun k => scopeOut s v k = 0)

/-- Step 2, second part: each port holds more than RESV_CRD credits of each kind. -/
def creditsBack (s : State) : Bool :=
  [0, 1, 2, 3].all (fun k => decide (resvCrd s < (getPort s k).reqCrd) && decide (resvCrd s < (getPort s k).dataCrd))

/-- The 100 µs of step 2's second part begin in the control cycle in which its first part ends. -/
def creditWait (s : State) : State :=
  match s.mode.recov with
  | none => s
  | some v =>
    whenS (v.step = 2 && v.creditsFrom.isNone && allAnswered s v) (fun s =>
      upMode s (fun m => { m with recov := m.recov.map (fun r => { r with creditsFrom := some s.cycle }) })) s

/-- The step in progress has ended. -/
def stepOver (s : State) (v : Recov) : Bool :=
  match v.step with
  | 2 =>
    (v.creditsFrom.isSome || allAnswered s v) &&
    (creditsBack s || v.creditsFrom.any (fun c => decide (c + 50000 ≤ s.cycle)))
  | 3 => jobsEnded s v
  | 4 => v.rings.all (ringDone s)
  | _ => true

/-- The end of a step marked with a resource: its identity and its RECONCILE record. -/
def stepEnd (s : State) (v : Recov) : State :=
  let start := v.atStart.getD 0 0
  let n := v.atStart.getD 1 0
  let s := match v.step with
    | 2 => [0, 1, 2, 3].foldl (checkPort v) s
    | 4 => stepEntriesEnd s v
    | 5 =>
      let x := s.serai
      let s := conserve s 4 0 (getHalf x.leaseIssued false) (getHalf x.leaseReturned false) x.leaseWoff (w32 (leasesOut s))
      reconcile s 4 0 start n (if v.scope = .block then leasesOut s else recovLeases s v.rings)
    | 6 =>
      let h := s.house
      let s := conserve s 5 0 (getHalf h.leaseIssued false) (getHalf h.leaseReturned false) (getHalf h.leaseRevoked false) (w32 (benchLeases s))
      reconcile s 5 0 start n (benchLeases s)
    | 7 =>
      let r := s.relay
      let s := conserve s 6 0 (getHalf r.added false) (getHalf r.consumed false) r.woff (w32 (relayPending s))
      reconcile s 6 0 start n (relayPending s)
    | 8 =>
      let l := s.ledger
      let s := conserve s 7 0 (getHalf l.bytesIn false) (getHalf l.bytesOut false) l.bytesWoff (w32 (ledgerHeld s))
      reconcile s 7 0 start 0 (ledgerHeld s)
    | _ => s
  upMode s (fun m => { m with recDone := BitVec.ofNat 4 v.step })

/-- R52: a FROZEN ring returns to its state before freezing; a STOPPING one, which has nothing left in flight, becomes STOPPED. -/
def thawRing (s : State) (r : Nat) : State :=
  let g := getRing s r
  if g.state ≠ .frozen then s
  else if g.frozenFrom = .stopping then
    modRing s r (fun g => { g with state := .stopped, cmdBusy := false, cmdResult := Status.done.code })
  else modRing s r (fun g => { g with state := g.frozenFrom })

/-- Step 9: the Recovery is complete. -/
def recovEnd (s : State) (v : Recov) : State :=
  let block := decide (v.scope = .block)
  let s := upMode s (fun m => { m with
    recov := none, recDone := 9, recoveries := m.recoveries + 1
    strings := if block then 0 else if v.scope = .string then m.strings &&& ~~~(BitVec.ofNat 4 (2 ^ v.string.toNat)) else m.strings
    touched := if block then [] else if v.scope = .string then m.touched.filter (fun t => t.1 ≠ v.string.toNat) else m.touched
    hostContained := if (block || v.scope = .host) && !v.lost then false else m.hostContained })
  let s := whenS (!v.lost) (fun s => forAll v.rings thawRing s) s
  let bad := s.mode.consErr
  let s := emit s 15 0x706 0 [w32 (v.scope.code + 4 * bit bad), w32 (v.completed - v.flushed), w32 v.flushed, w32 v.published.length,
    w32 v.faultedRings.length]
  let s := raise s 197
  if block then
    let s := upAi s (fun a => { a with contained := false })
    modeTo s (if bad || v.target then .provision else .service) 7 none
  else ltrRefresh (forAll v.rings scanGoesOn s)

/-- The block Recovery of a drain timeout (R387). -/
def drainRecover (s : State) : State :=
  recovStart (modeTo s .recovery 4 none) { scope := .block, flush := true, rlclr := false, target := true, automatic := true }

end Sys2Proof.Machine
end

