-- ==== Sys2Proof/Machine/Modes.lean ====
section
/-! DEFINITION. The mode commands: the reins (R388, R389), SERVICE, PROVISION and its drain (R386, R387), RECOVER and the steps of a
Recovery (R392 to R397), and RESET (R390). -/

namespace Sys2Proof.Machine

/-- The offset of MD_CMD. -/
def mdCmd : Nat := 0x900004

/-- A REINS record (Table 16.7). -/
def reinsRecord (s : State) (p : CtlPort) (event : Nat) (nonce : W32) : State :=
  emit s 15 0x702 0 [w32 (event + 8 * portBit p), nonce]

/-- A command that MD_CMD refuses (R382, R389): RESULT, the log, and for NOT_REINS the count, its record and source 200. -/
def mdRefuse (s : State) (p : CtlPort) (st : Status) (data : Nat) : State :=
  let s := upMode s (fun m => { m with cmdResult := st.code })
  let s := whenS (st = .notReins) (fun s =>
    raise (reinsRecord (upMode s (fun m => { m with refused := m.refused + 1 })) p 6 s.mode.nonce) 200) s
  refuseCmd s p mdCmd st data

/-- A command that MD_CMD accepts. -/
def mdAccept (s : State) : State := upMode s (fun m => { m with cmdResult := Status.done.code })

/-- R386: SERVICE may be accepted. -/
def serviceOk (s : State) : Bool :=
  inMode s .provision && s.well.state ≠ .failed && !s.mint.chBusy && !s.mode.consErr && (s.fuse.life = 2 || s.fuse.life = 3)

/-- Table 16.6: a command that meets a rise of spn_freeze in its control cycle is refused with CONTAINED. -/
def freezeMeets (s : State) : Bool := s.mode.freezeAt = some s.cycle

/-- SERVICE (R386). -/
def execService (p : CtlPort) (s : State) : Host.Outcome State Fault Refusal :=
  portBoth s p (fun s =>
    if !holdsReins s p then .next (mdRefuse s p .notReins 1)
    else if freezeMeets s then .next (mdRefuse s p .contained 1)
    else if !serviceOk s then .next (mdRefuse s p .accessFault 1)
    else .next (modeTo (mdAccept s) .service 2 (some p)))

/-- PROVISION (R387): a drain starts. -/
def execProvision (p : CtlPort) (s : State) : Host.Outcome State Fault Refusal :=
  portBoth s p (fun s =>
    if !holdsReins s p then .next (mdRefuse s p .notReins 2)
    else if !(inMode s .service && !s.mode.stopping) then .next (mdRefuse s p .accessFault 2)
    else .next (scansEnd (upMode (mdAccept s) (fun m => { m with stopping := true }))))

/-- Every ring has INFLIGHT 0 and its last count write is acknowledged (R387). -/
def drained (s : State) : Bool := s.rings.all (fun kv => decide (kv.2.inflight = 0) && !countOut s kv.1)

/-- A drain is in progress that has not timed out. -/
def draining (s : State) : Bool := inMode s .service && s.mode.stopping && !s.mode.recov.any (fun v => v.abandonDrain)

/-- DRAIN_COMPLETE (R387). -/
def execDrainComplete (s : State) : Host.Outcome State Fault Refusal :=
  if draining s && drained s then .next (modeTo s .provision 3 none) else .next s

/-- DRAIN_TIMEOUT (R387): source 198; a scoped Recovery in progress ends with its step, and the block Recovery follows it. -/
def execDrainTimeout (s : State) : Host.Outcome State Fault Refusal :=
  if !(draining s && !drained s) then .next s
  else
    let s := raise s 198
    match s.mode.recov with
    | some _ => .next (upMode s (fun m => { m with recov := m.recov.map (fun v => { v with abandonDrain := true }) }))
    | none => .next (drainRecover s)

/-- The word written to MD_CMD for a RECOVER. -/
def recoverWord (scope string : BitVec 2) (flush rlclr target : Bool) : Nat :=
  3 + 16 * scope.toNat + 64 * string.toNat + 256 * bit flush + 512 * bit rlclr + 1024 * bit target

/-- The conditions of R393, by scope. -/
def recoverOk (s : State) (scope string : BitVec 2) : Bool :=
  s.mode.recov.isNone &&
  (if scope = 0 then inMode s .containment
   else if scope = 1 then (inMode s .service || inMode s .provision) && stringContained s string.toNat
   else (inMode s .service || inMode s .provision) && s.mode.hostContained && !s.pins.linkLost)

/-- RECOVER (R393). -/
def execRecover (p : CtlPort) (scope string : BitVec 2) (flush rlclr target : Bool) (s : State) :
    Host.Outcome State Fault Refusal :=
  portBoth s p (fun s =>
    let w := recoverWord scope string flush rlclr target
    if !holdsReins s p then .next (mdRefuse s p .notReins w)
    else if scope = 3 then .next (mdRefuse s p .encoding w)
    else if freezeMeets s then .next (mdRefuse s p .contained w)
    else if !recoverOk s scope string then .next (mdRefuse s p .accessFault w)
    else if scope = 0 && s.pins.freeze then .next (mdRefuse s p .contained w)
    else
      let s := mdAccept s
      if scope = 0 then
        .next (recovStart (modeTo s .recovery 2 (some p)) { scope := .block, string := string, flush := flush, rlclr := rlclr, target := target })
      else
        .next (recovStart s { scope := if scope = 1 then .string else .host, string := string, flush := flush, rlclr := rlclr }))

/-- The step in progress has ended: it is closed, and what follows begins: the next step, the end, or what abandons the Recovery
(R394, R397). -/
def recovNext (s : State) (v : Recov) : State :=
  let s := stepEnd s v
  match s.mode.recov with
  | none => s
  | some v =>
    if v.abandonFreeze then
      let s := upMode s (fun m => { m with recov := none })
      if inMode s .recovery then
        upAi (containRecord (modeTo s .containment 5 none) 0 0 5) (fun a => { a with contained := true })
      else s
    else if v.abandonDrain then drainRecover (upMode s (fun m => { m with recov := none }))
    else if v.step = 9 then recovEnd s v
    else stepBegin s v (stepAfter v.scope v.step)

/-- RECOVERY_STEP (R394). Step 3 also ends the jobs whose lane was quarantined or became FAULTED after it began (R395). -/
def execRecoveryStep (s : State) : Host.Outcome State Fault Refusal :=
  match s.mode.recov with
  | none => .next s
  | some v => if stepOver s v then .next (recovNext s v) else .next (whenS (v.step = 3) (fun s => stepJobs s v) s)

/-- AUTO_STRING_RECOVERY (R392). -/
def execAutoStringRecovery (string : Fin 4) (s : State) : Host.Outcome State Fault Refusal :=
  if s.mode.autoStr && inMode s .service && s.mode.recov.isNone && stringContained s string.val then
    .next (recovStart s { scope := .string, string := BitVec.ofNat 2 string.val, automatic := true })
  else .next s

/-- R390: RESET reaches every domain but the always-on domain and the PLL; the block starts again from Cold. -/
def resetBlock (s : State) (p : CtlPort) : State :=
  let old := s.mode.mode
  let s := resetAll s
  let s := upPins s (fun q => { q with pwrAck := 0 })
  let s := modeSet (upMode s (fun m => { m with mode := old })) .cold 9 (some p)
  enterCold s

/-- RESET (R390). In Cleared the sideband port needs no reins, and the host port has no access (Table 19.3). -/
def execReset (p : CtlPort) (s : State) : Host.Outcome State Fault Refusal :=
  if inMode s .cleared && p = .sideband && portThere s then .next (resetBlock s p)
  else portBoth s p (fun s =>
    if !holdsReins s p then .next (mdRefuse s p .notReins 4)
    else .next (resetBlock s p))

/-- REINS_CLAIM (R388). -/
def execReinsClaim (p : CtlPort) (nonce : W32) (s : State) : Host.Outcome State Fault Refusal :=
  portBoth s p (fun s =>
    let mine := BitVec.ofNat 2 (portBit p + 1)
    let old := s.mode.holder
    if nonce = 0 || (p = .host && old = 2) then .next (reinsRecord s p 4 nonce)
    else
      let s := upMode s (fun m => { m with holder := mine, nonce := nonce })
      let s := reinsRecord s p (if p = .sideband && old = 1 then 3 else 1) nonce
      .next (whenS (old ≠ mine) (fun s => raise s 199) s))

/-- REINS_RELEASE (R388). -/
def execReinsRelease (p : CtlPort) (nonce : W32) (s : State) : Host.Outcome State Fault Refusal :=
  portBoth s p (fun s =>
    if holdsReins s p && s.mode.nonce = nonce then
      .next (raise (reinsRecord (upMode s (fun m => { m with holder := 0, nonce := 0 })) p 2 nonce) 199)
    else .next (reinsRecord s p 5 nonce))

end Sys2Proof.Machine
end

