-- ==== Sys2Proof/Machine/Porter.lean ====
section
/-! DEFINITION. Porter's command RESUME (R309) and the completion of a transfer (R307). -/

namespace Sys2Proof.Machine

/-- The offset of PT_CMD (Table 13.1). -/
def ptCmd : Nat := 0x702004

/-- RESUME (R309, Table 13.2). A failure of the same cycle applies (Table 13.3): Porter stays stopped, with the new address, whether that
failure stopped it or found it stopped. -/
def execResume (p : CtlPort) (s : State) : Host.Outcome State Fault Refusal :=
  portCmd s p ptCmd 1 (fun s =>
    if !s.porter.stopped then
      .next (refuseCmd (upPorter s (fun q => { q with cmdResult := Status.accessFault.code })) p ptCmd .accessFault 1)
    else
      let s := upPorter s (fun q => { q with cmdResult := Status.done.code })
      let s' := upPorter s (fun q => { q with stopped := false, stopAt := none, dir := false, cause := 0, errAddr := 0, lateFail := none })
      if s.porter.stopAt = some s.cycle then .next s
      else match s.porter.lateFail with
        | some (c, dir, cause, addr) => .next (if c = s.cycle then ptStop s' none dir cause addr else s')
        | none => .next s')

/-- PORTER_COMPLETE (R307). -/
def execPorterComplete (chan : Fin 32) (s : State) : Host.Outcome State Fault Refusal :=
  if ptFinished s chan.val then .next (ptComplete s chan.val) else .next s

end Sys2Proof.Machine
end

