-- ==== Sys2Proof/Machine/Ration.lean ====
section
/-! DEFINITION. Ration: the power estimate, the budgets and the throttles (R431 to R438), and the commands and events that wake and
gate the power domains (R439 to R443). Power is counted in units of 0.1 W / 96,000, in which Table 18.1 is exact. -/

namespace Sys2Proof.Machine

/-! ### The estimate (R431) -/

/-- A lane reserved for Courier. -/
def isReserved (s : State) (l : Nat) : Bool := s.muster.reserve.toNat.testBit l

/-- The sum of `f` over a list. -/
def sumOf (l : List Nat) (f : Nat → Nat) : Nat := (l.map f).sum

/-- Lane cycles that a lane ran in the epoch, bench and context cycles. -/
def ranLane (s : State) (l : Nat) : Nat := tget 0 s.ration.runLane l
/-- See `ranLane`. -/
def ranBench (s : State) (b : Nat) : Nat := tget 0 s.ration.runBench b
/-- See `ranLane`. -/
def ranCtx (s : State) (c : Nat) : Nat := tget 0 s.ration.runCtx c

/-- What an epoch is charged for: its length and the time each domain was powered, in control cycles; the lane cycles and public-key
cycles each unit ran; the data beats of the ports. -/
structure Activity where
  len : Nat
  on : Nat → Nat
  lane : Nat → Nat
  bench : Nat → Nat
  ctx : Nat → Nat
  beats : Nat

/-- Table 18.1 for an epoch's activity (4 lane cycles and 3 public-key cycles to a control cycle). A unit that is powered is charged its
idle power for that time and the difference to its full power for the cycles it ran. The ports are charged the share of their data beats,
at most one on each port, each way, in each of the `ic` interconnect cycles. -/
def powerOf (ic : Nat) (a : Activity) : Nat :=
  let ran := sumOf (List.range 16) a.lane
  96000 * sumOf (List.range 16) (fun l => a.on (trainOf l)) / a.len + 1536000 * ran / (4 * a.len) +
  48000 * (8 * a.on 2) / a.len + 816000 * sumOf (List.range 8) a.bench / (3 * a.len) +
  Nat.max 192000 (576000 * sumOf (List.range 4) a.ctx / (3 * a.len)) +
  960000 + 2880000 * ran / (64 * a.len) +
  288000 + 324000 * Nat.min a.beats (8 * ic) / ic +
  384000

/-- The length of the epoch so far, in control cycles. -/
def epochLen (s : State) : Nat := Nat.max 1 s.ration.phase

/-- The activity of the epoch just ended; an epoch ended before its first cycle stands for that cycle. -/
def activityNow (s : State) : Activity where
  len := epochLen s
  on d := if s.ration.phase = 0 then bit (domOn s d) else tget 0 s.ration.runOn d
  lane := ranLane s
  bench := ranBench s
  ctx := ranCtx s
  beats := s.ration.beats

/-- An epoch in which the domains stay as they are and their lanes and benches run as given: the data beats go with the lanes' run
cycles, so `idle` of them are left when no lane ran in the epoch just ended. -/
def projected (s : State) (idle : Nat) (lane bench ctx : Nat → Nat) : Activity :=
  let lane := fun l => if domOn s (trainOf l) then lane l else 0
  let was := sumOf (List.range 16) (ranLane s)
  { len := epochLen s
    on := fun d => if domOn s d then epochLen s else 0
    lane := lane
    bench := fun b => if domOn s 2 then bench b else 0
    ctx := ctx
    beats := if was = 0 then idle else s.ration.beats * sumOf (List.range 16) lane / was }

/-- P of the epoch just ended. -/
def powerNow (s : State) : Nat := powerOf (Config.icCycles s.ration.epoch) (activityNow s)

/-- R435: P with the unreserved lanes running for the duty `d`, and the engines, when `e` is given, for the duty `e`. -/
def powerAt (s : State) (d : Nat) (e : Option Nat) : Nat :=
  let n := epochLen s
  let part := fun (x : Nat) => match e with
    | some k => 3 * n * k / 64
    | none => x
  powerOf (Config.icCycles s.ration.epoch) (projected s s.ration.beats
    (fun l => if isReserved s l then ranLane s l else 4 * n * d / 64) (fun b => part (ranBench s b)) (fun c => part (ranCtx s c)))

/-- R437: the floor F; the ports are charged for the reserved lanes alone. -/
def powerFloor (s : State) : Nat :=
  powerOf (Config.icCycles s.ration.epoch) (projected s 0
    (fun l => if isReserved s l then 4 * epochLen s else 0) (fun _ => 0) (fun _ => 0))

/-- B in 0.1 W: values below 120 act as 120, above 440 as 440. -/
def budgetOf (b : BitVec 9) : Nat := Nat.max 120 (Nat.min 440 b.toNat)

/-- The effective budget (R438). -/
def effBudget (s : State) : Nat :=
  let b := budgetOf s.ration.budgetNow
  if s.ration.thermal then Nat.min b 120 else b

/-- The largest duty from 64 down that keeps P within the budget. -/
def bestDuty (p : Nat → Nat) (limit : Nat) : Option Nat := (List.range 65).reverse.find? (fun d => decide (p d ≤ limit))

/-- R435: the duties D and E for the next epoch. -/
def duties (s : State) : Nat × Nat :=
  let limit := 96000 * effBudget s
  if !s.ration.throttle && !s.ration.thermal then (64, 64)
  else match bestDuty (fun d => powerAt s d none) limit with
    | some d => (d, 64)
    | none => (0, (bestDuty (fun e => powerAt s 0 (some e)) limit).getD 0)

/-! ### Throttles -/

/-- A throttle is active: Muster hears of it (R148). -/
def tellMuster (s : State) : State :=
  let on := s.ration.throttle || s.ration.thermal
  upMuster s (fun m => { m with throttle := on, sharesOff := on || m.sharesOff })

/-- A THROTTLE record (Table 18.6) with its source. -/
def throttleRecord (s : State) (start thermal : Bool) : State :=
  let r := s.ration
  let s := emit s 18 0x901 0 [w32 (bit start + 2 * bit thermal), w32 r.est.toNat, w32 (effBudget s), w32 (r.dutyD.toNat + 256 * r.dutyE.toNat)]
  rationRaise s (232 + 2 * bit thermal + bit (!start)) r.irqThr

/-- R437: FLOOR follows F; its rise has a record and a source. -/
def floorCheck (s : State) (f : Nat) : State :=
  let past := decide (96000 * effBudget s < f)
  let rise := past && !s.ration.floorSet
  let s := upRation s (fun r => { r with floorSet := past, floor := BitVec.ofNat 9 (f / 96000) })
  whenS rise (fun s => rationRaise (emit s 18 0x902 0 [w32 (f / 96000), w32 (effBudget s)]) 243 s.ration.irqFault) s

/-- The end of an epoch (R431, R433, R434, R435, R437). The clearing of a throttle is judged against the old B; a new B applies from
the next epoch (Table 18.4). -/
def epochOver (s : State) : State :=
  let p := powerNow s
  let r := s.ration
  let excess := decide (96000 * budgetOf r.budgetNow < p)
  let window := r.excessAt.filter (fun e => decide (r.epoch < e + 40000)) ++ if excess then [r.epoch] else []
  let est := BitVec.ofNat 9 (p / 96000)
  let start := !r.throttle && decide (5000 ≤ window.length)
  let stop := r.throttle && decide (window.length ≤ 2500)
  let s := upRation s (fun r => { r with
    est := est, estMax := if r.estMax.toNat < est.toNat then est else r.estMax, excessAt := window, budgetNow := r.budget
    throttle := (r.throttle || start) && !stop, throttles := if start then r.throttles + 1 else r.throttles })
  let s := tellMuster (floorCheck s (powerFloor s))
  let d := duties s
  let s := upRation s (fun r => { r with
    dutyD := BitVec.ofNat 7 d.1, dutyE := BitVec.ofNat 7 d.2, epoch := r.epoch + 1, phase := 0
    runOn := [], runLane := [], runBench := [], runCtx := [], beats := 0 })
  if start then throttleRecord s true false else if stop then throttleRecord s false false else s

/-- EPOCH_END (R431). -/
def execEpochEnd (s : State) : Host.Outcome State Fault Refusal :=
  if awake s then .next (epochOver s) else .next s

/-- EST_MAX_CLEAR (R447): any write sets 0. -/
def execEstMaxClear (p : CtlPort) (s : State) : Host.Outcome State Fault Refusal :=
  portSet s p 0xC00038 false 0 (fun s =>
    .next (upRation s (fun r => { r with estMax := 0 })))

/-- THERMAL_ALARM (R438): a rise of spn_thermal ends the epoch at once. -/
def execThermalAlarm (s : State) : Host.Outcome State Fault Refusal :=
  if s.pins.thermal then .next s
  else
    let s := upPins s (fun p => { p with thermal := true })
    if !awake s then .next s
    else if s.ration.thermal then .next (epochOver s)
    else
      let s := epochOver (upRation s (fun r => { r with thermal := true, throttles := r.throttles + 1 }))
      .next (throttleRecord s true true)

/-- THERMAL_ALARM_FALL (R438): the 100 µs to the clearing begin. -/
def execThermalAlarmFall (s : State) : Host.Outcome State Fault Refusal := .next (upPins s (fun p => { p with thermal := false }))

/-- THERMAL_THROTTLE_CLEAR (R438). -/
def execThermalThrottleClear (s : State) : Host.Outcome State Fault Refusal :=
  if s.ration.thermal && !s.pins.thermal then
    .next (throttleRecord (tellMuster (upRation s (fun r => { r with thermal := false }))) false true)
  else .next s

/-! ### RA_CMD (R440 to R442) -/

/-- The offset of RA_CMD. -/
def raCmd : Nat := 0xC00018

/-- RA_CMD refuses a command: RESULT, and the log. A command in progress keeps its RESULT. -/
def raRefuse (s : State) (p : CtlPort) (st : Status) (word : Nat) : State :=
  refuseCmd (if s.ration.cmd.isSome then s else upRation s (fun r => { r with cmdResult := st.code })) p raCmd st word

/-- What stops an RA_CMD before it acts: another in progress, the domain, the mode. -/
def raFault (s : State) (domain : BitVec 2) : Option Status :=
  if s.ration.cmd.isSome then some .accessFault
  else if domain = 3 then some .encoding
  else if inMode s .containment || inMode s .recovery then some .contained
  else if !(inMode s .provision || inMode s .service) then some .accessFault
  else none

/-- RA_CMD is in progress. -/
def raBegin (s : State) (ungate : Bool) (d : Nat) : State := upRation s (fun r => { r with cmd := some (ungate, d) })

/-- RA_CMD has nothing to do. -/
def raDone (s : State) : State := upRation s (fun r => { r with cmdResult := Status.done.code })

/-- UNGATE (R441): a domain with a power-switch fault is used again after an UNGATE in Provision (R440). -/
def execUngate (p : CtlPort) (domain : BitVec 2) (s : State) : Host.Outcome State Fault Refusal :=
  portCmd s p raCmd (1 + 16 * domain.toNat) (fun s =>
    let d := domain.toNat
    let word := 1 + 16 * d
    match raFault s domain with
      | some st => .next (raRefuse s p st word)
      | none =>
        if (getDom s d).fault && !inMode s .provision then .next (raRefuse s p .accessFault word)
        else match (getDom s d).phase with
          | .powered => .next (raDone s)
          | .draining => .next (raDone (cancelDrain s d))
          | _ => .next (raBegin (wakeDom (modDom s d (fun x => { x with fault := false })) d) true d))

/-- GATE (R441): the named domain drains and is gated. -/
def execGate (p : CtlPort) (domain : BitVec 2) (s : State) : Host.Outcome State Fault Refusal :=
  portCmd s p raCmd (2 + 16 * domain.toNat) (fun s =>
    let d := domain.toNat
    let word := 2 + 16 * d
    match raFault s domain with
      | some st => .next (raRefuse s p st word)
      | none =>
        match (getDom s d).phase with
        | .gated => .next (raDone s)
        | .powered => if domKept s d then .next (raRefuse s p .accessFault word) else .next (raBegin (startDrain s d) false d)
        | .draining => .next (raBegin s false d)
        | .gating => .next (raDone s)
        | _ => .next (raRefuse s p .accessFault word))

/-! ### Drains (R441, R442) -/

/-- A YOKE job waits, and the train has a yoke. -/
def yokeWants (s : State) (t : Nat) : Bool := yokeWaits s && (trainLanes t).any (yokeFormed s)

/-- R441: the conditions on which a domain starts to drain by itself; RA_IDLE_US of them are the commander's. -/
def drainMay (s : State) (d : Nat) : Bool :=
  inMode s .service && tb s.ration.auto d && (getDom s d).phase = .powered && !domKept s d && domEmpty s d &&
  (if d = 2 then s.house.queue = [] else (trainLanes d).all (fun l => !isReserved s l) && !yokeWants s d)

/-- DRAIN_START (R441). -/
def execDrainStart (domain : Fin 3) (s : State) : Host.Outcome State Fault Refusal :=
  if drainMay s domain.val then .next (startDrain s domain.val) else .next s

/-- DRAIN_CANCELLED (R442). -/
def execDrainCancelled (domain : Fin 3) (s : State) : Host.Outcome State Fault Refusal :=
  if portsServed s && (getDom s domain.val).phase = .draining then .next (cancelDrain s domain.val) else .next s

/-- R375: the domain's side of its Fords is reset; after a drain each flush discards nothing. Rows of Table 15.6, with the side. -/
def domFords (d : Nat) : List (Nat × Nat) := if d = 2 then [(4, 2), (5, 2), (8, 2)] else [(3, 2), (4, 1), (6, 2)]

/-- DOMAIN_GATED (R442 steps 3 to 5), never while something keeps the domain (R25, R252, R414): benches are wiped, the Fords reset, and spn_pwr_req falls. -/
def execDomainGated (domain : Fin 3) (s : State) : Host.Outcome State Fault Refusal :=
  let d := domain.val
  if !(portsServed s && (getDom s d).phase = .draining && domEmpty s d && !domKept s d) then .next s
  else
    let s := if d = 2 then forAll (List.range 8) (fun s b => wipeBench s b 10) s else s
    let s := (domFords d).foldl (fun s f => fordFlush s f.1 f.2 0 0) s
    let s := modDom s d (fun x => { x with phase := .gating, req := false })
    let s := upRation s (fun r => { r with gatings := r.gatings + 1 })
    .next (rationRaise (raCmdEnd (gateRecord s d 3) false d .done) (236 + 2 * d) s.ration.irqGate)

/-! ### Wakes (R439 to R441) -/

/-- A queued job has no eligible target that accepts it. -/
def jobStranded (s : State) (j : Nat) : Bool :=
  if (getJob s j).cls = .courier then (courierTarget s j).isNone else (targetFor s j).isNone

/-- TRAIN_WAKE (R441): the lower-numbered gated train for a job that no target accepts, or the train of a yoke that a job waits for. -/
def execTrainWake (train : Fin 2) (s : State) : Host.Outcome State Fault Refusal :=
  let t := train.val
  let off := fun (k : Nat) => domOff s k && (getDom s k).phase ≠ .waking
  let waiting := s.muster.courierQ ++ s.muster.postQ ++ s.muster.freightQ ++ s.muster.ballastQ
  let lower := decide (t = 0) || !off 0
  if inMode s .service && tb s.ration.auto t && off t && (yokeWants s t || (lower && waiting.any (jobStranded s))) then
    .next (wakeDom s t)
  else .next s

/-- R439 steps 3 and 4: the clocks start and every unit of the domain runs its known-answer test. -/
def startTests (s : State) (d : Nat) : State :=
  let s := modDom s d (fun x => { x with phase := .testing })
  if d = 2 then forAll (List.range 8) (fun s b => modBench s b (fun x => { x with kat := true })) s
  else forAll (trainLanes d) (fun s l => modLane s l (fun x => { x with kat := true })) s

/-- spn_pwr_ack of a domain follows its request. -/
def setAck (s : State) (d : Nat) : State :=
  let on := (getDom s d).req
  upPins s (fun p => { p with pwrAck := BitVec.ofNat 3 ((List.range 3).map (fun k => 2 ^ k * bit (if k = d then on else tb p.pwrAck k))).sum })

/-- POWER_ACK (R439): the acknowledgement follows the request; in Cleared Ration holds the domains as they stand (R443). -/
def execPowerAck (domain : Fin 3) (s : State) : Host.Outcome State Fault Refusal :=
  let d := domain.val
  let s := setAck s d
  if !portsServed s then .next s
  else match (getDom s d).phase with
    | .waking => .next (startTests s d)
    | .gating =>
      let again := (getDom s d).wakeAfter
      let s := modDom s d (fun x => { x with phase := .gated, wakeAfter := false })
      .next (if again then wakeDom s d else s)
    | _ => .next s

/-- POWER_SWITCH_FAULT (R440): no acknowledgement within RA_PWR_TO. -/
def execPowerSwitchFault (domain : Fin 3) (gating : Bool) (s : State) : Host.Outcome State Fault Refusal :=
  let d := domain.val
  let due := if gating then PwrPhase.gating else PwrPhase.waking
  if !(portsServed s && (getDom s d).phase = due) then .next s
  else
    let s := modDom s d (fun _ => { phase := .gated, req := false, fault := true })
    let s := emit (faultUnits s d) 18 0x904 0 [w32 d, w32 (bit gating)]
    .next (rationRaise (raCmdEnd s true d .accessFault) 242 s.ration.irqFault)

/-- LANE_KAT_DONE (R160, R174): a lane that passes is FAULTED no longer; one that fails is FAULTED and quarantined. -/
def execLaneKatDone (lane : Fin 16) (pass : Bool) (s : State) : Host.Outcome State Fault Refusal :=
  let l := lane.val
  if !((getLane s l).kat && portsServed s) then .next s
  else
    let s := modLane s l (fun n => { n with kat := false, faulted := !pass, retest := false })
    let s := if pass then s else katRecord (modUnit s (laneUnit l) (fun u => { u with quarantine := true })) 3 (laneUnit l)
    .next (testsEnd s (trainOf l))

end Sys2Proof.Machine
end

