-- ==== Sys2Proof/Machine/RegRead.lean ====
section
/-! DEFINITION. What every register reads (R464, Table 19.7): for a 4-byte aligned offset, the 32-bit register or half of a pair that
stands there, and none where the map has no register (R450). Reading changes nothing here; the two reads with a side effect are
NSEC_READ and LEDGER_DATA_READ. -/

namespace Sys2Proof.Machine

/-- A register made of a number. -/
def rd (v : Nat) : Option W32 := some (w32 v)
/-- The low half of a pair. -/
def rdLo (v : W64) : Option W32 := some (getHalf v false)
/-- The high half of a pair. -/
def rdHi (v : W64) : Option W32 := some (getHalf v true)

/-- A CMD register: RESULT and BUSY. -/
def rdCmd (result : W16) (busy : Bool) : Option W32 := rd (result.toNat + 65536 * bit busy)

/-- The bits of the numbers below `n` that satisfy `p`. -/
def bitMap (n : Nat) (p : Nat → Bool) : Nat := ((List.range n).map (fun k => 2 ^ k * bit (p k))).sum

/-- The half of a 512-bit value's 32-bit word `k`. -/
def word32 {w : Nat} (v : BitVec w) (k : Nat) : Option W32 := rd (fld v (32 * k) 32)

/-! ### Unit windows (Table 1.2) -/

/-- The unit windows. -/
def rdUnit (s : State) (u o : Nat) : Option W32 :=
  let x := getUnit s u
  match o with
  | 0x000 => some (unitIdWord u)
  | 0x004 => some (unitNumWord u)
  | 0x008 => some (unitChildWord u 0)
  | 0x00C => some (unitChildWord u 1)
  | 0x010 => some (unitChildWord u 2)
  | 0x014 => some (unitChildWord u 3)
  | 0x100 => some (unitStatusWord s u)
  | 0x104 => rd x.lastCode.toNat
  | 0x200 => some (unitCtrlWord s u)
  | 0x300 => rdLo (w64 (unitSum s u (fun r => r.jobs.toNat)))
  | 0x304 => rdHi (w64 (unitSum s u (fun r => r.jobs.toNat)))
  | 0x308 => rdLo (w64 (unitSum s u (fun r => r.bytes.toNat)))
  | 0x30C => rdHi (w64 (unitSum s u (fun r => r.bytes.toNat)))
  | 0x310 => rdLo (w64 (unitSum s u (fun r => r.busy.toNat)))
  | 0x314 => rdHi (w64 (unitSum s u (fun r => r.busy.toNat)))
  | 0x318 => rd (unitSum s u (fun r => r.faults.toNat))
  | 0x31C => rd (unitSum s u (fun r => r.preempts.toNat))
  | 0x430 => some x.certPtr
  | 0x434 => some x.certLen
  | _ => if 0x400 ≤ o ∧ o < 0x430 then word32 x.keyHash ((o - 0x400) / 4) else none

/-! ### Ring windows (Table 2.1) -/

/-- WS_CFG. -/
def wsCfgWord (g : RingRec) : Nat := g.logSize.toNat + 256 * bit g.spaceLocal + 512 * bit g.courier

/-- WS_PASID. -/
def wsPasidWord (g : RingRec) : Nat := g.pasid.toNat + 2 ^ 31 * bit g.pv

/-- The ring windows. -/
def rdRing (s : State) (r o : Nat) : Option W32 :=
  let g := getRing s r
  match o with
  | 0x00 => rd 0
  | 0x08 => rdLo g.base
  | 0x0C => rdHi g.base
  | 0x10 => rdLo g.headAddr
  | 0x14 => rdHi g.headAddr
  | 0x18 => rd (wsCfgWord g)
  | 0x1C => rd (g.tenant.toNat + 2 ^ 31 * bit g.bound)
  | 0x20 => rd g.func.toNat
  | 0x24 => rd (wsPasidWord g)
  | 0x28 => rd (bit g.irqEn + 256 * g.irqHoldoff.toNat)
  | 0x2C => rd (g.evtSrc.toNat + 2 ^ 31 * bit g.evtEn)
  | 0x30 => rdCmd g.cmdResult g.cmdBusy
  | 0x34 => rd (g.state.code + 8 * bit g.pending + 65536 * g.lastErr.toNat)
  | 0x38 => some g.taken
  | 0x3C => some g.count
  | 0x40 => rd (g.inflight % 2048)
  | 0x48 => rdLo g.doorbells
  | 0x4C => rdHi g.doorbells
  | 0x50 => rdLo g.takenTotal
  | 0x54 => rdHi g.takenTotal
  | _ => none

/-! ### Muster and the route store (Tables 3.3, 5.4) -/

/-- Courier jobs resident on targets (MU_CR_RESIDENT). -/
def courierResident (s : State) : Nat :=
  ((targets s).map (fun l => ((residents s l).filter (fun j => (getJob s j).cls = .courier)).length)).sum

/-- Muster's registers. -/
def rdMuster (s : State) (o : Nat) : Option W32 :=
  let m := s.muster
  match o with
  | 0x00 => rd (bit m.lagEn + 256 * m.stage.toNat)
  | 0x04 => rd m.reserve.toNat
  | 0x08 => rd (m.sharePost.toNat + 256 * m.shareFreight.toNat)
  | 0x10 => rd m.cbRate.toNat
  | 0x14 => rd m.cbDepth.toNat
  | 0x18 => rd m.cbCharge.toNat
  | 0x1C => some (BitVec.ofInt 32 (m.cbLevel / 1024))
  | 0x20 => rdLo m.cbAdmitted
  | 0x24 => rdHi m.cbAdmitted
  | 0x28 => rdLo m.cbDemoted
  | 0x2C => rdHi m.cbDemoted
  | 0x30 => rd m.roResv.toNat
  | 0x34 => rd (m.roFree % 131072)
  | 0x38 => rd m.lagFloor.toNat
  | 0x3C => rd (bitMap 16 (fun l => (shownLane s l).laggard))
  | 0x40 => rd m.expSel.toNat
  | 0x44 => rd (expectedNs s m.expSel.toNat)
  | 0x48 => rd m.courierQ.length
  | 0x4C => rd m.postQ.length
  | 0x50 => rd m.freightQ.length
  | 0x54 => rd m.ballastQ.length
  | 0x58 => rd (bit m.throttle)
  | 0x5C => rd (m.measPost.toNat + 256 * m.measFreight.toNat + 65536 * m.measBallast.toNat)
  | 0x60 => some s.ai.crLatMax
  | 0x64 => rd (courierResident s % 32)
  | _ => none

/-- The route store, by absolute offset. -/
def rdRoute (s : State) (off : Nat) : Option W32 :=
  let r := s.routes
  if off = rtCmd then rd (r.result.toNat + 65536 * bit r.busy + 2 ^ 24 * r.badpos.toNat + 2 ^ 29 * bit r.badv)
  else if 0x21F100 ≤ off ∧ off < 0x21F180 then some (rtValidWord s ((off - 0x21F100) / 4))
  else if 0x21F400 ≤ off ∧ off < 0x21F800 then some (rtLenWord s ((off - 0x21F400) / 4))
  else if 0x220100 ≤ off ∧ off < 0x260000 then
    let insn := tget 0 (getRoute s ((off - 0x220000) / 0x100)).slots (off % 0x100 / 8)
    some (getHalf insn (off % 8 = 4))
  else none

/-! ### Serai and Mint (Tables 8.5, 7.9) -/

/-- Slots of some kinds. -/
def slotsOf (s : State) (p : SlotKind → Bool) : Nat := (s.serai.slots.filter (fun kv => p kv.2.kind)).length

/-- The Serai's registers. -/
def rdSerai (s : State) (o : Nat) : Option W32 :=
  let x := s.serai
  match o with
  | 0x00 => rd (bit x.flush.isSome + 2 * bit x.maskLate + 4 * bit x.zeroed + 8 * bit x.hkeyDrawn)
  | 0x04 => rdCmd x.cmdResult x.cmdBusy
  | 0x08 => rd x.cmdIndex.toNat
  | 0x10 => rd (slotsOf s (fun k => k = .tenant || k = .internal))
  | 0x14 => rd (slotsOf s (fun k => k = .retired))
  | 0x18 => rd (slotsOf s (fun k => k = .privateKey || k = .holding))
  | 0x1C => rd (leasesOut s % 65536)
  | 0x20 => rdLo x.leaseIssued
  | 0x24 => rdHi x.leaseIssued
  | 0x28 => rdLo x.leaseReturned
  | 0x2C => rdHi x.leaseReturned
  | 0x30 => some x.leaseWoff
  | 0x38 => rdLo x.hits
  | 0x3C => rdHi x.hits
  | 0x40 => rdLo x.misses
  | 0x44 => rdHi x.misses
  | 0x48 => rdLo x.evictions
  | 0x4C => rdHi x.evictions
  | 0x50 => some x.conflicts
  | 0x54 => some x.overflows
  | 0x58 => some x.eccCorr
  | 0x5C => some x.remaskPasses
  | 0x60 => some x.maskAgeMax
  | 0x70 => rd x.probeSel.toNat
  | 0x80 => word32 x.probe 0
  | 0x84 => word32 x.probe 1
  | 0x88 => word32 x.probe 2
  | 0x8C => word32 x.probe 3
  | _ => none

/-- The Mint's registers. -/
def rdMint (s : State) (o : Nat) : Option W32 :=
  let x := s.mint
  match o with
  | 0x00 => rd (bit x.root + 2 * bit (ownerHeld s) + 4 * bit x.tallyBad + 8 * bit x.chBusy)
  | 0x08 => rdLo x.tallyAddr
  | 0x0C => rdHi x.tallyAddr
  | 0x10 => rdLo s.watch.box.ver
  | 0x14 => rdHi s.watch.box.ver
  | 0x18 => rdLo x.chAddr
  | 0x1C => rdHi x.chAddr
  | 0x20 => rd (x.chResult.toNat + 65536 * bit x.chBusy + 2 ^ 21 * x.chReason.toNat + 2 ^ 26 * x.chIndex.toNat)
  | 0x28 => rdLo s.watch.box.seq
  | 0x2C => rdHi s.watch.box.seq
  | 0x30 => rdLo x.unwraps
  | 0x34 => rdHi x.unwraps
  | 0x38 => rdLo x.puts
  | 0x3C => rdHi x.puts
  | 0x40 => some x.baleFail
  | 0x44 => some x.chAccepted
  | 0x48 => some x.chRefused
  | _ => none

/-! ### Counting House (Tables 9.1, 9.8) -/

/-- Operand memory: the public region of a DIRECT bench reads, every other byte is zero (R232). -/
def rdOperand (s : State) (b o : Nat) : Option W32 :=
  if isDirect s b && o < 0x8000 then rd (ofLe (readBytes (getBench s b).mem o 4)) else rd 0

/-- CH_B_STATUS. -/
def benchStatusWord (s : State) (b : Nat) : Nat :=
  let x := getBench s b
  bit (benchBusy s b) + 2 * bit (pinned s b) + 4 * bit x.holder.isSome + 16 * x.owner.code +
    65536 * (match x.owner with
      | .tenant t => t.toNat
      | _ => 0)

/-- One bench's registers. -/
def rdBench (s : State) (b o : Nat) : Option W32 :=
  let x := getBench s b
  match o with
  | 0x00 => rd (benchStatusWord s b)
  | 0x04 => rdCmd x.cmdResult x.direct.isSome
  | 0x08 => rdLo x.ops
  | 0x0C => rdHi x.ops
  | 0x10 => rd (bitMap 32 (fun i => (tget {} x.cells i).live))
  | 0x14 => some x.lastTime
  | _ => none

/-- The bench row's registers, from 0x0048_0000. -/
def rdHouse (s : State) (o : Nat) : Option W32 :=
  let x := s.house
  match o with
  | 0x00 => rd (bitMap 8 (pinned s) + 256 * bitMap 8 (fun b => (getBench s b).holder.isSome) + 65536 * bitMap 8 (isDirect s) +
      2 ^ 24 * bit (!domOn s 2 && !(inMode s .inReset || inMode s .cold)) + 2 ^ 25 * bit x.zeroed)
  | 0x04 => rd (x.direct.toNat + 256 * x.pinMax.toNat)
  | 0x08 => rd x.leaseTtl.toNat
  | 0x0C => rd (x.queue.length % 128)
  | 0x10 => rdLo x.opsEnded
  | 0x14 => rdHi x.opsEnded
  | 0x18 => rdLo x.leaseIssued
  | 0x1C => rdHi x.leaseIssued
  | 0x20 => rdLo x.leaseReturned
  | 0x24 => rdHi x.leaseReturned
  | 0x28 => rdLo x.leaseRevoked
  | 0x2C => rdHi x.leaseRevoked
  | 0x30 => rd (benchLeases s)
  | 0x34 => some x.wipes
  | 0x38 => some x.eccCorr
  | 0x3C => rd (bit x.irqDirect + 2 * bit x.irqQueued)
  | _ => if 0x1000 ≤ o ∧ o < 0x1800 then rdBench s ((o - 0x1000) / 0x100) (o % 0x100) else none

/-! ### Scales and Well (Tables 10.6, 11.2) -/

/-- REQ of SC_C_STATUS. -/
def ScWho.code (w : ScWho) : Nat :=
  match w with
  | .lane => 1
  | .mint => 2
  | .safeConduct => 3

/-- SC_C_STATUS. -/
def ctxStatusWord (s : State) (c : Nat) : Nat :=
  let x := getCtx s c
  let held := bit x.holder.isSome
  2 * held + 4 * bit x.faulted + (match x.run with
    | some r => 1 + 16 * r.who.code + 256 * (if r.who = .lane then r.lane else 0) + 65536 * r.fn + 2 ^ 24 * r.set
    | none => 256 * (x.holdLane * held))

/-- The Scales' registers. -/
def rdScales (s : State) (o : Nat) : Option W32 :=
  let x := s.scales
  match o with
  | 0x00 => rd (bitMap 4 (fun c => (getCtx s c).holder.isSome) + 16 * bitMap 4 (fun c => (getCtx s c).faulted) + 256 * bit x.charter +
      512 * bit x.zeroed)
  | 0x04 => rd (scCfgWord s)
  | 0x08 => rdCmd x.cmdResult false
  | 0x0C => rd (x.queue.length % 128)
  | 0x10 => rdLo x.ops
  | 0x14 => rdHi x.ops
  | 0x18 => rdLo x.attempts
  | 0x1C => rdHi x.attempts
  | 0x20 => some x.aborts
  | 0x24 => some x.wipes
  | 0x28 => some x.eccCorr
  | 0x2C => rd (bit x.irqFault)
  | _ =>
    if 0x100 ≤ o ∧ o < 0x200 then
      let c := (o - 0x100) / 0x40
      match o % 0x40 with
      | 0 => rd (ctxStatusWord s c)
      | 4 => some (getCtx s c).lastTime
      | 8 => rd (getCtx s c).lastAtt.toNat
      | _ => none
    else none

/-- The Well's registers. -/
def rdWell (s : State) (o : Nat) : Option W32 :=
  let x := s.well
  match o with
  | 0x00 => rd (x.state.code + 16 * x.srcOk.toNat + 256 * bit x.katFail + 512 * bit x.zeroed + 4096 * (x.level / 4 % 2048))
  | 0x04 => rd x.reseedInt.toNat
  | 0x08 => rdCmd x.cmdResult x.cmd.isSome
  | 0x0C => rd (bit x.irqEn)
  | 0x10 => rdLo x.bytes
  | 0x14 => rdHi x.bytes
  | 0x18 => rdLo x.reseeds
  | 0x1C => rdHi x.reseeds
  | 0x20 => some x.srcFails
  | 0x24 => some x.denied
  | 0x28 => some x.eccCorr
  | _ => if 0x1000 ≤ o ∧ o < 0x1400 then rd (ofLe (readBytes x.capture (o - 0x1000) 4)) else none

/-! ### Tollgate, Porter, Relay (Tables 12.4, 13.1, 13.7) -/

/-- TG_C_CFG. -/
def tgCfgWord (x : TgCtx) : Nat :=
  x.alg.toNat + 256 * x.src.toNat + 4096 * bit x.auto + 8192 * bit x.cmpEn + 65536 * x.chan.toNat

/-- One Tollgate context. -/
def rdTgCtx (s : State) (c o : Nat) : Option W32 :=
  let x := getTg s c
  match o with
  | 0x000 => rd (tgCfgWord x)
  | 0x008 => rdLo x.wstart
  | 0x00C => rdHi x.wstart
  | 0x010 => rdLo x.wend
  | 0x014 => rdHi x.wend
  | 0x020 => rdCmd x.cmdResult false
  | 0x024 => rd (x.state.code + 16 * bit x.matched + 32 * bit x.cmpv + 256 * x.err.toNat)
  | 0x028 => rd x.tailLen.toNat
  | 0x030 => rdLo x.count
  | 0x034 => rdHi x.count
  | 0x038 => rdLo (if x.src = 1 then 0 else x.next)
  | 0x03C => rdHi (if x.src = 1 then 0 else x.next)
  | _ =>
    if 0x40 ≤ o ∧ o < 0x80 then word32 x.expect ((o - 0x40) / 4)
    else if 0x80 ≤ o ∧ o < 0xC0 then word32 x.digest ((o - 0x80) / 4)
    else if 0x100 ≤ o ∧ o < 0x200 then rd (ofLe (readBytes x.tail (o - 0x100) 4))
    else none

/-- The Tollgate's registers. -/
def rdTollgate (s : State) (o : Nat) : Option W32 :=
  let x := s.tollgate
  match o with
  | 0x00 => rd (bitMap 8 (fun c => tgActive (getTg s c)) + 256 * bit x.cleared + 512 * x.cause.toNat)
  | 0x04 => rd (bit x.irqEn)
  | 0x08 => some x.clears
  | 0x0C => some x.missed
  | 0x10 => rdLo x.bytes
  | 0x14 => rdHi x.bytes
  | _ => if 0x1000 ≤ o ∧ o < 0x2000 then rdTgCtx s ((o - 0x1000) / 0x200) (o % 0x200) else none

/-- PT_C_CFG and PT_S_CFG. -/
def ptCfgWord (p : PtSet) : Nat :=
  p.mode.toNat + 4 * bit p.pace + 8 * bit p.arm + 16 * bit p.en + 32 * bit p.ledger + 64 * bit p.ns + 65536 * p.esize.toNat

/-- One register set of a channel. -/
def rdPtSet (p : PtSet) (o : Nat) : Option W32 :=
  match o with
  | 0x00 => rdLo p.src
  | 0x04 => rdHi p.src
  | 0x08 => rdLo p.dst
  | 0x0C => rdHi p.dst
  | 0x10 => rdLo p.index
  | 0x14 => rdHi p.index
  | 0x18 => some p.len
  | 0x1C => rd p.step.toNat
  | 0x20 => rd (ptCfgWord p)
  | _ => none

/-- Porter's registers. -/
def rdPorter (s : State) (o : Nat) : Option W32 :=
  let x := s.porter
  if o < 0x2000 then
    let c := getChan s (o / 0x100)
    if o % 0x100 < 0x80 then rdPtSet c.act (o % 0x80) else rdPtSet c.shadow (o % 0x80)
  else match o with
    | 0x2000 => rd (bit x.stopped + 2 * bit x.dir + 4 * x.cause.toNat)
    | 0x2004 => rdCmd x.cmdResult false
    | 0x2008 => rdLo x.errAddr
    | 0x200C => rdHi x.errAddr
    | 0x2010 => rd x.maxRd.toNat
    | 0x2014 => rd (bit x.irqEn)
    | 0x2018 => some x.stops
    | 0x201C => some x.abandoned
    | 0x2020 => some x.refused
    | 0x2024 => some x.eccCorr
    | _ => none

/-- One sink. -/
def rdSink (s : State) (k o : Nat) : Option W32 :=
  let x := getSink s k
  match o with
  | 0x0 => rd (x.srcA.toNat + 2 ^ 15 * bit x.enA + 2 ^ 16 * x.srcB.toNat + 2 ^ 31 * bit x.enB)
  | 0x4 => rd (x.count + 65536 * bit x.ovf)
  | 0x8 => rdCmd x.cmdResult false
  | 0xC => rd (x.ring.toNat + 2 ^ 31 * bit x.en)
  | _ => none

/-- One timer. -/
def rdTimer (s : State) (t o : Nat) : Option W32 :=
  let x := getTimer s t
  match o with
  | 0x00 => rd (bit x.base + 2 * bit x.periodic)
  | 0x04 => rdCmd x.cmdResult false
  | 0x08 => some x.period
  | 0x0C => rd x.frac.toNat
  | 0x10 => rdLo (x.startSec.setWidth 64)
  | 0x14 => rdHi (x.startSec.setWidth 64)
  | 0x18 => rd x.startNs.toNat
  | 0x1C => some x.limit
  | 0x20 => some x.fired
  | 0x24 => some x.missed
  | 0x28 => rd (bit x.running + 2 * bit (x.base && !timeSet s))
  | _ => none

/-- The Relay's registers. -/
def rdRelay (s : State) (o : Nat) : Option W32 :=
  let x := s.relay
  match o with
  | 0x00 => rd (bit x.ovf)
  | 0x04 => rd (bit x.irqEn)
  | 0x08 => rdLo x.added
  | 0x0C => rdHi x.added
  | 0x10 => rdLo x.consumed
  | 0x14 => rdHi x.consumed
  | 0x18 => rd (relayPending s % 2 ^ 26)
  | 0x1C => some x.dropped
  | 0x20 => some x.woff
  | 0x24 => some x.merged
  | _ =>
    if 0x100 ≤ o ∧ o < 0x180 then rd (bitMap 32 (fun i => tget false x.seen (8 * (o - 0x100) + i)))
    else if 0x1000 ≤ o ∧ o < 0x3000 then
      if hasSink ((o - 0x1000) / 0x10) then rdSink s ((o - 0x1000) / 0x10) (o % 0x10) else none
    else if 0x4000 ≤ o ∧ o < 0x4800 then rdTimer s ((o - 0x4000) / 0x40) (o % 0x40)
    else none

/-! ### Almanac and Ledger (Tables 14.2, 14.7) -/

/-- AL_CFG. -/
def alCfgWord (a : AlmanacRec) : Nat := bit a.disc + 2 * bit a.wlock + 16 * a.stepUs.toNat + 65536 * a.lockNs.toNat

/-- One alarm. -/
def rdAlarm (x : AlarmRec) (o : Nat) : Option W32 :=
  match o with
  | 0x0 => rdLo (x.sec.setWidth 64)
  | 0x4 => rdHi (x.sec.setWidth 64)
  | 0x8 => rd x.ns.toNat
  | 0xC => rd (bit x.en + 2 * bit x.fired)
  | _ => none

/-- The Almanac's registers: AL_SEC and AL_FRAC show the port's shadow (R326). -/
def rdAlmanac (s : State) (p : CtlPort) (o : Nat) : Option W32 :=
  let a := s.almanac
  let sh := alPort s p
  match o with
  | 0x00 => rd (a.state.code + 4 * bit a.todv)
  | 0x04 => rd (alCfgWord a)
  | 0x08 => rd a.time.nsec
  | 0x0C => rd sh.frac.toNat
  | 0x10 => rdLo (sh.sec.setWidth 64)
  | 0x14 => rdHi (sh.sec.setWidth 64)
  | 0x18 => some a.freq
  | 0x1C => some a.phase
  | 0x20 => rd a.holdMax.toNat
  | 0x24 => some a.steps
  | 0x28 => some a.ppsAcc
  | 0x2C => some a.ppsRej
  | 0x30 => rdLo a.hbAddr
  | 0x34 => rdHi a.hbAddr
  | 0x38 => rd (bit a.hbEn)
  | 0x3C => some a.hbSkipped
  | 0x40 => rd (bit a.irqEn)
  | _ => if 0x100 ≤ o ∧ o < 0x200 then rdAlarm (getAlarm s ((o - 0x100) / 0x10)) (o % 0x10) else none

/-- The Ledger's registers: LG_DATA shows the port's latch (R346). -/
def rdLedger (s : State) (p : CtlPort) (o : Nat) : Option W32 :=
  let l := s.ledger
  let latch := match p with
    | .host => l.latchHost
    | .sideband => l.latchSide
  match o with
  | 0x40 => rd (l.drain.length % 1024 + 65536 * (wordsBegun l.fill.length % 1024) + 2 ^ 26 * bit l.bank + 2 ^ 27 * bit l.ovf +
      2 ^ 28 * bit l.ue)
  | 0x44 => rd l.hiwat.toNat
  | 0x48 => rd (bit l.irqAvail + 2 * bit l.irqHiwat + 4 * bit l.irqDrop)
  | 0x50 => rdLo l.bytesIn
  | 0x54 => rdHi l.bytesIn
  | 0x58 => rdLo l.bytesOut
  | 0x5C => rdHi l.bytesOut
  | 0x60 => some l.bytesWoff
  | 0x64 => rd (ledgerHeld s)
  | 0x68 => some l.records
  | 0x6C => some l.droppedRecs
  | 0x70 => some l.droppedBytes
  | 0x74 => some l.eccCorr
  | 0x78 => some l.eccUncorr
  | _ => if o < 0x20 then word32 latch (o / 4) else none

/-! ### Adapter interface and modes (Tables 15.9, 16.9) -/

/-- spn_present (R369). -/
def presentOut (s : State) : Bool := inMode s .service

/-- One master port. -/
def rdPort (s : State) (k o : Nat) : Option W32 :=
  let x := getPort s k
  match o with
  | 0x00 => rd (x.reqCrd % 256 + 256 * (x.dataCrd % 256))
  | 0x04 => rd (x.reads.length % 512 + 65536 * (x.writes.length % 512))
  | 0x08 => rdLo x.issued
  | 0x0C => rdHi x.issued
  | 0x10 => rdLo x.resp
  | 0x14 => rdHi x.resp
  | 0x18 => some x.woff
  | 0x1C => some x.err
  | 0x20 => some x.late
  | 0x24 => rd ((x.quarReads.length + x.quarWrites.length) % 512)
  | 0x28 => some x.overgrant
  | _ => none

/-- The adapter interface's registers. -/
def rdAdapter (s : State) (o : Nat) : Option W32 :=
  let a := s.ai
  match o with
  | 0x00 => rd (bit s.pins.linkLost + 2 * bit s.pins.linkLp + 4 * bit s.pins.freeze + 8 * bit a.contained + 16 * bit (presentOut s) +
      32 * bit a.icStop + 64 * bit s.pins.icRst + 128 * bit (!a.flrs.isEmpty))
  | 0x04 => rd (bit a.ats + 256 * a.resvCrd.toNat + 65536 * a.resvTags.toNat)
  | 0x08 => rd a.cplTo.toNat
  | 0x0C => rd (a.ltrActive.toNat + 65536 * a.ltrIdle.toNat)
  | 0x10 => rd a.ltrIdleUs.toNat
  | 0x14 => rd (bit a.irqLink)
  | 0x18 => rdCmd a.atcResult a.atcBusy
  | 0x1C => rd (a.atc.length % 16384)
  | 0x20 => rdLo a.atcHits
  | 0x24 => rdHi a.atcHits
  | 0x28 => rdLo a.atcMisses
  | 0x2C => rdHi a.atcMisses
  | 0x30 => some a.atcFaults
  | 0x34 => some a.atcInvals
  | 0x38 => some a.flrCount
  | 0x3C => some a.fordFlushes
  | 0x40 => some a.linkLosses
  | _ => if 0x100 ≤ o ∧ o < 0x200 then rdPort s ((o - 0x100) / 0x40) (o % 0x40) else none

/-- The Mode controller's registers. -/
def rdMode (s : State) (o : Nat) : Option W32 :=
  let m := s.mode
  match o with
  | 0x00 => rd (m.mode.code + 8 * bit m.stopping + 16 * bit m.recov.isSome + 32 * m.recScope.code + 128 * bit m.consErr)
  | 0x04 => rdCmd m.cmdResult (m.stopping || m.recov.any (fun v => !v.automatic))
  | 0x08 => rd m.holder.toNat
  | 0x0C => some m.nonce
  | 0x10 => rd 0
  | 0x14 => rd 0
  | 0x18 => rd (m.drainUs.toNat + 65536 * bit m.autoStr)
  | 0x1C => rd (m.strings.toNat + 256 * bit m.hostContained)
  | 0x20 => rd ((match m.recov with
      | some v => v.step
      | none => 0) + 16 * m.recDone.toNat)
  | 0x24 => rd m.scFault.toNat
  | 0x28 => some m.scTime
  | 0x2C => rd (bit m.irqMode + 2 * bit m.irqCont)
  | 0x30 => some m.transitions
  | 0x34 => some m.recoveries
  | 0x38 => some m.refused
  | _ => none

/-! ### Fuses, Safe-conduct, Watchman, Ration (Tables 17.12, 18.8) -/

/-- FZ_STATUS. -/
def fzStatusWord (f : FuseRec) : Nat :=
  f.life.toNat + 8 * bit f.disagree + 16 * bit f.fault + 32 * f.rsOk.toNat + 256 * f.isOk.toNat + 2048 * bit f.ownerV

/-- The Fuse controller's and Safe-conduct's registers; words 0 to 63 read zero (R404). -/
def rdFuse (s : State) (o : Nat) : Option W32 :=
  let f := s.fuse
  let x := s.safe
  match o with
  | 0x1000 => rd (fzStatusWord f)
  | 0x1004 => rdCmd f.cmdResult f.cmd.isSome
  | 0x1008 => some f.pdata
  | 0x1040 => some f.blown
  | 0x2000 => rd (bit x.held + 2 * bit x.published)
  | 0x2004 => rdCmd x.cmdResult x.cmd.isSome
  | 0x2008 => rdLo x.storeAddr
  | 0x200C => rdHi x.storeAddr
  | 0x2010 => rdLo x.attAddr
  | 0x2014 => rdHi x.attAddr
  | 0x2040 => some x.reports
  | _ =>
    if o < 0x800 then (if o < 0x100 then rd 0 else some (tget 0 f.sensed (o / 4)))
    else if 0x1010 ≤ o ∧ o < 0x1040 then word32 f.ownData ((o - 0x1010) / 4)
    else if 0x2020 ≤ o ∧ o < 0x2040 then word32 x.attNonce ((o - 0x2020) / 4)
    else none

/-- WT_CFG. -/
def wtCfgWord (w : AonRegs) : Nat := w.act.toNat + 256 * bit w.lock

/-- The Watchman's registers. -/
def rdWatch (s : State) (o : Nat) : Option W32 :=
  let w := s.watch
  let a := w.shown
  match o with
  | 0x00 => rd (w.tamper.toNat + 16 * bit s.pins.zeroize + 32 * bit w.cleared + 64 * bit a.lock)
  | 0x04 => rd (wtCfgWord a)
  | 0x08 => rdCmd w.cmdResult false
  | 0x0C => rd (bit w.irqEn)
  | 0x10 => rdLo (a.counter.setWidth 64)
  | 0x14 => rdHi (a.counter.setWidth 64)
  | 0x18 => rd (a.logNext + 16 * a.logValid + 65536 * a.logLost)
  | 0x1C => some w.events
  | _ =>
    if 0x100 ≤ o ∧ o < 0x180 then some (getHalf (tget 0 a.log ((o - 0x100) / 8)) (o % 8 = 4))
    else if 0x180 ≤ o ∧ o < 0x1C0 then some (tget 0 a.logSec ((o - 0x180) / 4))
    else none

/-- Ration's registers. -/
def rdRation (s : State) (o : Nat) : Option W32 :=
  let r := s.ration
  match o with
  | 0x00 => rd (bit r.throttle + 2 * bit r.thermal + 4 * bit r.floorSet + 16 * (getDom s 0).phase.code + 64 * (getDom s 1).phase.code +
      256 * (getDom s 2).phase.code + 4096 * bitMap 3 (fun d => (getDom s d).fault))
  | 0x04 => rd r.budget.toNat
  | 0x08 => rd r.auto.toNat
  | 0x0C => rd r.idleUs.toNat
  | 0x10 => rd r.drainUs.toNat
  | 0x14 => rd r.pwrTo.toNat
  | 0x18 => rdCmd r.cmdResult r.cmd.isSome
  | 0x1C => rd r.est.toNat
  | 0x20 => rd r.floor.toNat
  | 0x24 => rd (r.dutyD.toNat + 256 * r.dutyE.toNat)
  | 0x28 => rd (r.excessAt.length % 65536)
  | 0x2C => rd (bit r.irqThr + 2 * bit r.irqGate + 4 * bit r.irqFault)
  | 0x30 => some r.throttles
  | 0x34 => some r.gatings
  | 0x38 => rd r.estMax.toNat
  | 0x140 => some r.eccRoute
  | 0x144 => some r.eccReorder
  | 0x148 => some r.eccRing
  | 0x14C => some r.eccAtc
  | 0x150 => some r.eccRrb
  | 0x154 => some r.ue
  | _ => if 0x100 ≤ o ∧ o < 0x140 then some (tget 0 r.eccLane ((o - 0x100) / 4)) else none

/-! ### The window (Table 19.1) -/

/-- The register at a 4-byte aligned offset, as port `p` reads it. -/
def regWord (s : State) (p : CtlPort) (off : Nat) : Option W32 :=
  if off < 0x020000 then rdUnit s (off / 0x1000) (off % 0x1000)
  else if off < 0x100000 then none
  else if off < 0x200000 then rdRing s ((off - 0x100000) / 0x100) (off % 0x100)
  else if off < 0x21F000 then rdMuster s (off - 0x200000)
  else if off < 0x260000 then rdRoute s off
  else if off < 0x300000 then none
  else if off < 0x380000 then rdSerai s (off - 0x300000)
  else if off < 0x400000 then rdMint s (off - 0x380000)
  else if off < 0x480000 then rdOperand s ((off - 0x400000) / 0x10000) (off % 0x10000)
  else if off < 0x500000 then rdHouse s (off - 0x480000)
  else if off < 0x580000 then rdScales s (off - 0x500000)
  else if off < 0x600000 then rdWell s (off - 0x580000)
  else if off < 0x700000 then rdTollgate s (off - 0x600000)
  else if off < 0x780000 then rdPorter s (off - 0x700000)
  else if off < 0x7C0000 then rdRelay s (off - 0x780000)
  else if off < 0x7D0000 then rdAlmanac s p (off - 0x7C0000)
  else if off < 0x800000 then rdLedger s p (off - 0x7D0000)
  else if off < 0x900000 then rdAdapter s (off - 0x800000)
  else if off < 0xA00000 then rdMode s (off - 0x900000)
  else if off < 0xB00000 then rdFuse s (off - 0xA00000)
  else if off < 0xC00000 then rdWatch s (off - 0xB00000)
  else if off < 0xD00000 then rdRation s (off - 0xC00000)
  else none

/-- A read of 4 bytes: RSV reads zero (R450). -/
def readWord (s : State) (p : CtlPort) (off : Nat) : W32 := (regWord s p off).getD 0

/-- Reads served in Cleared to the sideband port (Table 19.3). -/
def clearedRead (off : Nat) : Bool :=
  (off < 0x20000 && (off % 0x1000 < 0x100 || (0x400 ≤ off % 0x1000 && off % 0x1000 < 0x500))) ||
  (0x7D0000 ≤ off && off < 0x800000) || (0xA00000 ≤ off && off < 0xC00000)

/-- The offsets, 8-byte aligned, at which a pair stands (Table 19.7). -/
def isPair (off : Nat) : Bool :=
  if off < 0x020000 then [0x300, 0x308, 0x310].contains (off % 0x1000)
  else if off < 0x100000 then false
  else if off < 0x200000 then [0x08, 0x10, 0x48, 0x50].contains (off % 0x100)
  else if off < 0x220100 then [0x200020, 0x200028].contains off
  else if off < 0x260000 then true
  else if off < 0x380000 then [0x300020, 0x300028, 0x300038, 0x300040, 0x300048].contains off
  else if off < 0x400000 then [0x380008, 0x380010, 0x380018, 0x380028, 0x380030, 0x380038].contains off
  else if off < 0x500000 then
    [0x480010, 0x480018, 0x480020, 0x480028].contains off || (0x481000 ≤ off && off < 0x481800 && off % 0x100 = 8)
  else if off < 0x600000 then [0x500010, 0x500018, 0x580010, 0x580018].contains off
  else if off < 0x700000 then
    off = 0x600010 || (0x601000 ≤ off && off < 0x602000 && [0x08, 0x10, 0x30, 0x38].contains (off % 0x200))
  else if off < 0x780000 then (off < 0x702000 && off % 0x80 < 0x18) || off = 0x702008
  else if off < 0x7C0000 then
    [0x780008, 0x780010].contains off || (0x784000 ≤ off && off < 0x784800 && off % 0x40 = 0x10)
  else if off < 0x7D0000 then [0x7C0010, 0x7C0030].contains off || (0x7C0100 ≤ off && off < 0x7C0200 && off % 0x10 = 0)
  else if off < 0x800000 then off < 0x7D0020 || [0x7D0050, 0x7D0058].contains off
  else if off < 0x900000 then
    [0x800020, 0x800028].contains off || (0x800100 ≤ off && off < 0x800200 && [0x08, 0x10].contains (off % 0x40))
  else if off < 0xB00000 then [0xA02008, 0xA02010].contains off
  else off = 0xB00010 || (0xB00100 ≤ off && off < 0xB00180)

/-- What a read does to the state (R326, R342, R346, R453): with any byte of AL_NSEC it latches the port's shadow, and with byte 0 of
LG_DATA0 it removes a Ledger word into the port's latch. -/
def readEffect (s : State) (p : CtlPort) (off : Nat) : State :=
  if off / 4 * 4 = 0x7C0008 then nsecLatch s p
  else if off = 0x7D0000 then
    let (w, s) := ledgerRead s
    latchWord s p w
  else s

/-- The `n` bytes at `off` of one register, 4 at most: their value and what the read does. -/
def readPart (s : State) (p : CtlPort) (off n : Nat) : Nat × State :=
  let s := readEffect s p off
  ((readWord s p (off / 4 * 4)).toNat / 256 ^ (off % 4) % 256 ^ n, s)

/-- A read of `n` bytes by a control port, 1, 2, 4 or 8 (R452, R453, R455, R457, R461): its response and what it does. A pair is read in one
cycle; two registers are read one after the other, the lower first. An unaligned read, or one that the port does not serve in this mode,
has an error response with data zero. -/
def portRead (s : State) (p : CtlPort) (off n : Nat) : PortRsp × State :=
  if off % n ≠ 0 || !(served s || (ledgerServed s p && clearedRead off)) then ({ err := true, data := 0 }, s)
  else if n < 8 then
    let r := readPart s p off n
    ({ err := false, data := w64 r.1 }, r.2)
  else if isPair off then
    let s := readEffect s p off
    ({ err := false, data := w64 ((readWord s p off).toNat + 2 ^ 32 * (readWord s p (off + 4)).toNat) }, s)
  else
    let lo := readPart s p off 4
    let hi := readPart lo.2 p (off + 4) 4
    ({ err := false, data := w64 (lo.1 + 2 ^ 32 * hi.1) }, hi.2)

/-- A read by a control port, and its response. -/
def portAnswer (s : State) (p : CtlPort) (off n : Nat) : State :=
  if portThere s then
    let r := portRead s p off n
    answer r.2 p r.1
  else s

/-- NSEC_READ (R326, R453): a read that begins at a byte of AL_NSEC; one of 8 bytes reads AL_FRAC after it (R457). -/
def execNsecRead (p : CtlPort) (byte : Fin 4) (size : AccSize) (s : State) : Host.Outcome State Fault Refusal :=
  .next (portAnswer s p (0x7C0008 + byte.val) (accBytes size))

/-- LEDGER_DATA_READ (R342, R346, R453): a read that begins at byte 0 of LG_DATA0. -/
def execLedgerDataRead (p : CtlPort) (size : AccSize) (s : State) : Host.Outcome State Fault Refusal :=
  .next (portAnswer s p 0x7D0000 (accBytes size))

end Sys2Proof.Machine
end

