-- ==== Sys2Proof/Machine/Watch.lean ====
section
/-! DEFINITION. The Watchman: the zeroize line (R422), tamper inputs (R420, R421) and LOGCLEAR (R430). -/

namespace Sys2Proof.Machine

/-- The core domain of the Watchman is out of reset. While the block is in reset the always-on domain alone acts: the Strongbox is
cleared, and the entry is in the log (R422, R423). -/
def zeroizeAway (s : State) : State := upWatch s (fun w => { w with box := strongboxClear w.box })

/-- ZEROIZE (R422): spn_zeroize rises; that it stays high is a free value (DESIGN CHOICE, log entry 14). -/
def execZeroize (s : State) : Host.Outcome State Fault Refusal :=
  if s.pins.zeroize then .next s
  else
    let s := aonLog (upPins s (fun p => { p with zeroize := true })) 5
    if awake s then .next (zeroizeAll (tgClear (watchRaise s 220) 4) []) else .next (zeroizeAway s)

/-- TAMPER_INPUT (R420, R421): an input is asserted; it is logged, clears the Tollgate (R297), and with ACT = 1 is a zeroize event: one for all
the inputs that are asserted together, in one control cycle (Table 17.9). -/
def execTamperInput (input : Fin 4) (s : State) : Host.Outcome State Fault Refusal :=
  let i := input.val
  let act := tb s.watch.act i && decide (s.watch.zeroAt ≠ some s.cycle)
  let s := upWatch (aonLog s (i + 1)) (fun w => { w with
    tamper := w.tamper ||| BitVec.ofNat 4 (2 ^ i), zeroAt := if act then some s.cycle else w.zeroAt })
  if awake s then
    let s := tgClear (watchRaise s (216 + i)) 3
    if act then .next (zeroizeAll s []) else .next s
  else if act then .next (zeroizeAway s) else .next s

/-- The offset of WT_CMD. -/
def wtCmd : Nat := 0xB00008

/-- LOGCLEAR (R430): in Provision, the log and LOST become empty. -/
def execLogclear (p : CtlPort) (s : State) : Host.Outcome State Fault Refusal :=
  portCmd s p wtCmd 1 (fun s =>
    if !inMode s .provision then
      .next (refuseCmd (upWatch s (fun w => { w with cmdResult := Status.accessFault.code })) p wtCmd .accessFault 1)
    else .next (upWatch s (fun w => { w with
      log := [], logSec := [], logNext := 0, logValid := 0, logLost := 0, logNew := 0, cmdResult := Status.done.code })))

end Sys2Proof.Machine
end

