-- ==== Sys2Proof/Machine/Well.lean ====
section
/-! DEFINITION. The Well: start-up and health tests (R277, R281), reseeding (R279, R280), grants to lane draws (R282) and raw capture
(R285). -/

namespace Sys2Proof.Machine

/-- The offset of WL_CMD. -/
def wlCmd : Nat := 0x580008

/-! ### Source failures (R277) -/

/-- WL_SRC_FAILS with one more failure of source `n`, saturating at 255. -/
def failCount (v : W32) (n : Nat) : W32 :=
  if fld v (8 * n) 8 = 255 then v else v + w32 (2 ^ (8 * n))

/-- The health tests of a source. -/
def getSource (w : WellRec) (n : Nat) : SrcRec := tget {} w.sources n

/-- R284: a source that fails in the control cycle of a reseed that used its bits: the reseed is abandoned. -/
def reseedUndone (at_ n : Nat) (w : WellRec) : WellRec :=
  match w.reseed with
  | some r => if r.cycle = at_ && r.of_.toNat.testBit n then
      { w with drbg := r.drbg, genCalls := r.calls, reseeds := w.reseeds - 1, reseed := none } else w
  | none => w

/-- R277: source `n` fails in control cycle `at_`. It is excluded and counted, and its tests begin anew (DESIGN CHOICE, log entry 67); the raw
bits of its window are discarded, and an entropy input that holds one of them. -/
def sourceOut (at_ n : Nat) (w : WellRec) : WellRec :=
  let m := BitVec.ofNat 4 (2 ^ n)
  let hit := w.inputNow.toNat.testBit n
  let w := reseedUndone at_ n w
  { w with
    srcOk := w.srcOk &&& ~~~m, srcFails := failCount w.srcFails n, sources := tset {} w.sources n {}
    input := if hit then [] else w.input, inputOf := if hit then 0 else w.inputOf, inputNow := if hit then 0 else w.inputNow
    failedAt := at_, failedOf := (if w.failedAt = at_ then w.failedOf else 0) ||| m }

/-- A failure of source `n` in test 1 repetition, 2 proportion, 3 start-up, with its record. -/
def sourceFails (s : State) (n test : Nat) : State := emit (upWell s (sourceOut s.cycle n)) 8 0x402 0 [w32 (n + 4 * test)]

/-- The operation of bench `b` fails with its draw (R283): the bench scrubs. -/
def benchDry (s : State) (b : Nat) : State :=
  match (getBench s b).run with
  | none => s
  | some r =>
    let s := benchScrub (modBench s b (fun x => { x with run := none })) b
    requestFails (benchEnded s b false .entropyFail) r.who r.job .entropyFail

/-- The operation of context `c` fails with its draw (R283): the context scrubs. -/
def ctxDry (s : State) (c : Nat) : State :=
  match (getCtx s c).run with
  | none => s
  | some r => requestFails (ctxEnded (scrubCtx (modCtx s c (fun x => { x with run := none })) c) c .entropyFail) r.who r.job .entropyFail

/-- A waiting draw fails: the Serai's fill takes the lowest way (R215), and its re-masking tries again (R223). -/
def drawFails (s : State) (d : DrawRec) : State :=
  match d.who with
  | .remask => s
  | .bench b _ => benchDry s b
  | .ctx c _ => ctxDry s c
  | .genroot => genrootFails s
  | .lane j _ => failJob s j .entropyFail
  | .replacement => upSerai s (fun x => { x with bits := x.bits ++ [0] })

/-- R283: every waiting draw fails when the Well becomes FAILED, and so do the requests at the Counting House and the Scales that have yet
to draw. -/
def failDraws (s : State) : State :=
  let ds := s.well.draws
  let pk := s.house.queue.filter (fun r => pkDraw r.fn ≠ 0)
  let lat := s.scales.queue.filter (fun r => latDraw r ≠ 0)
  let s := upWell s (fun w => { w with draws := [], denied := w.denied + w32 (ds.length + pk.length + lat.length) })
  let s := upHouse s (fun h => { h with queue := h.queue.filter (fun r => pkDraw r.fn = 0) })
  let s := upScales s (fun x => { x with queue := x.queue.filter (fun r => latDraw r = 0) })
  let s := ds.foldl drawFails s
  let s := pk.foldl (fun s r => requestFails s r.who r.job .entropyFail) s
  lat.foldl (fun s r => requestFails s r.who r.job .entropyFail) s

/-- The Well enters a state; entry into FAILED fails the waiting draws, and holds Self-check (R278, R281, R284). -/
def wellEnter (s : State) (st : WellState) : State :=
  let s := wellSetState s st
  if st = .failed then
    let s := failDraws s
    if inMode s .selfCheck then holdSelfCheck s 1 else s
  else s

/-- R278: the state that follows from the healthy sources and the generator's test. -/
def wellStateOf (w : WellRec) : WellState :=
  if w.srcOk = 0 || w.katFail then .failed else if w.srcOk = 15 then .healthy else .degraded

/-- The repetition count test has failed: 41 equal bits (Table 11.1). -/
def repeats (x : SrcRec) : Bool := x.fail = 1

/-- The adaptive proportion test has failed: the window's first bit stood 795 times in it, the first time counted (Table 11.1; that the
first bit is counted: DEDUCED, log entry 67). -/
def recurs (x : SrcRec) : Bool := x.fail = 2

/-- The raw bits of one control cycle for the tests of a source: the run of equal bits and the window of 1,024 (Table 11.1). A bit that fails
both tests counts as a repetition (R277). -/
def srcBit (x : SrcRec) (b : Bool) : SrcRec :=
  let run := if 0 < x.run ∧ x.last = b then x.run + 1 else 1
  let fresh := x.pos = 0 ∨ 1024 ≤ x.pos
  let hits := if fresh then 1 else x.hits + bit (x.first = b)
  { last := b, run := run, first := if fresh then b else x.first, pos := if fresh then 1 else x.pos + 1, hits := hits
    fail := if x.fail ≠ 0 then x.fail else if 41 ≤ run then 1 else if 795 ≤ hits then 2 else 0 }

/-- The sources that a start-up test in progress covers: all four in Self-check and while the Well is FAILED, else those that are excluded
(R277, R281; that a FAILED Well tests a healthy source again: DEDUCED, log entry 67). -/
def startSources (s : State) : BitVec 4 :=
  if inMode s .selfCheck && s.well.state = .notInst then 15
  else if s.well.cmd = some .retest then (if s.well.state = .failed then 15 else ~~~s.well.srcOk)
  else 0

/-- HEALTH_TEST_FAIL (R276, R277): the source's tests run on every raw bit and have failed; a bit that fails both counts as repetition. A
start-up test fails once. -/
def execHealthTestFail (source : Fin 4) (test : HealthTest) (s : State) : Host.Outcome State Fault Refusal :=
  let n := source.val
  let x := getSource s.well n
  let starts := (startSources s &&& ~~~s.well.startFail).toNat.testBit n
  let code := match test with
    | .repetition => if repeats x && !starts then 1 else 0
    | .proportion => if recurs x && !repeats x && !starts then 2 else 0
    | .startup => if (repeats x || recurs x) && starts then 3 else 0
  if !portsServed s || s.well.zeroed || code = 0 then .next s
  else
    let s := sourceFails s n code
    let s := if code = 3 then upWell s (fun w => { w with startFail := w.startFail ||| BitVec.ofNat 4 (2 ^ n) }) else s
    if s.well.state = .notInst then .next s else .next (wellEnter s (wellStateOf s.well))

/-! ### Start-up (R279 to R281) -/

/-- WL_CMD refuses a command. -/
def wlRefuse (s : State) (p : CtlPort) (word : Nat) : State :=
  refuseCmd (if s.well.cmd.isSome then s else upWell s (fun w => { w with cmdResult := Status.accessFault.code })) p wlCmd .accessFault word

/-- RETEST (R277, R281): the start-up tests begin. -/
def execRetest (p : CtlPort) (s : State) : Host.Outcome State Fault Refusal :=
  portCmd s p wlCmd 1 (fun s =>
    if s.well.cmd.isSome then .next (wlRefuse s p 1)
    else
      .next (upWell s (fun w => { w with
        cmd := some .retest, startFail := 0, startPass := 0
        sources := (List.range 4).foldl (fun t n => if w.srcOk.toNat.testBit n && w.state ≠ .failed then t else tset {} t n {}) w.sources })))

/-- The personalisation string (R279): PATH of units 0 to 31, and DID. -/
def wellPerson (s : State) : List Byte := (List.range 32).flatMap (fun u => leBytes 2 (pathCode u)) ++ deviceId s

/-- The generator is instantiated (R279): from 512 raw bits and 128 more for the nonce, which are free values. -/
def instantiate (s : State) : State :=
  let (seed, s) := drawNoise s 80
  let st := stdBytes (.drbg 0) [seed.take 64, seed.drop 64, wellPerson s] 48
  upWell s (fun w => { w with drbg := st, genCalls := 0, input := [], inputOf := 0, inputNow := 0, reseed := none })

/-- WELL_STARTUP_DONE (R276, R277, R281): every source under test has had 1,024 bits through both tests, or has failed and been counted on
the way; `pass` names those that passed. The generator is instantiated and tested if a source is healthy; a FAILED Well stays so unless a
source has passed. -/
def execWellStartupDone (pass : BitVec 4) (katPass : Bool) (s : State) : Host.Outcome State Fault Refusal :=
  let again := s.well.cmd = some .retest
  let tested := startSources s
  let good := tested &&& s.well.startPass &&& ~~~s.well.startFail
  if (!again && tested = 0) || s.well.zeroed || (tested &&& ~~~(good ||| s.well.startFail)) ≠ 0 || pass ≠ good then .next s
  else
    let stays := s.well.state = .failed && good = 0
    let s := upWell s (fun w => { w with srcOk := w.srcOk ||| good, startFail := 0, startPass := 0 })
    let s := if s.well.srcOk = 0 || stays then s else instantiate (upWell s (fun w => { w with katFail := !katPass }))
    let st := if stays then .failed else wellStateOf s.well
    let s := wellEnter s st
    let s := if st = .failed then s else upMode s (fun m => { m with scFault := m.scFault &&& 13 })
    if again then
      .next (upWell s (fun w => { w with
        cmd := none, cmdResult := (if st = .failed then Status.entropyFail else .done).code }))
    else .next s

/-! ### Reseeding (R279, R280) -/

/-- The next entropy input of 512 raw bits is whole (R279). -/
def inputReady (s : State) : Bool := s.well.inputOf ≠ 0 && 512 ≤ s.well.input.length

/-- Bits as bytes, the first bit in bit 0 of byte 0. -/
def packBits (bs : List Bool) : List Byte :=
  (List.range (bs.length / 8)).map (fun k => BitVec.ofNat 8 ((List.range 8).map (fun i => 2 ^ i * bit (bs.getD (8 * k + i) false))).sum)

/-- A source whose bits the input holds failed in this control cycle (R284). -/
def reseedBarred (s : State) : Bool := s.well.failedAt = s.cycle && (s.well.failedOf &&& s.well.inputOf) ≠ 0

/-- RESEED (R279, R280): it is due and its entropy input is ready; after every 2 ^ 24 reseeds the generator is tested. One that meets the
failure of a source whose bits it would use is abandoned, and its input discarded (R284). -/
def execReseed (s : State) : Host.Outcome State Fault Refusal :=
  if !(portsServed s && wellCan s && reseedInt s ≤ s.well.genCalls && inputReady s) then .next s
  else if reseedBarred s then .next (upWell s (fun w => { w with input := [], inputOf := 0, inputNow := 0 }))
  else
    let s := upWell s (fun w => { w with
      reseed := some { cycle := s.cycle, of_ := w.inputOf, drbg := w.drbg, calls := w.genCalls }
      drbg := stdBytes (.drbg 3) [w.drbg, packBits w.input] 48, genCalls := 0, reseeds := w.reseeds + 1
      input := [], inputOf := 0, inputNow := 0 })
    let n := s.well.reseeds.toNat
    if n % 2 ^ 24 = 0 && !Config.wellKat n then .next (wellEnter (upWell s (fun w => { w with katFail := true })) .failed)
    else .next s

/-! ### Grants (R282) -/

/-- The draw of a class whose turn it is: the next place after the one served last, of sixteen lanes and, in class 4, the place after
them. -/
def inTurn (w : WellRec) (cls last : Nat) : Option DrawRec :=
  ((List.range 17).map (fun k => (last + 1 + k) % 17)).findSome? (fun p => w.draws.find? (fun d => d.cls = cls && d.who.place = p))

/-- The draw that the buffer grants: of the highest class that waits. Within classes 1 and 2 the draws are granted as they came (R282 gives no
order there: DESIGN CHOICE, log entry 67). -/
def nextDraw (s : State) : Option DrawRec :=
  match s.well.draws.find? (fun d => d.cls = 1), s.well.draws.find? (fun d => d.cls = 2), inTurn s.well 3 s.well.last3 with
  | some d, _, _ => some d
  | none, some d, _ => some d
  | none, none, some d => some d
  | none, none, none => inTurn s.well 4 s.well.last4

/-- The bytes of a grant: up to 32 of those in the buffer, or up to 4 for a draw of class 3 or 4 while the buffer holds more than 512
bytes. -/
def grantSize (s : State) (d : DrawRec) : Nat :=
  let n := d.need - d.got.length
  if d.cls ≤ 2 then Nat.min (Nat.min 32 n) s.well.level else if 512 < s.well.level then Nat.min 4 n else 0

/-- A draw is complete: its bytes `got` go to who waits. -/
def giveDraw (s : State) (d : DrawRec) (got : List Byte) : State :=
  match d.who with
  | .remask => remask s s.serai.remaskNext (BitVec.ofNat 512 (ofLe got))
  | .bench b t => modBench s b (fun x => { x with run := x.run.map (fun r => if r.ticket = t then { r with rnd := got } else r) })
  | .ctx c t => modCtx s c (fun x => { x with run := x.run.map (fun r => if r.ticket = t then { r with rnd := got } else r) })
  | .genroot => upFuse s (fun f => { f with cmd := f.cmd.map (fun j => { j with plan := genrootPlan got }) })
  | .lane j _ => modJob s j (fun x => { x with kept := some got, wait := .nothing })
  | .replacement => upSerai s (fun x => { x with bits := x.bits ++ [ofLe got] })

/-- WELL_GRANT (R282): the grant of one lane cycle. -/
def execWellGrant (s : State) : Host.Outcome State Fault Refusal :=
  match nextDraw s with
  | none => .next s
  | some d =>
    let n := grantSize s d
    if !wellCan s || n = 0 then .next s
    else
      let (bs, s) := wellTake s n
      let got := d.got ++ bs
      let s := upWell s (fun w => { w with
        last3 := if d.cls = 3 then d.who.place else w.last3, last4 := if d.cls = 4 then d.who.place else w.last4 })
      if got.length < d.need then
        .next (upWell s (fun w => { w with draws := w.draws.map (fun e => if e.draw = d.draw then { e with got := got } else e) }))
      else .next (giveDraw (upWell s (fun w => { w with draws := w.draws.filter (fun e => e.draw ≠ d.draw) })) d got)

/-! ### Raw capture (R285) -/

/-- CAPTURE (R285): in Provision. -/
def execCapture (p : CtlPort) (source : BitVec 2) (s : State) : Host.Outcome State Fault Refusal :=
  portCmd s p wlCmd (2 + 16 * source.toNat) (fun s =>
    let word := 2 + 16 * source.toNat
    if s.well.cmd.isSome || !inMode s .provision then .next (wlRefuse s p word)
    else .next (upWell s (fun w => { w with cmd := some (.capture source.toNat), capBits := [], capCount := 0 })))

/-- CAPTURE_DONE (R285): the window takes the 8,192 raw bits that the source has given since the command, when they are all there. -/
def execCaptureDone (s : State) : Host.Outcome State Fault Refusal :=
  match s.well.cmd with
  | some (.capture _) =>
    if s.well.capCount < 8192 then .next s
    else .next (upWell s (fun w => { w with
      capture := w.capBits, capBits := [], capCount := 0, cmd := none, cmdResult := Status.done.code }))
  | _ => .next s

/-! ### The raw bits (R276, R277, R279, R285) -/

/-- Source `n` delivers bit `b`: its tests take it, and so does a capture of this source, or else the entropy input that is being gathered if
the source is healthy and `gathers`. A start-up test is over with the 1,024th bit. -/
def takeBit (starts : BitVec 4) (gathers : Bool) (w : WellRec) (n : Nat) (b : Bool) : WellRec :=
  let m := BitVec.ofNat 4 (2 ^ n)
  let x := srcBit (getSource w n) b
  let w := { w with
    sources := tset {} w.sources n x, inputNow := if x.pos = 1 then w.inputNow &&& ~~~m else w.inputNow
    startPass := if (starts &&& ~~~w.startFail &&& m) ≠ 0 ∧ x.pos = 1024 ∧ x.fail = 0 then w.startPass ||| m else w.startPass }
  if w.cmd = some (.capture n) then
    if w.capCount < 8192 then { w with
      capBits := tmod 0 w.capBits (w.capCount / 8) (fun v => v + BitVec.ofNat 8 (2 ^ (w.capCount % 8) * bit b)), capCount := w.capCount + 1 }
    else w
  else if gathers && w.srcOk.toNat.testBit n && w.input.length < 512 then
    { w with input := w.input ++ [b], inputOf := w.inputOf ||| m, inputNow := w.inputNow ||| m }
  else w

/-- Every source gives a raw bit, a free value, in every tenth control cycle: 50 Mb/s (R276). Entropy input gathers from the healthy sources
while the generator runs (R279). -/
def srcTick (s : State) : State :=
  if s.cycle % 10 ≠ 0 || s.well.zeroed then s
  else
    let starts := startSources s
    let s := upWell s (fun w => (List.range 4).foldl (fun w n => takeBit starts (wellCan s) w n (Config.rawBit (s.free + n))) w)
    drewFree s 4

end Sys2Proof.Machine
end

