-- ==== Sys2Proof/Machine/RegWrite.lean ====
section
/-! DEFINITION. REGISTER_WRITE (R458): a write of a control port to any offset of the window, by the access type of each field, its
width and the mode. A register whose write has a command of its own is written by that command's meaning. -/

namespace Sys2Proof.Machine

/-- A write of 4 bytes, or of 8 bytes to a pair: port, offset (of the low half when wide) and data. -/
structure RegWr where
  port : CtlPort
  off : Nat
  wide : Bool
  data : W64

/-- The written 32-bit word. -/
def wrWord (w : RegWr) : W32 := getHalf w.data false

/-- What a pair holds after the write of one half or both (R455, R456). -/
def wrPair (w : RegWr) (old : W64) : W64 := if w.wide then w.data else setHalf old (w.off % 8 = 4) (wrWord w)

/-- The state after a command that a write starts. -/
def after (s : State) (o : Host.Outcome State Fault Refusal) : State :=
  match o with
  | .next t => t
  | _ => s

/-- The state after a command that the write of a CMD register starts: the record of its refusal holds the word as it was written
(Table 14.6). -/
def ran (s : State) (w : RegWr) (o : Host.Outcome State Fault Refusal) : State :=
  let n := s.ledger.waiting.length
  upLedger (after s o) (fun l => { l with waiting := l.waiting.take n ++ (l.waiting.drop n).map (fun r =>
    if r.type = 0x001 && fld (r.body.getD 0 0) 25 3 = 4 then { r with body := r.body.set 1 (wrWord w) } else r) })

/-- A STOP register (R9, R458): its fields are the bits of `mask`; `set` stores them. -/
def wrStop (s : State) (w : RegWr) (old mask new : W64) (set : W64 → State) : State :=
  if stopWritable s then set (new &&& mask)
  else if old &&& mask = new &&& mask then s
  else regAccess s w.port 1 w.off w.wide w.data

/-- A 32-bit STOP register with fields `mask`. -/
def wrStop32 (s : State) (w : RegWr) (mask : Nat) (set : Nat → State) : State :=
  wrStop s w (w64 (readWord s w.port w.off).toNat) (w64 mask) (w64 (wrWord w).toNat) (fun v => set v.toNat)

/-- A pair of STOP fields. -/
def wrStopPair (s : State) (w : RegWr) (old mask : W64) (set : W64 → State) : State := wrStop s w old mask (wrPair w old) set

/-- A guard (R458): the write is ignored and logged as kind 3, or it lands. -/
def wrGuard (s : State) (w : RegWr) (closed : Bool) (land : State) : State :=
  if closed then regAccess s w.port 3 w.off w.wide w.data else land

/-! ### Unit windows, rings -/

/-- Unit windows: UW_CTRL is written field by field. -/
def wrUnit (s : State) (w : RegWr) (u o : Nat) : State := if o = 0x200 then writeCtrl s w.port u (wrWord w) else s

/-- WS_CMD's operations (Table 2.2). -/
def wrRingCmd (s : State) (w : RegWr) (r : Fin 4096) (op : Nat) : State :=
  match op with
  | 1 => ran s w (execRingStart w.port r s)
  | 2 => ran s w (execRingStop w.port r s)
  | 3 => ran s w (execRingReset w.port r s)
  | _ => s

/-- The guard of a bound ring (R202): a write that changes SPACE, FUNC, PV or PASID leaves them. -/
def wrBound (s : State) (w : RegWr) (r : Nat) (f keep : RingRec → RingRec) (changes : Bool) : State :=
  if (getRing s r).bound && changes then modRing (regAccess s w.port 3 w.off w.wide w.data) r keep else modRing s r f

/-- WS_CFG without SPACE. -/
def ringCfg (v : Nat) (g : RingRec) : RingRec := { g with logSize := BitVec.ofNat 5 v, courier := v.testBit 9 }

/-- Ring windows (Table 2.2). -/
def wrRing (s : State) (w : RegWr) (r o : Nat) : State :=
  let g := getRing s r
  if o = 0x00 then ringBell s r
  else if o = 0x08 ∨ o = 0x0C then
    wrStopPair s w g.base 0xFFFFFFFFFFFFF000 (fun v => modRing s r (fun g => { g with base := v }))
  else if o = 0x10 ∨ o = 0x14 then
    wrStopPair s w g.headAddr 0xFFFFFFFFFFFFFFFC (fun v => modRing s r (fun g => { g with headAddr := v }))
  else match o with
    | 0x18 => wrStop32 s w 0x31F (fun v => wrBound s w r (fun g => { ringCfg v g with spaceLocal := v.testBit 8 }) (ringCfg v)
        (g.spaceLocal != v.testBit 8))
    | 0x20 => wrStop32 s w 0xFFFF (fun v => wrBound s w r (fun g => { g with func := BitVec.ofNat 16 v }) id (decide (g.func.toNat ≠ v)))
    | 0x24 => wrStop32 s w 0x800FFFFF (fun v => wrBound s w r (fun g => { g with pv := v.testBit 31, pasid := BitVec.ofNat 20 v }) id
        (decide (wsPasidWord g ≠ v)))
    | 0x28 => modRing s r (fun g => { g with
        irqEn := tb (wrWord w) 0, irqHoldoff := BitVec.ofNat 8 (fld (wrWord w) 8 8), msgHeld := g.msgHeld && tb (wrWord w) 0 })
    | 0x2C => wrStop32 s w 0x800001FF (fun v => modRing s r (fun g => { g with evtEn := v.testBit 31, evtSrc := BitVec.ofNat 9 v }))
    | 0x30 => wrRingCmd s w (Fin.ofNat 4096 r) (fld (wrWord w) 0 2)
    | _ => s

/-! ### Muster and routes -/

/-- Muster's registers (Table 5.5). -/
def wrMuster (s : State) (w : RegWr) (o : Nat) : State :=
  match o with
  | 0x00 => wrStop32 s w 0x3F01 (fun v => upMuster s (fun m => { m with lagEn := v.testBit 0, stage := BitVec.ofNat 6 (v / 256) }))
  | 0x04 => wrStop32 s w 0xFFFF (fun v => upMuster s (fun m => { m with reserve := BitVec.ofNat 16 v }))
  | 0x08 => wrStop32 s w 0xFFFF (fun v => upMuster s (fun m => { m with
      sharePost := BitVec.ofNat 8 v, shareFreight := BitVec.ofNat 8 (v / 256) }))
  | 0x10 => wrStop32 s w 0x1FFF (fun v => upMuster s (fun m => { m with cbRate := BitVec.ofNat 13 v }))
  | 0x14 => wrStop32 s w 0xFFFFFF (fun v => upMuster s (fun m => { m with cbDepth := BitVec.ofNat 24 v }))
  | 0x18 => wrStop32 s w 0xFFFF (fun v => upMuster s (fun m => { m with cbCharge := BitVec.ofNat 16 v }))
  | 0x30 => wrStop32 s w 0x1FFF (fun v => upMuster s (fun m => { m with roResv := BitVec.ofNat 13 v }))
  | 0x38 => wrStop32 s w 0xFFFF (fun v => upMuster s (fun m => { m with lagFloor := BitVec.ofNat 16 v }))
  | 0x40 => upMuster s (fun m => { m with expSel := BitVec.ofNat 12 (wrWord w).toNat })
  | 0x60 => after s (execLatmaxClear w.port s)
  | _ => s

/-- The route store (Tables 3.3, 3.4), by absolute offset. -/
def wrRoute (s : State) (w : RegWr) : State :=
  let v := wrWord w
  let route := BitVec.ofNat 10 (fld v 0 10)
  if w.off = rtCmd then
    (match fld v 16 2 with
     | 1 => ran s w (execRouteValidate w.port route (BitVec.ofNat 6 (fld v 10 6)) s)
     | 2 => ran s w (execRouteInvalidate w.port route s)
     | _ => s)
  else if 0x220100 ≤ w.off ∧ w.off < 0x260000 then
    let n := (w.off - 0x220000) / 0x100
    let i := w.off % 0x100 / 8
    wrStopPair s w (tget 0 (getRoute s n).slots i) (BitVec.allOnes 64) (fun x => slotSet s n i x)
  else s

/-! ### Serai and Mint -/

/-- The Serai's registers (Table 8.6). -/
def wrSerai (s : State) (w : RegWr) (o : Nat) : State :=
  let v := wrWord w
  let tenant := BitVec.ofNat 12 (fld v 16 12)
  match o with
  | 0x00 => if tb v 1 then upSerai s (fun x => { x with maskLate := false }) else s
  | 0x04 =>
    (match fld v 0 3 with
     | 1 => ran s w (execFlushEntry w.port tenant s)
     | 2 => ran s w (execFlushTenant w.port tenant s)
     | 3 => ran s w (execFlushStale w.port tenant s)
     | 4 => ran s w (execFlushAll w.port s)
     | _ => s)
  | 0x08 => upSerai s (fun x => { x with cmdIndex := BitVec.ofNat 24 v.toNat })
  | 0x60 => after s (execMaskageClear w.port s)
  | 0x70 => after s (execProbeSelect w.port (BitVec.ofNat 15 v.toNat) s)
  | _ => s

/-- The Mint's registers (Table 7.10). -/
def wrMint (s : State) (w : RegWr) (o : Nat) : State :=
  let x := s.mint
  if o = 0x08 ∨ o = 0x0C then
    wrStopPair s w x.tallyAddr 0xFFFFFFFFFFF80000 (fun v => upMint s (fun m => { m with tallyAddr := v }))
  else if o = 0x18 ∨ o = 0x1C then upMint s (fun m => { m with chAddr := wrPair w m.chAddr &&& 0xFFFFFFFFFFFFFFC0 })
  else if o = 0x20 ∧ tb (wrWord w) 0 then ran s w (execCharterGo w.port s)
  else s

/-! ### Counting House, Scales, Well -/

/-- CH_B_CMD's operations (Table 9.7). -/
def wrBenchCmd (s : State) (w : RegWr) (b : Fin 8) (v : W32) : State :=
  let n := BitVec.ofNat 9 (fld v 4 9)
  let e := BitVec.ofNat 9 (fld v 13 9)
  match fld v 0 4 with
  | 1 => ran s w (execDmul w.port b n e s)
  | 2 => ran s w (execDmod w.port b n e s)
  | 3 => ran s w (execModadd w.port b n e s)
  | 4 => ran s w (execModsub w.port b n e s)
  | 5 => ran s w (execModmul w.port b n e s)
  | 6 => ran s w (execModexp w.port b n e s)
  | 7 => ran s w (execModinv w.port b n e s)
  | 15 => ran s w (execAbort w.port b s)
  | _ => s

/-- The bench row's registers (Table 9.9). -/
def wrHouse (s : State) (w : RegWr) (o : Nat) : State :=
  let v := wrWord w
  match o with
  | 0x04 => after s (execDirectSelect w.port v s)
  | 0x08 => wrStop32 s w 0xFFFFFF (fun v => upHouse s (fun h => { h with leaseTtl := BitVec.ofNat 24 v }))
  | 0x3C => upHouse s (fun h => { h with irqDirect := tb v 0, irqQueued := tb v 1 })
  | _ =>
    let b := (o - 0x1000) / 0x100
    if o < 0x1000 ∨ 0x1800 ≤ o then s
    else if o % 0x100 = 0x04 then wrBenchCmd s w (Fin.ofNat 8 b) v
    else if o % 0x100 = 0x08 ∨ o % 0x100 = 0x0C then
      modBench s b (fun x => { x with ops := wrPair w x.ops &&& 0xFFFFFFFFFFFF })
    else s

/-- The Scales' registers (Table 10.7). -/
def wrScales (s : State) (w : RegWr) (o : Nat) : State :=
  let v := wrWord w
  match o with
  | 0x04 => scCfgWrite s w.port v.toNat
  | 0x08 => if fld v 0 4 = 1 then ran s w (execScalesAbort w.port (Fin.ofNat 4 (fld v 8 2)) s) else s
  | 0x2C => upScales s (fun x => { x with irqFault := tb v 0 })
  | _ => s

/-- The Well's registers (Table 11.3). -/
def wrWell (s : State) (w : RegWr) (o : Nat) : State :=
  let v := wrWord w
  match o with
  | 0x04 => wrStop32 s w 0x1FFFFF (fun v => upWell s (fun x => { x with reseedInt := BitVec.ofNat 21 v }))
  | 0x08 =>
    (match fld v 0 2 with
     | 1 => ran s w (execRetest w.port s)
     | 2 => ran s w (execCapture w.port (BitVec.ofNat 2 (fld v 4 2)) s)
     | _ => s)
  | 0x0C => upWell s (fun x => { x with irqEn := tb v 0 })
  | _ => s

/-! ### Tollgate, Porter, Relay -/

/-- A context's configuration word. -/
def tgCfgSet (v : W32) (x : TgCtx) : TgCtx :=
  { x with alg := BitVec.ofNat 8 v.toNat, src := BitVec.ofNat 2 (fld v 8 2), auto := tb v 12, cmpEn := tb v 13, chan := BitVec.ofNat 5 (fld v 16 5) }

/-- Word `k` of a 512-bit value replaced. -/
def setWord512 (x : W512) (k : Nat) (v : W32) : W512 :=
  BitVec.ofNat 512 (x.toNat - fld x (32 * k) 32 * 2 ^ (32 * k) + v.toNat * 2 ^ (32 * k))

/-- One Tollgate context (Table 12.5) under the guards of R296. -/
def wrTgCtx (s : State) (w : RegWr) (c o : Nat) : State :=
  let x := getTg s c
  let v := wrWord w
  let fin := decide (x.state = .finishing)
  if o = 0x00 then wrGuard s w (tgActive x) (modTg s c (tgCfgSet v))
  else if o = 0x08 ∨ o = 0x0C then wrGuard s w (tgActive x) (modTg s c (fun x => { x with wstart := wrPair w x.wstart }))
  else if o = 0x10 ∨ o = 0x14 then wrGuard s w (tgActive x) (modTg s c (fun x => { x with wend := wrPair w x.wend }))
  else if o = 0x20 then
    (match fld v 0 2 with
     | 1 => ran s w (execArm w.port (Fin.ofNat 8 c) s)
     | 2 => ran s w (execFinish w.port (Fin.ofNat 8 c) s)
     | 3 => ran s w (execCancel w.port (Fin.ofNat 8 c) s)
     | _ => s)
  else if o = 0x28 then wrGuard s w fin (modTg s c (fun x => { x with tailLen := BitVec.ofNat 9 v.toNat }))
  else if 0x40 ≤ o ∧ o < 0x80 then wrGuard s w fin (modTg s c (fun x => { x with expect := setWord512 x.expect ((o - 0x40) / 4) v }))
  else if 0x100 ≤ o ∧ o < 0x200 then wrGuard s w fin (modTg s c (fun x => { x with tail := tfill 0 x.tail (o - 0x100) (leBytes 4 v.toNat) }))
  else s

/-- The Tollgate's registers. -/
def wrTollgate (s : State) (w : RegWr) (o : Nat) : State :=
  let v := wrWord w
  if o = 0x00 then (if tb v 8 then upTollgate s (fun t => { t with cleared := false }) else s)
  else if o = 0x04 then upTollgate s (fun t => { t with irqEn := tb v 0 })
  else if 0x1000 ≤ o ∧ o < 0x2000 then wrTgCtx s w ((o - 0x1000) / 0x200) (o % 0x200)
  else s

/-- PT_C_CFG and PT_S_CFG. -/
def ptCfgSet (v : W32) (p : PtSet) : PtSet :=
  { p with mode := BitVec.ofNat 2 v.toNat, pace := tb v 2, arm := tb v 3, en := tb v 4, ledger := tb v 5, ns := tb v 6
           esize := BitVec.ofNat 12 (fld v 16 12) }

/-- A register set of a channel (Table 13.2). -/
def ptSetWr (w : RegWr) (o : Nat) (p : PtSet) : PtSet :=
  let v := wrWord w
  if o = 0x00 ∨ o = 0x04 then { p with src := wrPair w p.src }
  else if o = 0x08 ∨ o = 0x0C then { p with dst := wrPair w p.dst }
  else if o = 0x10 ∨ o = 0x14 then { p with index := wrPair w p.index }
  else if o = 0x18 then { p with len := v }
  else if o = 0x1C then { p with step := BitVec.ofNat 17 v.toNat }
  else if o = 0x20 then ptCfgSet v p
  else p

/-- A channel's window: the active set is closed while a transfer runs (R308). -/
def wrChan (s : State) (w : RegWr) (n o : Nat) : State :=
  if (rdPtSet {} (o % 0x80)).isNone then s
  else if 0x80 ≤ o then modChan (if ptFinished s n then ptComplete s n else s) n (fun c => { c with shadow := ptSetWr w (o % 0x80) c.shadow })
  else wrGuard s w (getChan s n).xfer.isSome (modChan s n (fun c => { c with act := ptSetWr w o c.act }))

/-- Porter's registers. -/
def wrPorter (s : State) (w : RegWr) (o : Nat) : State :=
  let v := wrWord w
  if o < 0x2000 then wrChan s w (o / 0x100) (o % 0x100)
  else match o with
    | 0x2004 => if fld v 0 2 = 1 then ran s w (execResume w.port s) else s
    | 0x2010 => wrStop32 s w 0x3FF (fun v => upPorter s (fun q => { q with maxRd := BitVec.ofNat 10 v }))
    | 0x2014 => upPorter s (fun q => { q with irqEn := tb v 0 })
    | _ => s

/-- One sink (Table 13.8): TARGET is RSV outside the synthesisers. -/
def wrSink (s : State) (w : RegWr) (k o : Nat) : State :=
  let v := wrWord w
  match o with
  | 0x0 => wrStop32 s w 0x83FF83FF (fun v => modSink s k (fun x => { x with
      srcA := BitVec.ofNat 10 v, enA := v.testBit 15, srcB := BitVec.ofNat 10 (v / 65536), enB := v.testBit 31 }))
  | 0x4 => if tb v 16 then modSink s k (fun x => { x with ovf := false }) else s
  | 0x8 =>
    (match fld v 0 2 with
     | 1 => ran s w (execFire w.port (Fin.ofNat 512 k) (BitVec.ofNat 16 (fld v 16 16)) s)
     | 2 => ran s w (execClear w.port (Fin.ofNat 512 k) s)
     | _ => s)
  | _ =>
    if 32 ≤ k ∧ k < 96 then
      wrStop32 s w 0x80000FFF (fun v => modSink s k (fun x => { x with ring := BitVec.ofNat 12 v, en := v.testBit 31 }))
    else s

/-- A timer's setting changes: a running BASE 1 timer takes the next target of its new setting. -/
def timerSet (s : State) (t : Nat) (f : TimerRec → TimerRec) : State :=
  modTimer s t (fun x => if x.running && (f x).base && f x ≠ x then timerAim s (f x) else f x)

/-- One timer (Table 13.8). -/
def wrTimer (s : State) (w : RegWr) (t o : Nat) : State :=
  let v := wrWord w
  if o = 0x10 ∨ o = 0x14 then
    wrStopPair s w ((getTimer s t).startSec.setWidth 64) 0xFFFFFFFFFFFF (fun v => timerSet s t (fun x => { x with startSec := v.setWidth 48 }))
  else match o with
    | 0x00 => wrStop32 s w 3 (fun v => timerSet s t (fun x => { x with base := v.testBit 0, periodic := v.testBit 1 }))
    | 0x04 =>
      (match fld v 0 2 with
       | 1 => ran s w (execTimerStart w.port (Fin.ofNat 32 t) s)
       | 2 => ran s w (execTimerStop w.port (Fin.ofNat 32 t) s)
       | _ => s)
    | 0x08 => wrStop32 s w 0xFFFFFFFF (fun v => timerSet s t (fun x => { x with period := w32 v }))
    | 0x0C => wrStop32 s w 0xFFFF (fun v => timerSet s t (fun x => { x with frac := BitVec.ofNat 16 v }))
    | 0x18 => wrStop32 s w 0x3FFFFFFF (fun v => timerSet s t (fun x => { x with startNs := BitVec.ofNat 30 v }))
    | 0x1C => wrStop32 s w 0xFFFFFFFF (fun v => modTimer s t (fun x => { x with limit := w32 v }))
    | _ => s

/-- The Relay's registers: a written 1 clears RL_SEEN and OVF bits. -/
def wrRelay (s : State) (w : RegWr) (o : Nat) : State :=
  let v := wrWord w
  if o = 0x00 then (if tb v 0 then upRelay s (fun r => { r with ovf := false }) else s)
  else if o = 0x04 then upRelay s (fun r => { r with irqEn := tb v 0 })
  else if 0x100 ≤ o ∧ o < 0x180 then
    upRelay s (fun r => { r with seen := r.seen.filter (fun kv =>
      !(decide (8 * (o - 0x100) ≤ kv.1) && decide (kv.1 < 8 * (o - 0x100) + 32) && tb v (kv.1 - 8 * (o - 0x100)))) })
  else if 0x1000 ≤ o ∧ o < 0x3000 then
    (if hasSink ((o - 0x1000) / 0x10) then wrSink s w ((o - 0x1000) / 0x10) (o % 0x10) else s)
  else if 0x4000 ≤ o ∧ o < 0x4800 then wrTimer s w ((o - 0x4000) / 0x40) (o % 0x40)
  else s

/-! ### Almanac and Ledger -/

/-- AL_CFG: WLOCK is never cleared by a write (R328), and DISC = 0 frees the Almanac (R332). -/
def alCfgSet (s : State) (v : Nat) : State :=
  discOff (upAlmanac s (fun a => { a with
    disc := v.testBit 0, wlock := a.wlock || v.testBit 1, stepUs := BitVec.ofNat 9 (v / 16), lockNs := BitVec.ofNat 10 (v / 65536) }))

/-- One alarm: its time is closed while EN = 1 (R334). -/
def wrAlarm (s : State) (w : RegWr) (k o : Nat) : State :=
  let x := getAlarm s k
  let v := wrWord w
  if o < 0x8 then
    wrGuard s w x.en (modAlarm s k (fun x => { x with sec := (wrPair w (x.sec.setWidth 64)).setWidth 48 }))
  else if o = 0x8 then wrGuard s w x.en (modAlarm s k (fun x => { x with ns := BitVec.ofNat 30 v.toNat }))
  else modAlarm s k (fun x => { x with en := tb v 0, fired := x.fired && !tb v 1 })

/-- The Almanac's registers (Table 14.3). -/
def wrAlmanac (s : State) (w : RegWr) (o : Nat) : State :=
  let v := wrWord w
  if o = 0x10 ∨ o = 0x14 then
    after s (execSecStage w.port (if w.wide then .both else if o = 0x10 then .low else .high) w.data s)
  else if o = 0x30 ∨ o = 0x34 then
    wrStopPair s w s.almanac.hbAddr 0xFFFFFFFFFFFFFFF8 (fun v => upAlmanac s (fun a => { a with hbAddr := v }))
  else match o with
    | 0x04 => wrStop32 s w 0x03FF1FF3 (alCfgSet s)
    | 0x08 => after s (execNsecWrite w.port v s)
    | 0x20 => wrStop32 s w 0xFFFF (fun v => upAlmanac s (fun a => { a with holdMax := BitVec.ofNat 16 v }))
    | 0x38 => wrStop32 s w 1 (fun v => upAlmanac s (fun a => { a with hbEn := v.testBit 0 }))
    | 0x40 => upAlmanac s (fun a => { a with irqEn := tb v 0 })
    | _ => if 0x100 ≤ o ∧ o < 0x200 then wrAlarm s w ((o - 0x100) / 0x10) (o % 0x10) else s

/-- The Ledger's registers (Table 14.8). -/
def wrLedger (s : State) (w : RegWr) (o : Nat) : State :=
  let v := wrWord w
  match o with
  | 0x40 => upLedger s (fun l => { l with ovf := l.ovf && !tb v 27, ue := l.ue && !tb v 28 })
  | 0x44 => upLedger s (fun l => { l with hiwat := BitVec.ofNat 10 v.toNat })
  | 0x48 => upLedger s (fun l => { l with irqAvail := tb v 0, irqHiwat := tb v 1, irqDrop := tb v 2 })
  | _ => s

/-! ### Adapter interface, modes -/

/-- The adapter interface's registers (Table 15.10). -/
def wrAdapter (s : State) (w : RegWr) (o : Nat) : State :=
  let v := wrWord w
  match o with
  | 0x04 => wrStop32 s w 0xFF0701 (fun v => upAi s (fun a => { a with
      ats := v.testBit 0, resvCrd := BitVec.ofNat 3 (v / 256), resvTags := BitVec.ofNat 8 (v / 65536) }))
  | 0x08 => wrStop32 s w 0x1FFFF (fun v => upAi s (fun a => { a with cplTo := BitVec.ofNat 17 v }))
  | 0x0C => wrStop32 s w 0xFFFFFFFF (fun v => ltrRefresh (upAi s (fun a => { a with
      ltrActive := BitVec.ofNat 16 v, ltrIdle := BitVec.ofNat 16 (v / 65536) })))
  | 0x10 => wrStop32 s w 0xFFFF (fun v => upAi s (fun a => { a with ltrIdleUs := BitVec.ofNat 16 v }))
  | 0x14 => upAi s (fun a => { a with irqLink := tb v 0 })
  | 0x18 =>
    (match fld v 0 2 with
     | 1 => ran s w (execInvalidateAll w.port s)
     | 2 => ran s w (execInvalidateFunc w.port (BitVec.ofNat 16 (fld v 16 16)) s)
     | _ => s)
  | _ => s

/-- MD_CMD's operations (Table 16.10): another OP is refused with ENCODING, to the holder of the reins. -/
def wrModeCmd (s : State) (w : RegWr) (v : W32) : State :=
  match fld v 0 4 with
  | 1 => ran s w (execService w.port s)
  | 2 => ran s w (execProvision w.port s)
  | 3 => ran s w (execRecover w.port (BitVec.ofNat 2 (fld v 4 2)) (BitVec.ofNat 2 (fld v 6 2)) (tb v 8) (tb v 9) (tb v 10) s)
  | 4 => ran s w (execReset w.port s)
  | _ => mdRefuse s w.port (if holdsReins s w.port then .encoding else .notReins) v.toNat

/-- The Mode controller's registers. -/
def wrMode (s : State) (w : RegWr) (o : Nat) : State :=
  let v := wrWord w
  match o with
  | 0x04 => wrModeCmd s w v
  | 0x10 => after s (execReinsClaim w.port v s)
  | 0x14 => after s (execReinsRelease w.port v s)
  | 0x18 => wrStop32 s w 0x1FFFF (fun v => upMode s (fun m => { m with drainUs := BitVec.ofNat 16 v, autoStr := v.testBit 16 }))
  | 0x2C => upMode s (fun m => { m with irqMode := tb v 0, irqCont := tb v 1 })
  | _ => s

/-! ### Fuses, Safe-conduct, Watchman, Ration -/

/-- FZ_CMD's operations (Table 17.4). -/
def wrFuseCmd (s : State) (w : RegWr) (v : W32) : State :=
  match fld v 0 3 with
  | 1 => ran s w (execProgram w.port (BitVec.ofNat 9 (fld v 16 9)) (tb v 3) s)
  | 2 => ran s w (execGenroot w.port s)
  | 3 => ran s w (execLockSecret w.port s)
  | 4 => ran s w (execOwnerhash w.port (tb v 3) s)
  | 5 => ran s w (execLockOwner w.port s)
  | 6 => ran s w (execRetire w.port s)
  | _ => s

/-- The Fuse controller's and Safe-conduct's registers (Table 17.13). -/
def wrFuse (s : State) (w : RegWr) (o : Nat) : State :=
  let v := wrWord w
  if o = 0x2008 ∨ o = 0x200C then
    wrStopPair s w s.safe.storeAddr 0xFFFFFFFFFFFFF000 (fun v => upSafe s (fun x => { x with storeAddr := v }))
  else if o = 0x2010 ∨ o = 0x2014 then upSafe s (fun x => { x with attAddr := wrPair w x.attAddr &&& 0xFFFFFFFFFFFFFFC0 })
  else if 0x1010 ≤ o ∧ o < 0x1040 then
    upFuse s (fun f => { f with ownData := (setWord512 (f.ownData.setWidth 512) ((o - 0x1010) / 4) v).setWidth 384 })
  else if 0x2020 ≤ o ∧ o < 0x2040 then
    upSafe s (fun x => { x with attNonce := (setWord512 (x.attNonce.setWidth 512) ((o - 0x2020) / 4) v).setWidth 256 })
  else match o with
    | 0x1004 => wrFuseCmd s w v
    | 0x1008 => upFuse s (fun f => { f with pdata := v })
    | 0x2004 =>
      (match fld v 0 2 with
       | 1 => ran s w (execPublish w.port s)
       | 2 => ran s w (execAttest w.port (BitVec.ofNat 5 (fld v 8 5)) s)
       | _ => s)
    | _ => s

/-- The Watchman's registers: WT_CFG is closed once LOCK is set (R421). -/
def wrWatch (s : State) (w : RegWr) (o : Nat) : State :=
  let v := wrWord w
  match o with
  | 0x00 => if tb v 5 then upWatch s (fun x => { x with cleared := false }) else s
  | 0x04 => wrGuard s w s.watch.aon.lock (wrStop s w (w64 (wtCfgWord s.watch.aon)) 0x10F (w64 (wrWord w).toNat)
      (fun v => upWatch s (fun x => { x with act := BitVec.ofNat 4 v.toNat, lock := tb v 8 })))
  | 0x08 => if fld v 0 2 = 1 then ran s w (execLogclear w.port s) else s
  | 0x0C => upWatch s (fun x => { x with irqEn := tb v 0 })
  | _ => s

/-- Ration's registers (Table 18.9). -/
def wrRation (s : State) (w : RegWr) (o : Nat) : State :=
  let v := wrWord w
  match o with
  | 0x04 => upRation s (fun r => { r with budget := BitVec.ofNat 9 v.toNat })
  | 0x08 => wrStop32 s w 7 (fun v => upRation s (fun r => { r with auto := BitVec.ofNat 3 v }))
  | 0x0C => wrStop32 s w 0xFFFF (fun v => upRation s (fun r => { r with idleUs := BitVec.ofNat 16 v }))
  | 0x10 => wrStop32 s w 0xFFFF (fun v => upRation s (fun r => { r with drainUs := BitVec.ofNat 16 v }))
  | 0x14 => wrStop32 s w 0xFF (fun v => upRation s (fun r => { r with pwrTo := BitVec.ofNat 8 v }))
  | 0x18 =>
    (match fld v 0 2 with
     | 1 => ran s w (execUngate w.port (BitVec.ofNat 2 (fld v 4 2)) s)
     | 2 => ran s w (execGate w.port (BitVec.ofNat 2 (fld v 4 2)) s)
     | _ => s)
  | 0x2C => upRation s (fun r => { r with irqThr := tb v 0, irqGate := tb v 1, irqFault := tb v 2 })
  | 0x38 => after s (execEstMaxClear w.port s)
  | _ => s

/-! ### The window -/

/-- A write of 4 bytes, or of a whole pair. -/
def writeWord (s : State) (w : RegWr) : State :=
  let off := w.off
  if off < 0x020000 then wrUnit s w (off / 0x1000) (off % 0x1000)
  else if off < 0x100000 then s
  else if off < 0x200000 then wrRing s w ((off - 0x100000) / 0x100) (off % 0x100)
  else if off < 0x21F000 then wrMuster s w (off - 0x200000)
  else if off < 0x260000 then wrRoute s w
  else if off < 0x300000 then s
  else if off < 0x380000 then wrSerai s w (off - 0x300000)
  else if off < 0x400000 then wrMint s w (off - 0x380000)
  else if off < 0x480000 then s
  else if off < 0x500000 then wrHouse s w (off - 0x480000)
  else if off < 0x580000 then wrScales s w (off - 0x500000)
  else if off < 0x600000 then wrWell s w (off - 0x580000)
  else if off < 0x700000 then wrTollgate s w (off - 0x600000)
  else if off < 0x780000 then wrPorter s w (off - 0x700000)
  else if off < 0x7C0000 then wrRelay s w (off - 0x780000)
  else if off < 0x7D0000 then wrAlmanac s w (off - 0x7C0000)
  else if off < 0x800000 then wrLedger s w (off - 0x7D0000)
  else if off < 0x900000 then wrAdapter s w (off - 0x800000)
  else if off < 0xA00000 then wrMode s w (off - 0x900000)
  else if off < 0xB00000 then wrFuse s w (off - 0xA00000)
  else if off < 0xC00000 then wrWatch s w (off - 0xB00000)
  else if off < 0xD00000 then wrRation s w (off - 0xC00000)
  else s

/-! ### Writes of both ports in one control cycle (R460, Table 19.2) -/

/-- Registers where both writes apply (doorbells, W1C bits, what a port stages for itself) or that have rules of their own (charter GO,
MD_CMD and the reins, AL_NSEC). -/
def bothWrite (off : Nat) : Bool :=
  (0x100000 ≤ off && off < 0x200000 && off % 0x100 < 8) ||
  [0x300000, 0x380020, 0x600000, 0x780000, 0x7C0008, 0x7C0010, 0x7C0014, 0x7D0040, 0x900004, 0x900010, 0x900014, 0xB00000].contains off ||
  (0x780100 ≤ off && off < 0x780180) || (0x781000 ≤ off && off < 0x783000 && off % 0x10 = 0x4)

/-- The other CMD registers (Table 19.7). -/
def isCmdReg (off : Nat) : Bool :=
  (0x100000 ≤ off && off < 0x200000 && off % 0x100 = 0x30) || (0x481000 ≤ off && off < 0x481800 && off % 0x100 = 0x04) ||
  (0x601000 ≤ off && off < 0x602000 && off % 0x200 = 0x20) || (0x781000 ≤ off && off < 0x783000 && off % 0x10 = 0x8) ||
  (0x784000 ≤ off && off < 0x784800 && off % 0x40 = 0x04) ||
  [rtCmd, 0x300004, 0x500008, 0x580008, 0x702004, 0x800018, fzCmd, sfCmd, wtCmd, raCmd].contains off

/-- The write names an operation of its CMD register (R458: an OP without a defined effect does nothing). -/
def cmdOp (w : RegWr) : Bool :=
  let off := w.off
  let op := fun (bits last : Nat) => decide (1 ≤ fld (wrWord w) 0 bits) && decide (fld (wrWord w) 0 bits ≤ last)
  if off < 0x200000 then op 2 3
  else if off = rtCmd then decide (fld (wrWord w) 16 2 = 1) || decide (fld (wrWord w) 16 2 = 2)
  else if off = serCmd then op 3 4
  else if off < 0x500000 then op 4 7 || decide (fld (wrWord w) 0 4 = 15)
  else if off = scCmd then op 4 1
  else if off < 0x600000 then op 2 2
  else if off < 0x700000 then op 2 3
  else if off < 0x780000 then op 2 1
  else if off < 0x783000 then hasSink ((off - 0x781000) / 0x10) && op 2 2
  else if off = fzCmd then op 3 6
  else if off = wtCmd then op 2 1
  else op 2 2

/-- Registers that any write sets to 0. -/
def zeroedByWrite (off : Nat) : Bool := [0x200060, 0x300060, 0xC00038].contains off

/-- The write acts on its register: any write of it does, or this one or one of the other bits leaves another state. -/
def wrTouches (s : State) (w : RegWr) : Bool :=
  zeroedByWrite w.off || decide (writeWord s w ≠ s) || decide (writeWord s { w with data := ~~~w.data } ≠ s)

/-- The host port's write of a register that the sideband port has written in the same control cycle: of a CMD register it is refused
without a change of RESULT, and of RW and STOP fields it is ignored and logged as kind 3. Of an alarm's control its W1C bit applies. -/
def hostSecond (s : State) (w : RegWr) : State :=
  if isCmdReg w.off then (if cmdOp w then refuseCmd s .host w.off .accessFault (wrWord w).toNat else s)
  else if !wrTouches s w then s
  else
    let s := regAccess s .host 3 w.off w.wide w.data
    if 0x7C0100 ≤ w.off ∧ w.off < 0x7C0200 ∧ w.off % 0x10 = 0xC then
      modAlarm s ((w.off - 0x7C0100) / 0x10) (fun x => { x with fired := x.fired && !tb (wrWord w) 1 })
    else s

/-- A write of a word or a pair, with the other port's of the same control cycle. -/
def applyWord (s : State) (w : RegWr) : State :=
  if sideMeets s w.port w.off (if w.wide then 8 else 4) && !bothWrite w.off then hostSecond s w else writeWord s w

/-- WS_DOORBELL's bytes: a write of any width to them is one doorbell (R454). -/
def isDoorbell (off : Nat) : Bool := 0x100000 ≤ off && off < 0x200000 && off % 0x100 < 4

/-- A write of 1 or 2 bytes: ignored, and logged at a defined register with the bytes in their lanes (R454). -/
def writeNarrow (s : State) (p : CtlPort) (off n : Nat) (data : W64) : State :=
  if (regWord s p (off / 4 * 4)).isSome then
    regAccess s p 2 off false (w64 (data.toNat % 256 ^ n * 256 ^ (off % 4)))
  else s

/-- A write that the port accepts (R450, R454 to R458). -/
def writeReg (s : State) (p : CtlPort) (off : Nat) (z : AccSize) (data : W64) : State :=
  let n := accBytes z
  if 0x400000 ≤ off ∧ off < 0x480000 then
    after s (execOperandMemoryWrite p (Fin.ofNat 8 ((off - 0x400000) / 0x10000)) (BitVec.ofNat 16 off) z data s)
  else if n < 4 then
    if isDoorbell off then ringBell s ((off - 0x100000) / 0x100) else writeNarrow s p off n data
  else if n = 8 then
    if isPair off then applyWord s { port := p, off := off, wide := true, data := data }
    else
      let s := applyWord s { port := p, off := off, wide := false, data := w64 (data.toNat % 2 ^ 32) }
      applyWord s { port := p, off := off + 4, wide := false, data := w64 (data.toNat / 2 ^ 32) }
  else applyWord s { port := p, off := off, wide := false, data := w64 (data.toNat % 2 ^ 32) }

/-- REGISTER_WRITE (R452, R458, R461): an unaligned access, and one that the mode does not serve, receives an error response and has
no effect. In Cleared the sideband port's RESET alone is served (Table 19.3). -/
def execRegisterWrite (p : CtlPort) (offset : BitVec 24) (size : AccSize) (data : W64) (s : State) :
    Host.Outcome State Fault Refusal :=
  let off := offset.toNat
  let n := accBytes size
  if !portThere s then .next s
  else if off % n ≠ 0 then .next (respond s p true)
  else if served s then
    let lands := if n < 4 && !(0x400000 ≤ off && off < 0x480000) then 0 else n
    .next (writeReg (noteSide (respond s p false) p off lands) p off size data)
  else if off = mdCmd && size = .b4 && fld data 0 4 = 4 then .next (after s (execReset p s))
  else .next (respond s p true)

end Sys2Proof.Machine
end

