-- ==== Sys2Proof/Machine/Dispatch.lean ====
section
/-! DEFINITION. The dispatch: one arm for each command, each a direct call of its meaning. -/

namespace Sys2Proof.Machine

/-- The effect of a command on everything but the queue. -/
def exec (i : Instr) (s : State) : Host.Outcome State Fault Refusal :=
  match i with
  | .blockReset => Sys2Proof.Machine.execBlockReset s
  | .pllLock => Sys2Proof.Machine.execPllLock s
  | .pllLockLost => Sys2Proof.Machine.execPllLockLost s
  | .fuseSense => Sys2Proof.Machine.execFuseSense s
  | .selfCheckDone us certsOk => Sys2Proof.Machine.execSelfCheckDone us certsOk s
  | .icResetAssert => Sys2Proof.Machine.execIcResetAssert s
  | .icResetRelease => Sys2Proof.Machine.execIcResetRelease s
  | .aonReset => Sys2Proof.Machine.execAonReset s
  | .freeze => Sys2Proof.Machine.execFreeze s
  | .linkLost => Sys2Proof.Machine.execLinkLost s
  | .linkReturned => Sys2Proof.Machine.execLinkReturned s
  | .functionLevelReset func => Sys2Proof.Machine.execFunctionLevelReset func s
  | .invalidationRequest itag func pv pasid global range => Sys2Proof.Machine.execInvalidationRequest itag func pv pasid global range s
  | .invalidationDone itag => Sys2Proof.Machine.execInvalidationDone itag s
  | .translationCompletion tag status r w logSize addr => Sys2Proof.Machine.execTranslationCompletion tag status r w logSize addr s
  | .readResponse port tag beat last status data => Sys2Proof.Machine.execReadResponse port tag beat last status data s
  | .writeAcknowledgement port tag status => Sys2Proof.Machine.execWriteAcknowledgement port tag status s
  | .creditGrant port writeData => Sys2Proof.Machine.execCreditGrant port writeData s
  | .interruptTaken => Sys2Proof.Machine.execInterruptTaken s
  | .adapterEventInput line => Sys2Proof.Machine.execAdapterEventInput line s
  | .ppsEdge tod todValid => Sys2Proof.Machine.execPpsEdge tod todValid s
  | .thermalAlarm => Sys2Proof.Machine.execThermalAlarm s
  | .thermalAlarmFall => Sys2Proof.Machine.execThermalAlarmFall s
  | .thermalThrottleClear => Sys2Proof.Machine.execThermalThrottleClear s
  | .zeroize => Sys2Proof.Machine.execZeroize s
  | .tamperInput input => Sys2Proof.Machine.execTamperInput input s
  | .powerAck domain => Sys2Proof.Machine.execPowerAck domain s
  | .icClockStopped => Sys2Proof.Machine.execIcClockStopped s
  | .doorbell p ring => Sys2Proof.Machine.execDoorbell p ring s
  | .scanStart ring => Sys2Proof.Machine.execScanStart ring s
  | .scanResume ring => Sys2Proof.Machine.execScanResume ring s
  | .slotAvailable ring => Sys2Proof.Machine.execSlotAvailable ring s
  | .ringStart p ring => Sys2Proof.Machine.execRingStart p ring s
  | .ringStop p ring => Sys2Proof.Machine.execRingStop p ring s
  | .ringReset p ring => Sys2Proof.Machine.execRingReset p ring s
  | .ringResetComplete ring => Sys2Proof.Machine.execRingResetComplete ring s
  | .routeValidate p route rlen => Sys2Proof.Machine.execRouteValidate p route rlen s
  | .validateComplete => Sys2Proof.Machine.execValidateComplete s
  | .routeInvalidate p route => Sys2Proof.Machine.execRouteInvalidate p route s
  | .routeSlotWrite p route slot insn => Sys2Proof.Machine.execRouteSlotWrite p route slot insn s
  | .quarantineSet p unit => Sys2Proof.Machine.execQuarantineSet p unit s
  | .quarantineRelease p unit => Sys2Proof.Machine.execQuarantineRelease p unit s
  | .enableWrite p unit enable => Sys2Proof.Machine.execEnableWrite p unit enable s
  | .latmaxClear p => Sys2Proof.Machine.execLatmaxClear p s
  | .maskageClear p => Sys2Proof.Machine.execMaskageClear p s
  | .estMaxClear p => Sys2Proof.Machine.execEstMaxClear p s
  | .charterGo p => Sys2Proof.Machine.execCharterGo p s
  | .charterDone => Sys2Proof.Machine.execCharterDone s
  | .flushEntry p tenant => Sys2Proof.Machine.execFlushEntry p tenant s
  | .flushTenant p tenant => Sys2Proof.Machine.execFlushTenant p tenant s
  | .flushStale p tenant => Sys2Proof.Machine.execFlushStale p tenant s
  | .flushAll p => Sys2Proof.Machine.execFlushAll p s
  | .flushWalkDone => Sys2Proof.Machine.execFlushWalkDone s
  | .probeSelect p slot => Sys2Proof.Machine.execProbeSelect p slot s
  | .dmul p bench nlen elen => Sys2Proof.Machine.execDmul p bench nlen elen s
  | .dmod p bench nlen elen => Sys2Proof.Machine.execDmod p bench nlen elen s
  | .modadd p bench nlen elen => Sys2Proof.Machine.execModadd p bench nlen elen s
  | .modsub p bench nlen elen => Sys2Proof.Machine.execModsub p bench nlen elen s
  | .modmul p bench nlen elen => Sys2Proof.Machine.execModmul p bench nlen elen s
  | .modexp p bench nlen elen => Sys2Proof.Machine.execModexp p bench nlen elen s
  | .modinv p bench nlen elen => Sys2Proof.Machine.execModinv p bench nlen elen s
  | .abort p bench => Sys2Proof.Machine.execAbort p bench s
  | .directOpDone bench => Sys2Proof.Machine.execDirectOpDone bench s
  | .directSelect p cfg => Sys2Proof.Machine.execDirectSelect p cfg s
  | .operandMemoryWrite p bench offset size data => Sys2Proof.Machine.execOperandMemoryWrite p bench offset size data s
  | .scalesAbort p ctx => Sys2Proof.Machine.execScalesAbort p ctx s
  | .contextRetest p ctx => Sys2Proof.Machine.execContextRetest p ctx s
  | .retest p => Sys2Proof.Machine.execRetest p s
  | .wellStartupDone pass katPass => Sys2Proof.Machine.execWellStartupDone pass katPass s
  | .capture p source => Sys2Proof.Machine.execCapture p source s
  | .captureDone => Sys2Proof.Machine.execCaptureDone s
  | .arm p ctx => Sys2Proof.Machine.execArm p ctx s
  | .finish p ctx => Sys2Proof.Machine.execFinish p ctx s
  | .cancel p ctx => Sys2Proof.Machine.execCancel p ctx s
  | .tollgateFinishDone ctx => Sys2Proof.Machine.execTollgateFinishDone ctx s
  | .resume p => Sys2Proof.Machine.execResume p s
  | .fire p sink n => Sys2Proof.Machine.execFire p sink n s
  | .clear p sink => Sys2Proof.Machine.execClear p sink s
  | .timerStart p timer => Sys2Proof.Machine.execTimerStart p timer s
  | .timerStop p timer => Sys2Proof.Machine.execTimerStop p timer s
  | .secStage p half data => Sys2Proof.Machine.execSecStage p half data s
  | .nsecWrite p data => Sys2Proof.Machine.execNsecWrite p data s
  | .nsecRead p byte size => Sys2Proof.Machine.execNsecRead p byte size s
  | .ledgerDataRead p size => Sys2Proof.Machine.execLedgerDataRead p size s
  | .invalidateAll p => Sys2Proof.Machine.execInvalidateAll p s
  | .invalidateFunc p func => Sys2Proof.Machine.execInvalidateFunc p func s
  | .service p => Sys2Proof.Machine.execService p s
  | .provision p => Sys2Proof.Machine.execProvision p s
  | .drainComplete => Sys2Proof.Machine.execDrainComplete s
  | .drainTimeout => Sys2Proof.Machine.execDrainTimeout s
  | .recover p scope string flush rlclr target => Sys2Proof.Machine.execRecover p scope string flush rlclr target s
  | .recoveryStep => Sys2Proof.Machine.execRecoveryStep s
  | .autoStringRecovery string => Sys2Proof.Machine.execAutoStringRecovery string s
  | .reset p => Sys2Proof.Machine.execReset p s
  | .reinsClaim p nonce => Sys2Proof.Machine.execReinsClaim p nonce s
  | .reinsRelease p nonce => Sys2Proof.Machine.execReinsRelease p nonce s
  | .program p word acc => Sys2Proof.Machine.execProgram p word acc s
  | .genroot p => Sys2Proof.Machine.execGenroot p s
  | .lockSecret p => Sys2Proof.Machine.execLockSecret p s
  | .ownerhash p acc => Sys2Proof.Machine.execOwnerhash p acc s
  | .lockOwner p => Sys2Proof.Machine.execLockOwner p s
  | .retire p => Sys2Proof.Machine.execRetire p s
  | .fuseCommandDone stuck => Sys2Proof.Machine.execFuseCommandDone stuck s
  | .publish p => Sys2Proof.Machine.execPublish p s
  | .publishDone => Sys2Proof.Machine.execPublishDone s
  | .attest p unit => Sys2Proof.Machine.execAttest p unit s
  | .attestDone => Sys2Proof.Machine.execAttestDone s
  | .logclear p => Sys2Proof.Machine.execLogclear p s
  | .ungate p domain => Sys2Proof.Machine.execUngate p domain s
  | .gate p domain => Sys2Proof.Machine.execGate p domain s
  | .registerWrite p offset size data => Sys2Proof.Machine.execRegisterWrite p offset size data s
  | .epochEnd => Sys2Proof.Machine.execEpochEnd s
  | .timerFire timer => Sys2Proof.Machine.execTimerFire timer s
  | .alarmFire alarm => Sys2Proof.Machine.execAlarmFire alarm s
  | .secondRollover => Sys2Proof.Machine.execSecondRollover s
  | .almanacSnapshot => Sys2Proof.Machine.execAlmanacSnapshot s
  | .holdover => Sys2Proof.Machine.execHoldover s
  | .holdoverExpiry => Sys2Proof.Machine.execHoldoverExpiry s
  | .heartbeat => Sys2Proof.Machine.execHeartbeat s
  | .completionTimeout port write tag => Sys2Proof.Machine.execCompletionTimeout port write tag s
  | .tagQuarantineEnd port write tag => Sys2Proof.Machine.execTagQuarantineEnd port write tag s
  | .leaseExpiry bench cell => Sys2Proof.Machine.execLeaseExpiry bench cell s
  | .remaskGroup => Sys2Proof.Machine.execRemaskGroup s
  | .maskAged group => Sys2Proof.Machine.execMaskAged group s
  | .laggard lane => Sys2Proof.Machine.execLaggard lane s
  | .sequencerWatchdog lane => Sys2Proof.Machine.execSequencerWatchdog lane s
  | .fatalLaneFault lane row => Sys2Proof.Machine.execFatalLaneFault lane row s
  | .uncorrectableError array index unit => Sys2Proof.Machine.execUncorrectableError array index unit s
  | .slotUncorrectable slot => Sys2Proof.Machine.execSlotUncorrectable slot s
  | .benchFault bench parity => Sys2Proof.Machine.execBenchFault bench parity s
  | .scalesFault ctx parity => Sys2Proof.Machine.execScalesFault ctx parity s
  | .healthTestFail source test => Sys2Proof.Machine.execHealthTestFail source test s
  | .reseed => Sys2Proof.Machine.execReseed s
  | .wellGrant => Sys2Proof.Machine.execWellGrant s
  | .drainStart domain => Sys2Proof.Machine.execDrainStart domain s
  | .drainCancelled domain => Sys2Proof.Machine.execDrainCancelled domain s
  | .domainGated domain => Sys2Proof.Machine.execDomainGated domain s
  | .trainWake train => Sys2Proof.Machine.execTrainWake train s
  | .powerSwitchFault domain gating => Sys2Proof.Machine.execPowerSwitchFault domain gating s
  | .laneKatDone lane pass => Sys2Proof.Machine.execLaneKatDone lane pass s
  | .benchKatDone bench pass => Sys2Proof.Machine.execBenchKatDone bench pass s
  | .contextKatDone ctx pass => Sys2Proof.Machine.execContextKatDone ctx pass s
  | .holdoffExpiry ring => Sys2Proof.Machine.execHoldoffExpiry ring s
  | .ltrIdle => Sys2Proof.Machine.execLtrIdle s
  | .shareWindowEnd => Sys2Proof.Machine.execShareWindowEnd s
  | .admission => Sys2Proof.Machine.execAdmission s
  | .courierPlacement => Sys2Proof.Machine.execCourierPlacement s
  | .placement => Sys2Proof.Machine.execPlacement s
  | .preemptionSave lane => Sys2Proof.Machine.execPreemptionSave lane s
  | .resumption lane => Sys2Proof.Machine.execResumption lane s
  | .preparation lane cmp => Sys2Proof.Machine.execPreparation lane cmp s
  | .setup lane => Sys2Proof.Machine.execSetup lane s
  | .jobStart lane => Sys2Proof.Machine.execJobStart lane s
  | .key lane cmp => Sys2Proof.Machine.execKey lane cmp s
  | .put lane cmp => Sys2Proof.Machine.execPut lane cmp s
  | .mintFill fill => Sys2Proof.Machine.execMintFill fill s
  | .derive lane cmp => Sys2Proof.Machine.execDerive lane cmp s
  | .streamLoad lane cmp => Sys2Proof.Machine.execStreamLoad lane cmp s
  | .streamSave lane cmp => Sys2Proof.Machine.execStreamSave lane cmp s
  | .streamUpdate lane cmp => Sys2Proof.Machine.execStreamUpdate lane cmp s
  | .seal lane cmp => Sys2Proof.Machine.execSeal lane cmp s
  | .openI lane cmp => Sys2Proof.Machine.execOpenI lane cmp s
  | .cipher lane cmp => Sys2Proof.Machine.execCipher lane cmp s
  | .xform lane cmp => Sys2Proof.Machine.execXform lane cmp s
  | .mac lane cmp => Sys2Proof.Machine.execMac lane cmp s
  | .hash lane cmp => Sys2Proof.Machine.execHash lane cmp s
  | .cmp lane cmp => Sys2Proof.Machine.execCmp lane cmp s
  | .pkop lane cmp => Sys2Proof.Machine.execPkop lane cmp s
  | .benchOpDone bench => Sys2Proof.Machine.execBenchOpDone bench s
  | .latop lane cmp => Sys2Proof.Machine.execLatop lane cmp s
  | .scalesOpDone ctx => Sys2Proof.Machine.execScalesOpDone ctx s
  | .rand lane cmp => Sys2Proof.Machine.execRand lane cmp s
  | .move lane cmp => Sys2Proof.Machine.execMove lane cmp s
  | .loads lane cmp => Sys2Proof.Machine.execLoads lane cmp s
  | .stores lane cmp => Sys2Proof.Machine.execStores lane cmp s
  | .branch lane cmp => Sys2Proof.Machine.execBranch lane cmp s
  | .fence lane cmp => Sys2Proof.Machine.execFence lane cmp s
  | .event lane cmp => Sys2Proof.Machine.execEvent lane cmp s
  | .endI lane cmp => Sys2Proof.Machine.execEndI lane cmp s
  | .jobEnd lane cmp => Sys2Proof.Machine.execJobEnd lane cmp s
  | .statusWrite job => Sys2Proof.Machine.execStatusWrite job s
  | .ledgerRecord => Sys2Proof.Machine.execLedgerRecord s
  | .ledgerSwap => Sys2Proof.Machine.execLedgerSwap s
  | .sinkCount => Sys2Proof.Machine.execSinkCount s
  | .sinkAction sink => Sys2Proof.Machine.execSinkAction sink s
  | .porterComplete chan => Sys2Proof.Machine.execPorterComplete chan s
  | .freezeOff => Sys2Proof.Machine.execFreezeOff s
  | .icClockReturn => Sys2Proof.Machine.execIcClockReturn s

end Sys2Proof.Machine
end

