-- ==== Sys2Proof/Machine/Tick.lean ====
section
/-! DEFINITION. One control cycle in which no command is taken: 2 ns, 4 lane cycles, 3 public-key cycles (Table 1.9). The clocks and
the counts that run by themselves advance; what is due at a moment is a command of its own (DESIGN CHOICE, log entries 1 and 3). -/

namespace Sys2Proof.Machine

/-! ### Holds (R435) -/

/-- The lane cycles of this control cycle in which lane `l` is not held. -/
def laneRuns (s : State) (l : Nat) : Nat :=
  if s.muster.reserve.toNat.testBit l then 4
  else ((List.range 4).filter (fun k =>
    decide (64 * ((4 * s.ration.phase + k + 2000 - 125 * l) % 2000) < 2000 * s.ration.dutyD.toNat))).length

/-- The public-key cycles of this control cycle in which engine `e` is not held: benches from 0, contexts from 8. -/
def engineRuns (s : State) (e : Nat) : Nat :=
  ((List.range 3).filter (fun k =>
    decide (64 * ((3 * s.ration.phase + k + 1500 - Config.engineStart e % 1500) % 1500) < 1500 * s.ration.dutyE.toNat))).length

/-! ### Muster: the Courier bucket (R127), the share window (R133), run times (R141) -/

/-- RATE in effect (R127). -/
def bucketRate (s : State) : Nat := capAt 4096 s.muster.cbRate.toNat

/-- The bucket after four lane cycles. -/
def bucketRefill (s : State) : State :=
  let top : Int := 1024 * s.muster.cbDepth.toNat
  let v : Int := s.muster.cbLevel + 4 * bucketRate s
  upMuster s (fun m => { m with cbLevel := if top < v then top else v })

/-- Lane cycles of lane `l` that the share window counts: those of an eligible target in which the lane is not held. -/
def windowCycles (s : State) (l : Nat) : Nat :=
  let t := leadOf s l
  if domTakes s (trainOf t) && (members s t).all (laneEnEff s) then laneRuns s l else 0

/-- Lane cycles of eligible targets in which jobs of class `c` are in execution, over the lanes of each target (R133). -/
def classCycles (s : State) (c : JobClass) : Nat :=
  ((targets s).map (fun t =>
    if (getLane s t).run.any (fun j => (getJob s j).cls = c) then ((members s t).map (windowCycles s)).sum else 0)).sum

/-- The share window counts on. -/
def shareCount (s : State) : State :=
  upMuster s (fun m => { m with
    occPost := m.occPost + classCycles s .post, occFreight := m.occFreight + classCycles s .freight
    occBallast := m.occBallast + classCycles s .ballast, occCourier := m.occCourier + classCycles s .courier
    winCycles := m.winCycles + ((List.range 16).map (windowCycles s)).sum })

/-- A Courier job occupies its lane from its start to the issue of its STATUS write (R127). -/
def occupies (x : Job) : Bool :=
  x.cls = .courier && x.onLane && (match x.seat with
    | .statusOut => false
    | .acked => false
    | .held => false
    | _ => true)

/-- The running job waits for something outside its lane: a unit, a read of its own on the way, or acknowledgements that FENCE or EVENT
waits for (DEDUCED, log entry 63). -/
def outsideWait (s : State) (j : Nat) : Bool :=
  let x := getJob s j
  let op := wopOf (wOpcode (instrAt s x x.pos))
  decide (x.wait ≠ .nothing) || busyFor s (isReadOf j) || ((op = some .fence || op = some .event) && !writesDone s j)

/-- The times of the jobs count on: occupancy, run time while the lane is not held, and the time of the sequencer watchdog. -/
def jobTimes (s : State) : State :=
  { s with jobs := tmapv {} (fun j x => { x with
      occ := if occupies x then x.occ + 4 else x.occ
      ran := match x.seat with
        | .running l => x.ran + laneRuns s l
        | _ => x.ran
      stuck := match x.seat with
        | .running l => if x.isOver || outsideWait s j then x.stuck else x.stuck + laneRuns s l
        | _ => x.stuck }) s.jobs }

/-! ### Unit counters (R18, R176) -/

/-- UW_BUSY of the lanes and benches with a resident job or operation. -/
def busyCount (s : State) : State :=
  let s := forAll ((List.range 16).filter (fun l => (getLane s l).run.isSome || (getLane s l).saved ≠ []))
    (fun s l => modUnit s (laneUnit l) (fun u => { u with busy := u.busy + 4 })) s
  forAll ((List.range 8).filter (fun b => (getBench s b).run.isSome || (getBench s b).direct.isSome))
    (fun s b => modUnit s (benchUnit b) (fun u => { u with busy := u.busy + 3 })) s

/-! ### The Well (R276, R279, R282) -/

/-- The bytes that the generator adds to the buffer: 4 in a lane cycle while there is room and no reseed is due. -/
def wellRefill (s : State) : State :=
  if !wellCan s then s
  else
    let want := Nat.min 16 (4096 - s.well.level)
    upWell s (fun w =>
      let w := if w.genLeft < want ∧ w.genCalls < reseedInt s then generate w else w
      let n := Nat.min want w.genLeft
      { w with level := w.level + n, genLeft := w.genLeft - n })

/-! ### Errors in the arrays (R26, R286, R344, R444) -/

/-- RA_ECC_L*n* with one more corrected error in the lane buffer or the save slots: each field saturates (R447). -/
def eccLaneNext (save : Bool) (v : W32) : W32 :=
  let n := fld v (16 * bit save) 16
  if n = 65535 then v else v + w32 (2 ^ (16 * bit save))

/-- A corrected error increments the count of its array (Table 18.8 and the engines' own). -/
def eccCount (k : Nat) (s : State) : State :=
  if k < 16 then upRation s (fun r => { r with eccLane := tmod 0 r.eccLane k (eccLaneNext false) })
  else if 32 ≤ k then upRation s (fun r => { r with eccLane := tmod 0 r.eccLane (k - 32) (eccLaneNext true) })
  else match k with
  | 16 => upRation s (fun r => { r with eccRoute := r.eccRoute + 1 })
  | 17 => upRation s (fun r => { r with eccReorder := r.eccReorder + 1 })
  | 18 => upRation s (fun r => { r with eccRing := r.eccRing + 1 })
  | 19 => upRation s (fun r => { r with eccAtc := r.eccAtc + 1 })
  | 20 => upRation s (fun r => { r with eccRrb := r.eccRrb + 1 })
  | 21 => upSerai s (fun x => { x with eccCorr := x.eccCorr + 1 })
  | 22 => upHouse s (fun x => { x with eccCorr := x.eccCorr + 1 })
  | 23 => upScales s (fun x => { x with eccCorr := x.eccCorr + 1 })
  | 24 => upWell s (fun x => { x with eccCorr := x.eccCorr + 1 })
  | _ => upPorter s (fun x => { x with eccCorr := x.eccCorr + 1 })

/-- An error strikes a Ledger word, `at_` modulo those there are: a corrected or an uncorrectable one in the drain bank, or an uncorrectable
one in the fill bank, whose word is bad when it drains (R344). -/
def ledgerStruck (k at_ : Nat) (s : State) : State :=
  let drained := fun (f : LedgerWord → LedgerWord) => upLedger s (fun l => { l with drain := l.drain.modify (at_ % l.drain.length) f })
  match k with
  | 26 => drained (fun w => { w with ce := true })
  | 28 => drained (fun w => { w with ue := true })
  | _ =>
    let n := wordsBegun s.ledger.fill.length
    if n = 0 then s else upLedger s (fun l => { l with fillBad := at_ % n :: l.fillBad.filter (fun i => i ≠ at_ % n) })

/-- The errors of a control cycle, which are free values. An uncorrectable word of the Well's buffer is discarded and refilled: the oldest,
whose bytes are as free as any (R286). Which Ledger word an error strikes is a free value too. -/
def arrayErrors (s : State) : State :=
  let e := Config.arrayErrors s.free
  let at_ := ofLe ((List.range 2).map (fun i => Config.noise (s.free + i)))
  let has := fun (k : Nat) => e.toNat.testBit k
  let s := forAll (((List.range 26) ++ (List.range 16).map (fun l => 32 + l)).filter has) (fun s k => eccCount k s) s
  let s := if has 27 then upWell s (fun w => wellLess w (Nat.min 8 w.level)) else s
  let s := forAll ([26, 28, 29].filter has) (fun s k => ledgerStruck k at_ s) s
  drewFree s 2

/-! ### Timers and Ration -/

/-- BASE 0 timers count while the block is in Service (R320). -/
def timersElapse (s : State) : State :=
  if !inMode s .service then s
  else upRelay s (fun r => { r with
    timers := tmapv {} (fun _ t => if t.running && !t.base then { t with elapsed := t.elapsed + 131072 } else t) r.timers })

/-- Activity of the epoch (R431): the domains that are powered, and the units that run; a yoke's lanes both run. -/
def rationCount (s : State) : State :=
  let lanes := (targets s).foldl (fun acc t => if (getLane s t).run.isSome then acc ++ members s t else acc) []
  let benches := (List.range 8).filter (fun b => (getBench s b).run.isSome || (getBench s b).direct.isSome)
  let ctxs := (List.range 4).filter (fun c => (getCtx s c).run.isSome)
  upRation s (fun r => { r with
    runOn := ((List.range 3).filter (domOn s)).foldl (fun t d => tmod 0 t d (fun n => n + 1)) r.runOn
    runLane := lanes.foldl (fun t l => tmod 0 t l (fun n => n + laneRuns s l)) r.runLane
    runBench := benches.foldl (fun t b => tmod 0 t b (fun n => n + engineRuns s b)) r.runBench
    runCtx := ctxs.foldl (fun t c => tmod 0 t c (fun n => n + engineRuns s (8 + c))) r.runCtx
    phase := r.phase + 1 })

/-! ### The fabric's cycles (R290, R306) -/

/-- One fabric cycle: the Tollgate's hash cores and Porter. -/
def fabricCycle (s : State) : State :=
  let s := forAll (List.range 8) tgCycle s
  if ptRuns s then ptCycle s else s

/-- The three fabric cycles of a control cycle (Table 1.9). -/
def fabricTick (s : State) : State := fabricCycle (fabricCycle (fabricCycle s))

/-! ### The master ports' timers (R357) -/

/-- The timers of the requests outstanding run, and so does the quarantine of the tags. -/
def portTimers (s : State) : State :=
  let age := fun (o : Option Req) => o.map (fun r => if timersRun s then { r with age := r.age + 1 } else r)
  let quar := fun (n : Nat) => if n = 0 then 0 else n + 1
  upAi s (fun a => { a with ports := tmapv {} (fun _ p => { p with
    reads := tmapv none (fun _ o => age o) p.reads, writes := tmapv none (fun _ o => age o) p.writes
    quarReads := tmapv 0 (fun _ n => quar n) p.quarReads, quarWrites := tmapv 0 (fun _ n => quar n) p.quarWrites }) a.ports })

/-! ### Queued requests wake the bench row (R441) -/

/-- A request that waits wakes the row, also one queued before the row was gated or before the block entered Service. -/
def wakeQueued (s : State) : State := whenS (s.house.queue ≠ []) wakeRow s

/-! ### The control cycle -/

/-- The core domain's copy of the always-on registers: it is refreshed at free moments, and within 153 µs of a change (R429). -/
def aonShown (refresh : Bool) (now : Nat) (w : WatchRec) : WatchRec :=
  if w.shown = w.aon then { w with changed := none }
  else
    let since := w.changed.getD now
    if refresh || since + 76500 ≤ now then { w with shown := w.aon, changed := none } else { w with changed := some since }

/-- The levels that no command drives, which are free: spn_link_lp (DESIGN CHOICE, log entry 13), and the end of a zeroize line or a tamper
input (DESIGN CHOICE, log entry 14). -/
def pinLevels (s : State) : State :=
  let falls := (Config.lineFalls s.free).toNat
  let s := upPins s (fun p => { p with linkLp := Config.linkLp s.free, zeroize := p.zeroize && !falls.testBit 4 })
  upWatch (drewFree s 1) (fun w => { w with tamper := w.tamper &&& ~~~BitVec.ofNat 4 falls })

/-- The always-on counter, on its own clock (Table 1.9, R423), and what the core domain sees of the always-on registers. -/
def aonCount (s : State) : State :=
  let tick := Config.aonTick s.free
  let refresh := Config.aonRefresh s.free
  let s := upWatch (drewFree s 1) (fun w => if tick then { w with counter := w.counter + 1 } else w)
  upWatch s (aonShown refresh s.cycle)

/-- What runs in the block's own clock domains. -/
def coreTick (s : State) : State :=
  let s := rationCount (busyCount (jobTimes (shareCount (bucketRefill s))))
  let s := forAll (List.range 16) laneReads (timersElapse (srcTick (wellRefill (arrayErrors s))))
  let s := fabricTick ((safeAdvance (charterAdvance (almAdvance s))))
  offerCtxs (offerBenches (wakeQueued (creditWait (portTimers s))))

/-- One control cycle with no command. In reset the always-on domain alone runs. -/
def tick (s : State) : State :=
  let s := sinksLand (aonCount (pinLevels { s with cycle := s.cycle + 1 }))
  whenS (awake s) coreTick s

end Sys2Proof.Machine
end

