-- ==== Sys2Proof/Safety.lean ====
section
/-! DEFINITION. The terms in which claims are stated: the parts of the state and what stays unchanged, the records and the sources
that a step leaves, and the invariants. -/

namespace Sys2Proof.Machine

/-- The parts of the state, one for each field but the queue of commands. -/
inductive Part where
  | units | rings | routes | jobs | nextJob | lanes | muster | serai | mint | house | scales | well | tollgate | porter | relay
  | almanac | ledger | ai | ports | mode | fuse | safe | watch | ration | pins | cycle | free
  deriving DecidableEq, Repr

/-- Part `p` is the same in two states. -/
def Part.same (p : Part) (s t : State) : Prop :=
  match p with
  | .units => t.units = s.units
  | .rings => t.rings = s.rings
  | .routes => t.routes = s.routes
  | .jobs => t.jobs = s.jobs
  | .nextJob => t.nextJob = s.nextJob
  | .lanes => t.lanes = s.lanes
  | .muster => t.muster = s.muster
  | .serai => t.serai = s.serai
  | .mint => t.mint = s.mint
  | .house => t.house = s.house
  | .scales => t.scales = s.scales
  | .well => t.well = s.well
  | .tollgate => t.tollgate = s.tollgate
  | .porter => t.porter = s.porter
  | .relay => t.relay = s.relay
  | .almanac => t.almanac = s.almanac
  | .ledger => t.ledger = s.ledger
  | .ai => t.ai = s.ai
  | .ports => t.ports = s.ports
  | .mode => t.mode = s.mode
  | .fuse => t.fuse = s.fuse
  | .safe => t.safe = s.safe
  | .watch => t.watch = s.watch
  | .ration => t.ration = s.ration
  | .pins => t.pins = s.pins
  | .cycle => t.cycle = s.cycle
  | .free => t.free = s.free

/-- From `s` to `t` the queue of commands and every part but those of `ps` are unchanged. -/
def keepsBut (ps : List Part) (s t : State) : Prop :=
  t.pending = s.pending ∧ ∀ p : Part, p ∉ ps → p.same s t

/-- Port `p`'s write of `n` bytes at `off` is taken: the port serves it (R461), and the sideband port writes none of these bytes in the
same control cycle (Table 19.2). -/
def mayTake (s : State) (p : CtlPort) (off n : Nat) : Bool := served s && !sideMeets s p off n

/-- `s` as the port that takes a write leaves it: with the response (R459), and with the sideband port's write noted. -/
def tookWrite (s : State) (p : CtlPort) (off n : Nat) : State := noteSide (respond s p false) p off n

/-- Request `r` is outstanding under this tag of port `k`, and it is the last part of access `a` that has not ended: its last beat, or its
acknowledgement, ends the access (R352). -/
def lastPart (s : State) (write : Bool) (k tag : Nat) (r : Req) (a : Access) : Bool :=
  let p := getPort s k
  !s.pins.icRst && decide (tget 0 (if write then p.quarWrites else p.quarReads) tag = 0) &&
  decide (tget none (if write then p.writes else p.reads) tag = some r) && decide (r.write = write) &&
  decide (tget none s.ai.accesses r.access = some a) && decide (a.left ≤ 1)

/-- The failure of request `r` once its last beat has brought `status`: that of its lowest-addressed failing beat (R352). -/
def beatFail (r : Req) (beat : Nat) (status : BitVec 2) : Option (Nat × Status) :=
  if status = 0 then r.fail else lowerFail r.fail (some ((beatBytes r beat 0).1, respStatus status.toNat))

/-- The failure of a write once its acknowledgement has brought `status`. -/
def ackFail (r : Req) (status : BitVec 2) : Option (Nat × Status) :=
  if status = 0 then none else some (r.addr.toNat, respStatus status.toNat)

/-- The bytes of access `a` once beat `beat` of its request `r` has brought `data`. -/
def readWith (a : Access) (r : Req) (beat : Nat) (data : BitVec 1024) : Table Byte :=
  tfill 0 a.data ((beatBytes r beat data).1 - a.addr.toNat) (beatBytes r beat data).2

/-- What access `a` has read by then. -/
def hasRead (a : Access) (r : Req) (beat : Nat) (data : BitVec 1024) : List Byte := tread 0 (readWith a r beat data) 0 a.len

/-- Ring `r` has failed with `st` at `addr` (R57): it is FAULTED with LASTERR and no longer scans, and its record is offered. -/
def ringFailed (s t : State) (r : Nat) (st : Status) (addr : W64) : Prop :=
  (getRing t r).state = .faulted ∧ (getRing t r).lastErr = st.code ∧ (getRing t r).scanning = false ∧
  ((getRing s r).cmdBusy = true → (getRing t r).cmdBusy = false ∧ (getRing t r).cmdResult = st.code) ∧
  { producer := 1, type := 0x102, code := st.code, body := w32 r :: loHi addr, madeAt := s.cycle, unit := (w32 r).toNat : LedgerRec } ∈
    t.ledger.waiting

/-- Job `j`, of which an access has failed with `st`, has taken the failure (R352): running, it is over with it; in preparation or saved, it
ends with the first one that it had. -/
def jobFailed (s t : State) (j : Nat) (st : Status) : Prop :=
  (∀ l, (getJob s j).seat = .running l → (getJob s j).isOver = false → (getJob t j).isOver = true ∧ (getJob t j).status = st) ∧
  (∀ l, ((getJob s j).seat = .staged l ∨ (getJob s j).seat = .saved l) → (getJob t j).stop = some ((getJob s j).stop.getD st))

/-- Porter stands stopped by the failure at `addr` (R309), its transfers abandoned. -/
def porterStopped (s t : State) (dir : Bool) (cause : Nat) (addr : W64) : Prop :=
  t.porter.stopped = true ∧ t.porter.dir = dir ∧ t.porter.cause = BitVec.ofNat 2 cause ∧ t.porter.errAddr = addr ∧
  t.porter.stops = s.porter.stops + 1 ∧ (∀ n, (getChan t n).xfer = none)

/-! ### The register map by access types (Table 19.7) -/

/-- The STOP fields among a ring window's registers. -/
def stopRing (o : Nat) : Nat :=
  match o with
  | 0x08 => 0xFFFFF000
  | 0x0C => 0xFFFFFFFF
  | 0x10 => 0xFFFFFFFC
  | 0x14 => 0xFFFFFFFF
  | 0x18 => 0x31F
  | 0x20 => 0xFFFF
  | 0x24 => 0x800FFFFF
  | 0x2C => 0x800001FF
  | _ => 0

/-- Those of Muster. -/
def stopMuster (o : Nat) : Nat :=
  match o with
  | 0x00 => 0x3F01
  | 0x04 => 0xFFFF
  | 0x08 => 0xFFFF
  | 0x10 => 0x1FFF
  | 0x14 => 0xFFFFFF
  | 0x18 => 0xFFFF
  | 0x30 => 0x1FFF
  | 0x38 => 0xFFFF
  | _ => 0

/-- Those of a sink: TARGET is RSV outside the synthesisers. -/
def stopSink (k o : Nat) : Nat :=
  match o with
  | 0x0 => if hasSink k then 0x83FF83FF else 0
  | 0xC => if 32 ≤ k ∧ k < 96 then 0x80000FFF else 0
  | _ => 0

/-- Those of a timer. -/
def stopTimer (o : Nat) : Nat :=
  match o with
  | 0x00 => 3
  | 0x08 => 0xFFFFFFFF
  | 0x0C => 0xFFFF
  | 0x10 => 0xFFFFFFFF
  | 0x14 => 0xFFFF
  | 0x18 => 0x3FFFFFFF
  | 0x1C => 0xFFFFFFFF
  | _ => 0

/-- The STOP fields of the 32-bit register, or half of a pair, at a 4-byte aligned offset of the window, as a mask: 0 where it has none.
UW_CTRL and WT_CFG, whose fields and lock have rules of their own, are left out. -/
def stopMask (off : Nat) : Nat :=
  if off < 0x100000 then 0
  else if off < 0x200000 then stopRing (off % 0x100)
  else if off < 0x21F000 then stopMuster (off - 0x200000)
  else if off < 0x220100 then 0
  else if off < 0x260000 then 0xFFFFFFFF
  else if off < 0x380000 then 0
  else if off < 0x780000 then
    match off with
    | 0x380008 => 0xFFF80000
    | 0x38000C => 0xFFFFFFFF
    | 0x480004 => 0x7FF
    | 0x480008 => 0xFFFFFF
    | 0x500004 => 0xF0F03
    | 0x580004 => 0x1FFFFF
    | 0x702010 => 0x3FF
    | _ => 0
  else if off < 0x781000 then 0
  else if off < 0x783000 then stopSink ((off - 0x781000) / 0x10) (off % 0x10)
  else if off < 0x784000 then 0
  else if off < 0x784800 then stopTimer (off % 0x40)
  else match off with
    | 0x7C0004 => 0x03FF1FF3
    | 0x7C0020 => 0xFFFF
    | 0x7C0030 => 0xFFFFFFF8
    | 0x7C0034 => 0xFFFFFFFF
    | 0x7C0038 => 1
    | 0x800004 => 0xFF0701
    | 0x800008 => 0x1FFFF
    | 0x80000C => 0xFFFFFFFF
    | 0x800010 => 0xFFFF
    | 0x900018 => 0x1FFFF
    | 0xA02008 => 0xFFFFF000
    | 0xA0200C => 0xFFFFFFFF
    | 0xC00008 => 7
    | 0xC0000C => 0xFFFF
    | 0xC00010 => 0xFFFF
    | 0xC00014 => 0xFF
    | _ => 0

/-- STOP registers whose write has an effect of its own beside their fields: CH_ROW_CFG (R230), SC_CFG (R445) and AL_CFG (R328, R332). -/
def stopActs (off : Nat) : Bool := [0x480004, 0x500004, 0x7C0004].contains off

/-- A bound ring's SPACE, FUNC, PV and PASID are guarded (R202). -/
def boundGuards (s : State) (off : Nat) : Bool :=
  (0x100000 ≤ off && off < 0x200000) && [0x18, 0x20, 0x24].contains (off % 0x100) && (getRing s ((off - 0x100000) / 0x100)).bound

/-- The RW fields of a Tollgate context. -/
def rwTgCtx (o : Nat) : Nat :=
  if o < 0x30 then
    match o with
    | 0x00 => 0x1F33FF
    | 0x08 => 0xFFFFFFFF
    | 0x0C => 0xFFFFFFFF
    | 0x10 => 0xFFFFFFFF
    | 0x14 => 0xFFFFFFFF
    | 0x28 => 0x1FF
    | _ => 0
  else if (0x40 ≤ o ∧ o < 0x80) ∨ (0x100 ≤ o ∧ o < 0x200) then 0xFFFFFFFF
  else 0

/-- Those of a Porter channel's active set. -/
def rwPtSet (o : Nat) : Nat :=
  if o < 0x1C then 0xFFFFFFFF
  else match o with
    | 0x1C => 0x1FFFF
    | 0x20 => 0xFFF007F
    | _ => 0

/-- Those of an alarm's time. -/
def rwAlarm (o : Nat) : Nat :=
  match o with
  | 0x0 => 0xFFFFFFFF
  | 0x4 => 0xFFFF
  | 0x8 => 0x3FFFFFFF
  | _ => 0

/-- The RW fields at an offset, as a mask. Registers that any write clears, AL_SEC and AL_NSEC, and Porter's shadow sets have an effect
of their own and are left out. -/
def rwMask (off : Nat) : Nat :=
  if off < 0x100000 then 0
  else if off < 0x200000 then (if off % 0x100 = 0x28 then 0xFF01 else 0)
  else if off < 0x481000 then
    match off with
    | 0x200040 => 0xFFF
    | 0x300008 => 0xFFFFFF
    | 0x300070 => 0x7FFF
    | 0x380018 => 0xFFFFFFC0
    | 0x38001C => 0xFFFFFFFF
    | 0x48003C => 3
    | _ => 0
  else if off < 0x481800 then (if off % 0x100 = 0x08 then 0xFFFFFFFF else if off % 0x100 = 0x0C then 0xFFFF else 0)
  else if off < 0x601000 then
    match off with
    | 0x50002C => 1
    | 0x58000C => 1
    | 0x600004 => 1
    | _ => 0
  else if off < 0x602000 then rwTgCtx (off % 0x200)
  else if off < 0x700000 then 0
  else if off < 0x702000 then rwPtSet (off % 0x100)
  else if off < 0x7C0100 then
    match off with
    | 0x702014 => 1
    | 0x780004 => 1
    | 0x7C0040 => 1
    | _ => 0
  else if off < 0x7C0200 then rwAlarm (off % 0x10)
  else if (0xA01010 ≤ off ∧ off < 0xA01040) ∨ (0xA02020 ≤ off ∧ off < 0xA02040) then 0xFFFFFFFF
  else match off with
    | 0x7D0044 => 0x3FF
    | 0x7D0048 => 7
    | 0x800014 => 1
    | 0x90002C => 3
    | 0xA01008 => 0xFFFFFFFF
    | 0xA02010 => 0xFFFFFFC0
    | 0xA02014 => 0xFFFFFFFF
    | 0xB0000C => 1
    | 0xC00004 => 0x1FF
    | 0xC0002C => 7
    | _ => 0

/-- The guard of an RW register is closed (R296, R308, R334): of an active Tollgate context, a channel's running transfer, an enabled alarm. -/
def rwClosed (s : State) (off : Nat) : Bool :=
  if off < 0x601000 then false
  else if off < 0x602000 then
    let x := getTg s ((off - 0x601000) / 0x200)
    if off % 0x200 < 0x28 then tgActive x else decide (x.state = .finishing)
  else if off < 0x702000 then (getChan s ((off - 0x700000) / 0x100)).xfer.isSome
  else if 0x7C0100 ≤ off ∧ off < 0x7C0200 then (getAlarm s ((off - 0x7C0100) / 0x10)).en
  else false

/-- The part of the state that holds the STOP and RW fields at an offset. -/
def regPart (off : Nat) : Part :=
  if off < 0x200000 then .rings
  else if off < 0x21F000 then .muster
  else if off < 0x300000 then .routes
  else if off < 0x380000 then .serai
  else if off < 0x400000 then .mint
  else if off < 0x500000 then .house
  else if off < 0x580000 then .scales
  else if off < 0x600000 then .well
  else if off < 0x700000 then .tollgate
  else if off < 0x780000 then .porter
  else if off < 0x7C0000 then .relay
  else if off < 0x7D0000 then .almanac
  else if off < 0x800000 then .ledger
  else if off < 0x900000 then .ai
  else if off < 0xA00000 then .mode
  else if off < 0xA02000 then .fuse
  else if off < 0xB00000 then .safe
  else if off < 0xC00000 then .watch
  else .ration

/-- The reset values of Table 19.7 from Muster's registers on that are not 0. -/
def resetValue (off : Nat) : Nat :=
  match off with
  | 0x200000 => 0x201
  | 0x200008 => 0x4060
  | 0x200010 => 0x400
  | 0x200014 => 0x8000
  | 0x200018 => 0x1000
  | 0x20001C => 0x8000
  | 0x200030 => 0x400
  | 0x200034 => 0x10000
  | 0x200038 => 0x1F4
  | 0x200044 => 0x1F4
  | 0x480004 => 0x400
  | 0x480008 => 0x2710
  | 0x48003C => 0x1
  | 0x500004 => 0x2
  | 0x580004 => 0x400
  | 0x702010 => 0x200
  | 0x7C0004 => 0xC80641
  | 0x7D0044 => 0x180
  | 0x800004 => 0x100401
  | 0x800008 => 0x2710
  | 0x80000C => 0x90018801
  | 0x800010 => 0x64
  | 0x900018 => 0x3E8
  | 0xB00004 => 0xF
  | 0xC00004 => 0x140
  | 0xC0000C => 0x64
  | 0xC00010 => 0x32
  | 0xC00014 => 0x14
  | 0xC00024 => 0x4040
  | _ => 0

/-- From `s` to `t` the Ledger has gained one offered record and nothing else: one of this control cycle, about the unit that it names. -/
def recordOffered (s t : State) (producer type : Nat) (code : W16) (body : List W32) : Prop :=
  t.ledger = { s.ledger with waiting := s.ledger.waiting ++
    [{ producer := producer, type := type, code := code, body := body, madeAt := s.cycle, unit := recordUnit type body }] }

/-- From `s` to `t` job `j` has gone on to the instruction after the one that left it as `y`, and no other job has changed. -/
def ranTo (s t : State) (j : Nat) (y : Job) : Prop :=
  getJob t j = { y with pos := y.pos + 1, wait := .nothing, kept := none, wrote := none, done := 0, source := [], stuck := 0 } ∧
  ∀ k, k ≠ j → getJob t k = getJob s k

/-- The adapter stands as it does when the instruction that left job `j` as `y` issues its outputs in state `s`, in their order: what of
the first has not gone, and of an output that a source overlaps partially undefined bytes (R81). -/
def outputsIssued (s t : State) (j : Nat) (y : Job) (outs : List OutW) : Prop :=
  t.ai = (issueOuts s j y outs).ai ∧ t.free = (issueOuts s j y outs).free

/-- The outputs can go: a lost host link lets none pass that has bytes left (R367). -/
def outputsMay (s : State) (j : Nat) (y : Job) (outs : List OutW) : Prop := jobLost s j = true → outsLeft y outs = false

/-- Source `src` of the Relay stands raised in the present control cycle. -/
def sourceRaised (t : State) (src : Nat) : Prop := (t.cycle, src) ∈ t.relay.raised

/-- The tables of what the spec numbers (units, rings, routes, jobs, lanes, slots, masks, fills, benches, contexts, channels, sinks, timers,
alarms, ports, accesses, fuse words, log entries, domains) have their canonical form, and so has the operand memory of every bench: equal
contents are equal data. -/
def State.canonical (s : State) : Bool :=
  twf {} s.units && twf {} s.rings && twf {} s.routes.routes && twf {} s.jobs && twf {} s.lanes &&
  twf {} s.serai.slots && twf 0 s.serai.masks && twf false s.serai.aged && twf {} s.mint.fills &&
  twf {} s.house.benches && s.house.benches.all (fun kv => twf 0 kv.2.mem) &&
  twf {} s.scales.ctxs && twf {} s.tollgate.ctxs && twf {} s.porter.chans &&
  twf {} s.relay.sinks && twf {} s.relay.timers && twf {} s.almanac.alarms &&
  twf {} s.ai.ports && twf none s.ai.accesses && twf 0 s.fuse.array && twf 0 s.watch.log && twf {} s.ration.doms

/-- Of every port, the outstanding reads and the outstanding writes stand in canonical tables of their own. -/
def State.sided (s : State) : Bool :=
  s.ai.ports.all (fun kv => twf none kv.2.reads && twf none kv.2.writes &&
    kv.2.reads.all (fun r => r.2.all (fun q => !q.write)) && kv.2.writes.all (fun r => r.2.all (fun q => q.write)))

/-- Every fuse bit that is blown in `s` is blown in `t`. -/
def fusesStand (s t : State) : Prop := ∀ w, tget 0 s.fuse.array w &&& tget 0 t.fuse.array w = tget 0 s.fuse.array w

end Sys2Proof.Machine
end

