-- ==== Sys2Proof/Certificates/Slice0/Obligations.lean ====
section
/-! DEFINITION. The obligations: what the rules of the spec say of the commands, stated for the provers. -/

open Sys2Proof Sys2Proof.Machine

/-! ### Reset and start-up -/

/-- R383, R17, R21, R390, R398: what a block reset leaves: the reset pin, the loss of the PLL's lock, and RESET from the holder of the
reins or, in Cleared, from the sideband port. The always-on log, counter and Strongbox keep their values, and the fuse array but for the
bits that a command in progress has blown; every part but those, the pins and the model's own counters is as after reset; RESET, which
leaves the PLL locked, goes on to Cold. R425, R424: the always-on reset clears the Strongbox, the log and the counter, and logs cause 7.
With the core rail present it is a zeroize event: the block is in Cleared. Where the spec leaves a choice, the model's is log entries 9,
12 and 48. -/
def Obligations.ResetsLeaveTheResetState : Prop :=
  ((∀ s : State, ∃ t, exec .blockReset s = .next t ∧ t.mode = {} ∧ t.fuse = { array := (fuseCut s).2.fuse.array } ∧
    (s.fuse.cmd = none → t.fuse.array = s.fuse.array) ∧
    t.watch.box = s.watch.box ∧ t.watch.log = s.watch.log ∧ t.watch.counter = s.watch.counter ∧
    t.pending = s.pending ∧ ∀ p, p ∉ [Part.fuse, .watch, .pins, .free] → p.same State.reset t) ∧
  (∀ s : State, s.mode.pllLocked = true → ∃ t, exec .pllLockLost s = .next t ∧ t.mode = {} ∧
    t.fuse = { array := (fuseCut s).2.fuse.array } ∧
    t.watch.box = s.watch.box ∧ tget 0 t.watch.log s.watch.logNext = aonEntry s 6 ∧
    t.pending = s.pending ∧ t.pins = s.pins ∧ ∀ p, p ∉ [Part.fuse, .watch, .pins, .free] → p.same State.reset t) ∧
  (∀ (p : CtlPort) (s : State),
    ((s.mode.mode = .cleared ∧ p = .sideband ∧ portThere s = true) ∨ (s.mode.mode ≠ .cleared ∧ served s = true ∧ holdsReins s p = true)) →
    s.pins.zeroize = false →
    ∃ t, exec (.reset p) s = .next t ∧ t.mode.mode = .cold ∧ t.mode.holder = 0 ∧ t.mode.pllLocked = s.mode.pllLocked ∧
      t.fuse = { array := (fuseCut s).2.fuse.array } ∧ t.watch.box = s.watch.box ∧ t.watch.log = s.watch.log ∧ t.watch.tamper = 0 ∧
      t.ai = (proposeLtr State.reset State.reset.ai.ltrIdle).ai ∧
      t.pending = s.pending ∧ ∀ q, q ∉ [Part.fuse, .watch, .pins, .free, .mode, .ledger, .ai] → q.same State.reset t)) ∧
  (∀ s : State, ∃ t, exec .aonReset s = .next t ∧ t.watch.box = {} ∧ t.watch.counter = 0 ∧ t.watch.logValid = 1 ∧
    fld (tget 0 t.watch.log 0) 48 5 = 7 ∧ t.pending = s.pending ∧
    (s.mode.mode ≠ .inReset → t.mode.mode = .cleared ∧ t.serai.slots = [] ∧ t.mint.root = false))

/-- R21, R382, R383: the PLL's lock ends reset in Cold, where the idle latency tolerance is proposed (R365), or with spn_zeroize held
high in Cleared (R422); FUSE_SENSE then begins Self-check, in which the two trains and the bench row are powered and the Scales contexts
are tested. R383: Self-check ends in Provision once its known-answer tests are over, the Well delivers what Self-check draws, an engine of
each kind is good, the certificates are signed, and nothing holds it; the set-index key is drawn and the time of Self-check is kept. Where
the spec leaves a choice, the model's is log entries 12, 16, 53 and 65. -/
def Obligations.StartUpEndsInProvision : Prop :=
  ((∀ s : State, s.mode.mode = .inReset → s.mode.pllLocked = false → s.pins.zeroize = false →
    ∃ t, exec .pllLock s = .next t ∧ t.mode = { s.mode with mode := .cold, pllLocked := true } ∧ t.ai.ltr = s.ai.ltrIdle ∧
      keepsBut [.mode, .ai] s t) ∧
  (∀ s : State, s.mode.mode = .inReset → s.mode.pllLocked = false → s.pins.zeroize = true →
    ∃ t, exec .pllLock s = .next t ∧ t.mode.mode = .cleared ∧ t.mode.pllLocked = true ∧ t.fuse = s.fuse ∧ t.watch = s.watch ∧
      t.pending = s.pending) ∧
  (∀ s : State, s.mode.mode = .cold → ∃ t, exec .fuseSense s = .next t ∧ t.mode.mode = .selfCheck ∧ t.fuse.array = s.fuse.array ∧
    t.fuse.life.toNat = lifeOf s ∧ (∀ w, 64 ≤ w → tget 0 t.fuse.sensed w = tget 0 s.fuse.array w) ∧
    (∀ d, d < 3 → (getDom t d).phase = .waking ∧ (getDom t d).req = true) ∧ (∀ c, c < 4 → (getCtx t c).kat = true) ∧
    keepsBut [.mode, .fuse, .mint, .well, .ration, .scales, .ledger, .relay, .ai] s t)) ∧
  (∀ (us : W32) (certsOk : Bool) (s : State), s.mode.mode = .selfCheck → katsOver s = true → wellCan s = true →
    wellGives s 36000 = true → s.mode.scFault = 0 → enginesOk s = true →
    (s.fuse.life = 0 ∨ s.fuse.life = 4 ∨
      (certsOk = true ∧ selfSigned (selfSigns (unitKeys (seraiDraws (selfSteps s)))) = true)) →
    ∃ t, exec (.selfCheckDone us certsOk) s = .next t ∧ t.mode.mode = .provision ∧ t.mode.scTime = us ∧
      t.mode.scFault = 0 ∧ t.serai.hkeyDrawn = true ∧ t.fuse = s.fuse ∧ t.pending = s.pending ∧
      (boxFaults s.watch.box = 0 → t.watch.box = s.watch.box) ∧ (boxFaults t.watch.box = 0))

/-! ### Modes, the reins and Recovery -/

/-- R388: REINS_CLAIM gives the reins to the port with its NONCE unless the NONCE is 0 or the host claims what the sideband port holds;
REINS_RELEASE with the holder's NONCE frees them. Both write a REINS record, and nothing but the Mode controller's own registers, the
Ledger's waiting records and the Relay changes. Of claims from both ports the sideband port's stands, and a block reset frees the reins.
-/
def Obligations.ReinsClaimAndRelease : Prop :=
  (∀ (p : CtlPort) (nonce : W32) (s : State), served s = true → nonce ≠ 0 → ¬(p = .host ∧ s.mode.holder = 2) →
    ∃ t, exec (.reinsClaim p nonce) s = .next t ∧ t.mode = { s.mode with holder := BitVec.ofNat 2 (portBit p + 1), nonce := nonce } ∧
      recordOffered s t 15 0x702 0 [w32 ((if p = .sideband ∧ s.mode.holder = 1 then 3 else 1) + 8 * portBit p), nonce] ∧
      keepsBut [.mode, .ledger, .relay] (respond s p false) t) ∧
  (∀ (p : CtlPort) (nonce : W32) (s : State), served s = true → (nonce = 0 ∨ (p = .host ∧ s.mode.holder = 2)) →
    ∃ t, exec (.reinsClaim p nonce) s = .next t ∧ recordOffered s t 15 0x702 0 [w32 (4 + 8 * portBit p), nonce] ∧
      keepsBut [.ledger] (respond s p false) t) ∧
  (∀ (p : CtlPort) (s : State), served s = true → holdsReins s p = true →
    ∃ t, exec (.reinsRelease p s.mode.nonce) s = .next t ∧ t.mode = { s.mode with holder := 0, nonce := 0 } ∧
      recordOffered s t 15 0x702 0 [w32 (2 + 8 * portBit p), s.mode.nonce] ∧ keepsBut [.mode, .ledger, .relay] (respond s p false) t) ∧
  (∀ (p : CtlPort) (nonce : W32) (s : State), served s = true → (holdsReins s p = false ∨ s.mode.nonce ≠ nonce) →
    ∃ t, exec (.reinsRelease p nonce) s = .next t ∧ recordOffered s t 15 0x702 0 [w32 (5 + 8 * portBit p), nonce] ∧
      keepsBut [.ledger] (respond s p false) t) ∧
  (∀ (a b : W32) (s : State), served s = true → a ≠ 0 → b ≠ 0 → s.mode.holder = 0 →
    ∃ t u, exec (.reinsClaim .sideband a) s = .next t ∧ exec (.reinsClaim .host b) t = .next u ∧ u.mode.holder = 2 ∧ u.mode.nonce = a) ∧
  (∀ s : State, ∃ t, exec .blockReset s = .next t ∧ t.mode.holder = 0)

/-- R385, R386, R387: SERVICE and PROVISION under their conditions, and the end of the drain. On entry to Service the Courier bucket is
full; PROVISION starts a drain in Service, which ends every scan; DRAIN_COMPLETE ends it in
Provision. R386, R388, R389: SERVICE from a port that does not hold the reins is refused with NOT_REINS, which is counted, in a control
cycle in which spn_freeze rises with CONTAINED (Table 16.6), and in a state that does not allow it with ACCESS_FAULT; the mode stays. R414: the entry to Service releases the
certificate store. Where the spec leaves a choice, the model's is log entry 15. -/
def Obligations.ServiceIsEnteredAndLeft : Prop :=
  ((∀ (p : CtlPort) (s : State), served s = true → holdsReins s p = true → freezeMeets s = false → serviceOk s = true →
    ∃ t, exec (.service p) s = .next t ∧ t.mode.mode = .service ∧ t.mode.cmdResult = Status.done.code ∧ t.safe.held = false ∧
      t.muster.cbLevel = 1024 * (s.muster.cbDepth.toNat : Int) ∧ t.mode.holder = s.mode.holder ∧ t.fuse = s.fuse ∧ t.watch = s.watch ∧
      t.pins = s.pins ∧ t.almanac = s.almanac ∧ t.pending = s.pending) ∧
  (∀ (p : CtlPort) (s : State), served s = true → holdsReins s p = true → s.mode.mode = .service → s.mode.stopping = false →
    ∃ t, exec (.provision p) s = .next t ∧ t.mode = { s.mode with cmdResult := Status.done.code, stopping := true } ∧
      (∀ r, (getRing t r).scanning = false) ∧ keepsBut [.mode, .rings, .ai, .ledger, .relay] (respond s p false) t) ∧
  (∀ s : State, draining s = true → drained s = true →
    ∃ t, exec .drainComplete s = .next t ∧ t.mode.mode = .provision ∧ t.mode.stopping = false ∧ t.mode.holder = s.mode.holder ∧
      t.watch.logNew = 0 ∧ t.watch.box = s.watch.box ∧ t.fuse = s.fuse ∧ t.pins = s.pins ∧
      t.almanac = { s.almanac with hbAt := none } ∧ t.pending = s.pending)) ∧
  ((∀ (p : CtlPort) (s : State), served s = true → holdsReins s p = false →
    ∃ t, exec (.service p) s = .next t ∧
      t.mode = { s.mode with cmdResult := Status.notReins.code, refused := s.mode.refused + 1 } ∧
      keepsBut [.mode, .ledger, .relay] (respond s p false) t) ∧
  (∀ (p : CtlPort) (s : State), served s = true → holdsReins s p = true → freezeMeets s = true →
    ∃ t, exec (.service p) s = .next t ∧ t.mode = { s.mode with cmdResult := Status.contained.code } ∧
      keepsBut [.mode, .ledger] (respond s p false) t) ∧
  (∀ (p : CtlPort) (s : State), served s = true → holdsReins s p = true → freezeMeets s = false → serviceOk s = false →
    ∃ t, exec (.service p) s = .next t ∧ t.mode = { s.mode with cmdResult := Status.accessFault.code } ∧
      keepsBut [.mode, .ledger] (respond s p false) t))

/-- R393, R387, R392: RECOVER in its three scopes, the block Recovery of a drain timeout, and the automatic string Recovery each start a
Recovery at its first step. R394: when a step of a Recovery that nothing abandons has ended, the next step of its scope begins; the
ninth ends the Recovery, which counts. Where the spec leaves a choice, the model's is log entries 15 and 38. -/
def Obligations.RecoveriesRun : Prop :=
  ((∀ (p : CtlPort) (scope string : BitVec 2) (flush rlclr target : Bool) (s : State), served s = true → holdsReins s p = true →
    scope ≠ 3 → freezeMeets s = false → recoverOk s scope string = true → (scope = 0 → s.pins.freeze = false) →
    ∃ t v, exec (.recover p scope string flush rlclr target) s = .next t ∧ t.mode.recov = some v ∧ v.scope.code = scope.toNat ∧
      v.string = string ∧ v.step = 1 ∧ v.flush = flush ∧ v.rlclr = rlclr ∧ v.automatic = false ∧ (scope = 0 → v.target = target) ∧
      t.mode.cmdResult = Status.done.code ∧ t.mode.mode = (if scope = 0 then .recovery else s.mode.mode) ∧
      t.fuse = s.fuse ∧ t.watch = s.watch ∧ t.pending = s.pending) ∧
  (∀ s : State, draining s = true → drained s = false → s.mode.recov = none →
    ∃ t v, exec .drainTimeout s = .next t ∧ t.mode.mode = .recovery ∧ t.mode.recov = some v ∧ v.scope = .block ∧ v.step = 1 ∧
      v.flush = true ∧ v.rlclr = false ∧ v.target = true ∧ v.automatic = true ∧ t.fuse = s.fuse ∧ t.watch = s.watch ∧
      t.pending = s.pending) ∧
  (∀ (n : Fin 4) (s : State), s.mode.autoStr = true → s.mode.mode = .service → s.mode.recov = none → tb s.mode.strings n.val = true →
    ∃ t v, exec (.autoStringRecovery n) s = .next t ∧ t.mode.mode = .service ∧ t.mode.recov = some v ∧ v.scope = .string ∧
      v.string.toNat = n.val ∧ v.step = 1 ∧ v.automatic = true ∧ keepsBut [.rings, .relay, .ledger, .ai, .mode] s t)) ∧
  ((∀ (v : Recov) (s : State), s.mode.recov = some v → stepOver s v = true → v.abandonFreeze = false → v.abandonDrain = false →
    v.step ≠ 9 → ∃ t w, exec .recoveryStep s = .next t ∧ t.mode.recov = some w ∧ w.step = stepAfter v.scope v.step ∧
      w.scope = v.scope ∧ w.rings = v.rings ∧ t.mode.recDone = BitVec.ofNat 4 v.step ∧ t.mode.mode = s.mode.mode ∧
      t.fuse = s.fuse ∧ t.watch = s.watch ∧ t.pending = s.pending) ∧
  (∀ (v : Recov) (s : State), s.mode.recov = some v → v.abandonFreeze = false → v.abandonDrain = false → v.step = 9 →
    ∃ t, exec .recoveryStep s = .next t ∧ t.mode.recov = none ∧ t.mode.recDone = 9 ∧ t.mode.recoveries = s.mode.recoveries + 1 ∧
      (v.scope = .block → t.mode.strings = 0 ∧ t.ai.contained = false ∧
        t.mode.mode = if s.mode.consErr || v.target then .provision else .service) ∧
      (v.scope ≠ .block → t.mode.mode = s.mode.mode) ∧ t.fuse = s.fuse ∧ t.watch.box = s.watch.box ∧ t.pending = s.pending))

/-! ### Power -/

/-- R439, R440, R442: an acknowledged request starts the known-answer tests of the domain, an acknowledged gating ends it, and a missing
acknowledgement is a power-switch fault, which gates the domain: every unit of it is FAULTED and quarantined, a PWR_FAULT record is
written and source 242 is raised. -/
def Obligations.PowerSwitches : Prop :=
  (∀ (d : Fin 3) (s : State), portsServed s = true → (getDom s d.val).phase = .waking → (getDom s d.val).req = true →
    ∃ t, exec (.powerAck d) s = .next t ∧ (getDom t d.val).phase = .testing ∧ tb t.pins.pwrAck d.val = true ∧
      (d.val < 2 → ∀ l, trainOf l = d.val → (getLane t l).kat = true) ∧ (d.val = 2 → ∀ b, b < 8 → (getBench t b).kat = true) ∧
      keepsBut [.lanes, .house, .ration, .pins] s t) ∧
  (∀ (d : Fin 3) (s : State), portsServed s = true → (getDom s d.val).phase = .gating → (getDom s d.val).wakeAfter = false →
    ∃ t, exec (.powerAck d) s = .next t ∧ (getDom t d.val).phase = .gated ∧ keepsBut [.ration, .pins] s t) ∧
  (∀ (d : Fin 3) (gating : Bool) (s : State), portsServed s = true → (getDom s d.val).phase = (if gating then .gating else .waking) →
    ∃ t, exec (.powerSwitchFault d gating) s = .next t ∧ (getDom t d.val).phase = .gated ∧ (getDom t d.val).fault = true ∧
      (getDom t d.val).req = false ∧
      (∀ k, isLeaf k = true → leafDom k = d.val → (getUnit t k).quarantine = true) ∧
      (d.val < 2 → ∀ l, l < 16 → trainOf l = d.val → (getLane t l).faulted = true ∧ (getLane t l).kat = false) ∧
      (d.val = 2 → ∀ b, b < 8 → (getBench t b).faulted = true ∧ (getBench t b).kat = false) ∧
      recordOffered s t 18 0x904 0 [w32 d.val, w32 (bit gating)] ∧ (relayOn s = true → sourceRaised t 242) ∧
      keepsBut [.units, .lanes, .house, .relay, .ledger, .ai, .ration] s t)

/-- R441, R442: UNGATE of a gated domain without a fault wakes it, GATE of a powered domain that may be gated starts its drain, a drain
starts by itself under its conditions and is cancelled by a command of its own, and an empty domain that nothing keeps is gated. -/
def Obligations.GatingRuns : Prop :=
  (∀ (p : CtlPort) (d : BitVec 2) (s : State), mayTake s p raCmd 4 = true → raFault s d = none → (getDom s d.toNat).phase = .gated →
    (getDom s d.toNat).fault = false →
    ∃ t, exec (.ungate p d) s = .next t ∧ (getDom t d.toNat).phase = .waking ∧ (getDom t d.toNat).req = true ∧
      t.ration.cmd = some (true, d.toNat) ∧ keepsBut [.ration] (tookWrite s p raCmd 4) t) ∧
  (∀ (p : CtlPort) (d : BitVec 2) (s : State), mayTake s p raCmd 4 = true → raFault s d = none → (getDom s d.toNat).phase = .powered →
    domKept s d.toNat = false →
    ∃ t, exec (.gate p d) s = .next t ∧ (getDom t d.toNat).phase = .draining ∧ t.ration.cmd = some (false, d.toNat) ∧
      keepsBut [.jobs, .lanes, .muster, .serai, .ledger, .ai, .ration] (tookWrite s p raCmd 4) t) ∧
  (∀ (d : Fin 3) (s : State), drainMay s d.val = true →
    ∃ t, exec (.drainStart d) s = .next t ∧ (getDom t d.val).phase = .draining ∧
      keepsBut [.jobs, .lanes, .muster, .serai, .ledger, .ai, .ration] s t) ∧
  (∀ (d : Fin 3) (s : State), portsServed s = true → (getDom s d.val).phase = .draining →
    ∃ t, exec (.drainCancelled d) s = .next t ∧ (getDom t d.val).phase = .powered ∧
      recordOffered s t 18 0x903 0 [w32 (d.val + 8)] ∧ keepsBut [.ledger, .ration] s t) ∧
  (∀ (d : Fin 3) (s : State), portsServed s = true → (getDom s d.val).phase = .draining → domEmpty s d.val = true →
    domKept s d.val = false →
    ∃ t, exec (.domainGated d) s = .next t ∧ (getDom t d.val).phase = .gating ∧ (getDom t d.val).req = false ∧
      t.ration.gatings = s.ration.gatings + 1 ∧ keepsBut [.jobs, .serai, .house, .relay, .ledger, .ai, .ration] s t) ∧
  (∀ (n : Fin 2) (s : State), s.mode.mode = .service → tb s.ration.auto n.val = true → (getDom s n.val).phase = .gated →
    (getDom s n.val).fault = false → yokeWants s n.val = true →
    ∃ t, exec (.trainWake n) s = .next t ∧ (getDom t n.val).phase = .waking ∧ (getDom t n.val).req = true ∧
      keepsBut [.ration] s t)

/-- R431, R438, R447: an epoch ends with its estimate, the largest estimate is kept until it is cleared, and the thermal alarm starts a
throttle that ends only after the alarm has fallen. Where the spec leaves a choice, the model's is log entries 3 and 51. -/
def Obligations.EpochsAndThrottles : Prop :=
  (∀ s : State, awake s = true →
    ∃ t, exec .epochEnd s = .next t ∧ t.ration.est = BitVec.ofNat 9 (powerNow s / 96000) ∧ t.ration.epoch = s.ration.epoch + 1 ∧
      t.ration.phase = 0 ∧ t.ration.runLane = [] ∧ t.ration.budgetNow = s.ration.budget ∧ s.ration.estMax.toNat ≤ t.ration.estMax.toNat ∧
      t.ration.est.toNat ≤ t.ration.estMax.toNat ∧ keepsBut [.muster, .relay, .ledger, .ai, .ration] s t) ∧
  (∀ (p : CtlPort) (s : State), mayTake s p 0xC00038 4 = true →
    ∃ t, exec (.estMaxClear p) s = .next t ∧ t.ration = { s.ration with estMax := 0 } ∧ keepsBut [.ration] (tookWrite s p 0xC00038 4) t) ∧
  (∀ s : State, s.pins.thermal = false → awake s = true → s.ration.thermal = false →
    ∃ t, exec .thermalAlarm s = .next t ∧ t.pins = { s.pins with thermal := true } ∧ t.ration.thermal = true ∧ t.muster.throttle = true ∧
      keepsBut [.muster, .relay, .ledger, .ai, .ration, .pins] s t) ∧
  (∀ s : State, ∃ t, exec .thermalAlarmFall s = .next t ∧ t.pins = { s.pins with thermal := false } ∧ keepsBut [.pins] s t) ∧
  (∀ s : State, s.ration.thermal = true → s.pins.thermal = false →
    ∃ t, exec .thermalThrottleClear s = .next t ∧ t.ration = { s.ration with thermal := false } ∧
      t.muster.throttle = s.ration.throttle ∧ keepsBut [.muster, .relay, .ledger, .ai, .ration] s t) ∧
  (∀ s : State, (s.ration.thermal = false ∨ s.pins.thermal = true) → exec .thermalThrottleClear s = .next s)

/-! ### Rings -/

/-- R32, R39, R52, R141: DOORBELL on a RUNNING ring counts and sets PENDING, and on another does nothing; START of a configured ring makes
it RUNNING with the expected time at LAG_FLOOR, and in Service a scan that STOP had ended goes on (the model's choice, log entry 61); no
other ring changes. A host ring that is STARTed while the link is lost is FROZEN at once (the model's choice, log entry 68). -/
def Obligations.DoorbellAndStart : Prop :=
  (∀ (p : CtlPort) (ring : Fin 4096) (s : State), served s = true → (getRing s ring.val).state = .running →
    ∃ t, exec (.doorbell p ring) s = .next t ∧ (getRing t ring.val).pending = true ∧
      (getRing t ring.val).doorbells = (getRing s ring.val).doorbells + 1 ∧ (getRing t ring.val).taken = (getRing s ring.val).taken ∧
      (∀ r, r ≠ ring.val → getRing t r = getRing s r) ∧ keepsBut [.rings, .ai] (respond s p false) t) ∧
  (∀ (p : CtlPort) (ring : Fin 4096) (s : State), served s = true → (getRing s ring.val).state ≠ .running →
    exec (.doorbell p ring) s = .next (respond s p false)) ∧
  (∀ (p : CtlPort) (ring : Fin 4096) (s : State), mayTake s p (wsCmd ring.val) 4 = true → (s.mode.mode = .provision ∨
    s.mode.mode = .service) →
    ((getRing s ring.val).state = .disabled ∨ (getRing s ring.val).state = .stopped) → (getRing s ring.val).bound = true →
    6 ≤ (getRing s ring.val).logSize.toNat → (getRing s ring.val).logSize.toNat ≤ 16 → (getRing s ring.val).base ≠ 0 →
    (getRing s ring.val).headAddr ≠ 0 → ((getRing s ring.val).spaceLocal = true ∨ s.pins.linkLost = false) →
    ∃ t, exec (.ringStart p ring) s = .next t ∧ (getRing t ring.val).state = .running ∧ (getRing t ring.val).cmdBusy = false ∧
      (getRing t ring.val).cmdResult = Status.done.code ∧ (getRing t ring.val).expTime = s.muster.lagFloor.toNat ∧
      (getRing t ring.val).taken = (getRing s ring.val).taken ∧
      ((getRing s ring.val).scanCut = false ∨ s.mode.mode = .provision → getRing t ring.val = { getRing s ring.val with
        state := .running, cmdBusy := false, cmdResult := Status.done.code, expTime := s.muster.lagFloor.toNat }) ∧
      ((getRing s ring.val).scanCut = true → s.mode.mode = .service → s.mode.stopping = false → ringTouched s ring.val = false →
        recovAt s ring.val 1 = false → (getRing s ring.val).inflight < 1024 → (getRing t ring.val).scanning = true) ∧
      (∀ r, r ≠ ring.val → getRing t r = getRing s r) ∧ keepsBut [.rings, .ai, .ration] (tookWrite s p (wsCmd ring.val) 4) t) ∧
  (∀ (p : CtlPort) (ring : Fin 4096) (s : State), mayTake s p (wsCmd ring.val) 4 = true →
    (s.mode.mode = .provision ∨ s.mode.mode = .service) →
    ((getRing s ring.val).state = .disabled ∨ (getRing s ring.val).state = .stopped) → (getRing s ring.val).bound = true →
    6 ≤ (getRing s ring.val).logSize.toNat → (getRing s ring.val).logSize.toNat ≤ 16 → (getRing s ring.val).base ≠ 0 →
    (getRing s ring.val).headAddr ≠ 0 → (getRing s ring.val).spaceLocal = false → s.pins.linkLost = true →
    ∃ t, exec (.ringStart p ring) s = .next t ∧ (getRing t ring.val).state = .frozen ∧ (getRing t ring.val).frozenFrom = .running ∧
      (getRing t ring.val).scanning = false ∧ (getRing t ring.val).cmdResult = Status.done.code ∧
      (∀ r, r ≠ ring.val → getRing t r = getRing s r) ∧ keepsBut [.rings, .ai] (tookWrite s p (wsCmd ring.val) 4) t)

/-- R39 to R41, R128: a scan starts for a PENDING ring, resumes when INFLIGHT allows, and goes on when a reorder slot is free. -/
def Obligations.ScansRun : Prop :=
  (∀ (ring : Fin 4096) (s : State), (getRing s ring.val).pending = true → (getRing s ring.val).scanning = false →
    (getRing s ring.val).scanHeld = false → scanMay s ring.val = true → (getRing s ring.val).inflight < 1024 →
    ∃ t, exec (.scanStart ring) s = .next t ∧ (getRing t ring.val).pending = false ∧ (getRing t ring.val).scanning = true ∧
      (getRing t ring.val).taken = (getRing s ring.val).taken ∧ keepsBut [.rings, .ai, .ration] s t) ∧
  (∀ (ring : Fin 4096) (s : State), (getRing s ring.val).scanHeld = true → (getRing s ring.val).inflight < 1024 →
    scanMay s ring.val = true →
    ∃ t, exec (.scanResume ring) s = .next t ∧ (getRing t ring.val).scanning = true ∧ (getRing t ring.val).scanHeld = false ∧
      keepsBut [.rings, .ai, .ration] s t) ∧
  (∀ (ring : Fin 4096) (s : State), (getRing s ring.val).scanning = true → (getRing s ring.val).waitSlot = true →
    slotFree s ring.val = true → scanMay s ring.val = true → examined (getRing s ring.val) = none →
    ∃ t, exec (.slotAvailable ring) s = .next t ∧ (getRing t ring.val).waitSlot = false ∧ (getRing t ring.val).scanning = true ∧
      keepsBut [.rings, .jobs, .nextJob, .muster, .ai, .ration] s t) ∧
  (∀ (ring : Fin 4096) (ws : List W64) (s : State), (getRing s ring.val).scanning = true → (getRing s ring.val).waitSlot = true →
    slotFree s ring.val = true → scanMay s ring.val = true → examined (getRing s ring.val) = some ws →
    e0Phase (ws.getD 0 0) = expectedPhase (getRing s ring.val).taken.toNat (getRing s ring.val).logSize.toNat →
    ∃ t, exec (.slotAvailable ring) s = .next t ∧ t.muster.roFree < s.muster.roFree ∧ s.nextJob < t.nextJob ∧
      (getRing s ring.val).inflight < (getRing t ring.val).inflight ∧ keepsBut [.rings, .jobs, .nextJob, .muster, .ai, .ration] s t)

/-- R52, R53, R54: STOP of a RUNNING ring ends its scan; with nothing in flight and no count write outstanding the ring is STOPPED at
once, with RESULT DONE, and otherwise STOPPING. RESET begins in every state but RESETTING, keeps its counts for its record, and when
nothing of the ring is outstanding it ends STOPPED with its counts at 0, its record offered. R50, R45, R46: the HOLDOFF interval that ends
without a held request is over; one with a held request makes it and starts again. STATUS is written once the job has ended and its data
writes are acknowledged. Where the spec leaves a choice, the model's is log entries 22 and 61. -/
def Obligations.StopResetAndStatus : Prop :=
  ((∀ (p : CtlPort) (ring : Fin 4096) (s : State), mayTake s p (wsCmd ring.val) 4 = true → (getRing s ring.val).state = .running →
    twf none s.ai.accesses = true →
    ∃ t, exec (.ringStop p ring) s = .next t ∧ (getRing t ring.val).scanning = false ∧
      ((getRing s ring.val).inflight = 0 ∧ countOut s ring.val = false →
        (getRing t ring.val).state = .stopped ∧ (getRing t ring.val).cmdBusy = false ∧
          (getRing t ring.val).cmdResult = Status.done.code) ∧
      (¬((getRing s ring.val).inflight = 0 ∧ countOut s ring.val = false) →
        (getRing t ring.val).state = .stopping ∧ (getRing t ring.val).cmdBusy = true) ∧
      (getRing t ring.val).taken = (getRing s ring.val).taken ∧ (getRing t ring.val).count = (getRing s ring.val).count ∧
      (getRing t ring.val).inflight = (getRing s ring.val).inflight ∧ (∀ r, r ≠ ring.val → getRing t r = getRing s r) ∧
      keepsBut [.rings, .ai] (tookWrite s p (wsCmd ring.val) 4) t) ∧
  (∀ (p : CtlPort) (ring : Fin 4096) (s : State), mayTake s p (wsCmd ring.val) 4 = true → (getRing s ring.val).state ≠ .resetting →
    ∃ t, exec (.ringReset p ring) s = .next t ∧ (getRing t ring.val).state = .resetting ∧ (getRing t ring.val).cmdBusy = true ∧
      (getRing t ring.val).scanning = false ∧ (getRing t ring.val).rstTaken = (getRing s ring.val).taken ∧
      (getRing t ring.val).rstCount = (getRing s ring.val).count ∧ (getRing t ring.val).rstJobs = (getRing s ring.val).inflight ∧
      keepsBut [.units, .rings, .jobs, .lanes, .muster, .serai, .mint, .house, .scales, .well, .relay, .ledger, .ai] (tookWrite s p (wsCmd ring.val) 4) t) ∧
  (∀ (ring : Fin 4096) (s : State), (getRing s ring.val).state = .resetting → resetOver s ring.val = true →
    ∃ t, exec (.ringResetComplete ring) s = .next t ∧ (getRing t ring.val).state = .stopped ∧ (getRing t ring.val).taken = 0 ∧
      (getRing t ring.val).count = 0 ∧ (getRing t ring.val).inflight = 0 ∧ (getRing t ring.val).cmdBusy = false ∧
      recordOffered s t 1 0x101 0 [w32 ring.val, w32 (getRing s ring.val).rstJobs, (getRing s ring.val).rstTaken,
        (getRing s ring.val).rstCount] ∧
      (∀ r, r ≠ ring.val → getRing t r = getRing s r) ∧ keepsBut [.rings, .jobs, .muster, .ledger, .ai] s t)) ∧
  ((∀ (ring : Fin 4096) (s : State), (getRing s ring.val).holding = true → (getRing s ring.val).msgHeld = true →
    (getRing s ring.val).irqEn = true →
    ∃ t, exec (.holdoffExpiry ring) s = .next t ∧ tget false t.ai.irqPending ring.val = true ∧
      getRing t ring.val = { getRing s ring.val with msgHeld := false } ∧ (∀ r, r ≠ ring.val → getRing t r = getRing s r) ∧
      keepsBut [.rings, .ai] s t) ∧
  (∀ (ring : Fin 4096) (s : State), (getRing s ring.val).holding = true → (getRing s ring.val).msgHeld = false →
    ∃ t, exec (.holdoffExpiry ring) s = .next t ∧ getRing t ring.val = { getRing s ring.val with holding := false, msgHeld := false } ∧
      (∀ r, r ≠ ring.val → getRing t r = getRing s r) ∧ keepsBut [.rings] s t) ∧
  (∀ (j : Nat) (s : State), jobExists s j = true → (getJob s j).seat = .ended → (getJob s j).noStatus = false →
    writesDone s j = true → statusMay s (getJob s j).ring = true →
    ∃ t, exec (.statusWrite j) s = .next t ∧ (getJob t j).seat = .statusOut ∧ (getJob t j).status = (getJob s j).status ∧
      s.ai.nextAccess < t.ai.nextAccess ∧ keepsBut [.jobs, .muster, .ai, .ration] s t))

/-! ### Routes and unit windows -/

/-- R67, R68, R69: a slot write in Provision lands and makes the route invalid; VALIDATE starts, and ends DONE with the route valid when
every slot passes, or ENCODING with the first slot that fails; INVALIDATE ends at once. R15, R16, R174: ENABLE changes one unit's bit;
QUARANTINE_SET in Provision quarantines every leaf below the unit, and QUARANTINE_RELEASE releases every one and starts its known-answer
test where it is powered: a FAULTED leaf stays FAULTED until that test; on an unpowered leaf no test starts (the model's choice, log entry
61). Outside Provision a write that would change QUARANTINE is refused and logged, with the word of log entry 57. -/
def Obligations.RoutesAndUnitControls : Prop :=
  ((∀ (p : CtlPort) (route : BitVec 10) (slot : BitVec 5) (insn : W64) (s : State), mayTake s p (rtSlot route.toNat slot.toNat) 8 = true →
    s.mode.mode = .provision →
    route ≠ 0 →
    ∃ t, exec (.routeSlotWrite p route slot insn) s = .next t ∧ (getRoute t route.toNat).valid = false ∧
      (getRoute t route.toNat).slots = tset 0 (getRoute s route.toNat).slots slot.toNat insn ∧
      (∀ r, r ≠ route.toNat → getRoute t r = getRoute s r) ∧ keepsBut [.routes] (tookWrite s p (rtSlot route.toNat slot.toNat) 8) t) ∧
  (∀ (p : CtlPort) (route : BitVec 10) (rlen : BitVec 6) (s : State), mayTake s p rtCmd 4 = true → s.mode.mode = .provision →
    s.routes.busy = false →
    ∃ t, exec (.routeValidate p route rlen) s = .next t ∧ t.routes.busy = true ∧ t.routes.route = route.toNat ∧
      t.routes.rlen = rlen.toNat ∧ (getRoute t route.toNat).valid = false ∧
      (∀ r, r ≠ route.toNat → getRoute t r = getRoute s r) ∧ keepsBut [.routes] (tookWrite s p rtCmd 4) t) ∧
  (∀ s : State, s.routes.busy = true → 1 ≤ s.routes.rlen → s.routes.rlen ≤ 32 → s.routes.route ≠ 0 →
    ∃ t, exec .validateComplete s = .next t ∧ t.routes.busy = false ∧
      (firstBad s s.routes.route s.routes.rlen = none → t.routes.result = Status.done.code ∧
        (getRoute t s.routes.route).valid = true ∧ (getRoute t s.routes.route).rlen = s.routes.rlen) ∧
      (∀ i, firstBad s s.routes.route s.routes.rlen = some i → t.routes.result = Status.encoding.code ∧ t.routes.badv = true ∧
        t.routes.badpos = BitVec.ofNat 5 i ∧ t.routes.routes = s.routes.routes) ∧ keepsBut [.routes] s t) ∧
  (∀ (p : CtlPort) (route : BitVec 10) (s : State), mayTake s p rtCmd 4 = true → s.mode.mode = .provision → s.routes.busy = false →
    route ≠ 0 →
    ∃ t, exec (.routeInvalidate p route) s = .next t ∧ (getRoute t route.toNat).valid = false ∧ t.routes.result = Status.done.code ∧
      (∀ r, r ≠ route.toNat → getRoute t r = getRoute s r) ∧ keepsBut [.routes] (tookWrite s p rtCmd 4) t)) ∧
  ((∀ (p : CtlPort) (u : Fin 32) (v : Bool) (s : State), mayTake s p (uwCtrl u.val) 4 = true →
    ∃ t, exec (.enableWrite p u v) s = .next t ∧ getUnit t u.val = { getUnit s u.val with enable := v } ∧
      (∀ k, k ≠ u.val → getUnit t k = getUnit s k) ∧ keepsBut [.units] (tookWrite s p (uwCtrl u.val) 4) t) ∧
  (∀ (p : CtlPort) (u : Fin 32) (s : State), mayTake s p (uwCtrl u.val) 4 = true → s.mode.mode = .provision →
    ∃ t, exec (.quarantineSet p u) s = .next t ∧ (∀ k, k ∈ leavesOf u.val → (getUnit t k).quarantine = true) ∧
      (∀ k, k ∉ leavesOf u.val → getUnit t k = getUnit s k) ∧ keepsBut [.units, .lanes] (tookWrite s p (uwCtrl u.val) 4) t) ∧
  (∀ (p : CtlPort) (u : Fin 32) (s : State), mayTake s p (uwCtrl u.val) 4 = true → s.mode.mode = .provision →
    ∃ t, exec (.quarantineRelease p u) s = .next t ∧ (∀ k, k ∈ leavesOf u.val → (getUnit t k).quarantine = false) ∧
      (∀ l, l < 16 → laneUnit l ∈ leavesOf u.val → (getUnit s (laneUnit l)).quarantine = true →
        getLane t l = { getLane s l with kat := domOn s (trainOf l), retest := true }) ∧
      (∀ b, b < 8 → benchUnit b ∈ leavesOf u.val → (getUnit s (benchUnit b)).quarantine = true →
        getBench t b = { getBench s b with kat := domOn s 2 }) ∧
      (∀ k, k ∉ leavesOf u.val → getUnit t k = getUnit s k) ∧ keepsBut [.units, .lanes, .house] (tookWrite s p (uwCtrl u.val) 4) t) ∧
  (∀ (p : CtlPort) (u : Fin 32) (s : State), mayTake s p (uwCtrl u.val) 4 = true → s.mode.mode ≠ .provision → quarRead s u.val = false →
    ∃ t, exec (.quarantineSet p u) s = .next t ∧
      recordOffered s t 2 1 Status.accessFault.code [w32 (uwCtrl u.val + 2 ^ 24 * portBit p + 2 ^ 25),
        getHalf (w64 ((unitCtrlWord s u.val).toNat % 4 + 4)) false] ∧ keepsBut [.ledger] (tookWrite s p (uwCtrl u.val) 4) t))

/-! ### The adapter interface -/

/-- R373, R376: interconnect reset and clock. The reset takes every credit, flushes the two Fords and writes off what is outstanding,
without a quarantine; its
release and the clock's stop and return change nothing but the adapter's side. R368, R391: the freeze line puts a block in Provision or
Service into Containment, and a Recovery is to be abandoned; its fall ends nothing by itself (R378). Where the spec leaves a choice, the
model's is log entry 19. -/
def Obligations.AdapterPinsAct : Prop :=
  ((∀ s : State, s.pins.icRst = false → awake s = true → (∀ k, k < 4 → outstanding s k = []) →
    ∃ t, exec .icResetAssert s = .next t ∧ t.pins = { s.pins with icRst := true } ∧
      (∀ k, k < 4 → (getPort t k).reqCrd = 0 ∧ (getPort t k).dataCrd = 0 ∧ (getPort t k).issued = (getPort s k).issued) ∧
      t.ai.fordFlushes = s.ai.fordFlushes + 2 ∧ keepsBut [.ledger, .ai, .pins, .free] s t) ∧
  (∀ s : State, s.pins.icRst = false → awake s = true → s.sided = true →
    ∃ t, exec .icResetAssert s = .next t ∧ t.pins = { s.pins with icRst := true } ∧
      (∀ k, k < 4 → (getPort t k).reqCrd = 0 ∧ (getPort t k).dataCrd = 0 ∧ (getPort t k).issued = (getPort s k).issued ∧
        (∀ tag, tget none (getPort t k).reads tag = none ∧ tget none (getPort t k).writes tag = none) ∧
        (getPort t k).quarReads = (getPort s k).quarReads ∧ (getPort t k).quarWrites = (getPort s k).quarWrites ∧
        (getPort t k).woff = (getPort s k).woff + w32 (outstanding s k).length) ∧
      t.ai.fordFlushes = s.ai.fordFlushes + 2 ∧ t.fuse = s.fuse ∧ t.watch = s.watch ∧ t.mode = s.mode ∧ t.almanac = s.almanac ∧
      t.pending = s.pending) ∧
  (∀ s : State, s.pins.icRst = true → awake s = true →
    ∃ t, exec .icResetRelease s = .next t ∧ t.pins = { s.pins with icRst := false } ∧ recordOffered s t 14 0x604 0 [6] ∧
      keepsBut [.ledger, .ai, .pins] s t) ∧
  (∀ s : State, awake s = true → ∃ t, exec .icClockStopped s = .next t ∧ t.ai = { s.ai with icStop := true } ∧ keepsBut [.ai] s t) ∧
  (∀ s : State, ∃ t, exec .icClockReturn s = .next t ∧ t.ai.icStop = false ∧ keepsBut [.ai, .ration] s t)) ∧
  ((∀ s : State, s.pins.freeze = false → (s.mode.mode = .provision ∨ s.mode.mode = .service) →
    ∃ t, exec .freeze s = .next t ∧ t.pins = { s.pins with freeze := true } ∧ t.mode.mode = .containment ∧ t.ai.contained = true ∧
      t.fuse = s.fuse ∧ t.watch = s.watch ∧ t.pending = s.pending) ∧
  (∀ (v : Recov) (s : State), s.pins.freeze = false → s.mode.mode = .recovery → s.mode.recov = some v →
    ∃ t, exec .freeze s = .next t ∧ t.pins.freeze = true ∧
      t.mode = { s.mode with recov := some { v with abandonFreeze := true }, freezeAt := some s.cycle } ∧
      keepsBut [.pins, .mode, .ledger, .ai] s t) ∧
  (∀ s : State, s.pins.freeze = true →
    ∃ t, exec .freezeOff s = .next t ∧ t.pins = { s.pins with freeze := false } ∧ keepsBut [.pins, .ledger, .ai, .ration] s t))

/-- R367, R391, R58: loss of the host link contains the host rings: with no request waiting, every RUNNING or STOPPING host ring is
FROZEN and remembers its state, and no adapter-local ring changes. No waiting host request stays: each fails with HOST_LOST, which ends
the running job whose read it is, and a STATUS write that waits is not made. The link's return resumes nothing. Where the spec leaves a choice,
the model's is log entry 18. -/
def Obligations.LinkLossFreezesHostRings : Prop :=
  (∀ s : State, s.pins.linkLost = false → portsServed s = true → s.ai.untranslated = [] → (∀ k, k < 4 → (getPort s k).queue = []) →
    twf {} s.rings = true →
    ∃ t, exec .linkLost s = .next t ∧ t.pins = { s.pins with linkLost := true } ∧ t.mode.hostContained = true ∧
      t.ai.linkLosses = s.ai.linkLosses + 1 ∧ t.mode.mode = s.mode.mode ∧
      (∀ r, (getRing s r).spaceLocal = false → ((getRing s r).state = .running ∨ (getRing s r).state = .stopping) →
        (getRing t r).state = .frozen ∧ (getRing t r).frozenFrom = (getRing s r).state ∧ (getRing t r).count = (getRing s r).count) ∧
      (∀ r, (getRing s r).spaceLocal = true → getRing t r = getRing s r) ∧
      keepsBut [.pins, .mode, .rings, .ledger, .relay, .ai] s t) ∧
  (∀ s : State, s.pins.linkLost = false → portsServed s = true →
    ∃ t, exec .linkLost s = .next t ∧ t.pins = { s.pins with linkLost := true } ∧
      (∀ r, r ∈ t.ai.untranslated → r.spaceLocal = true) ∧ (∀ k, k < 4 → ∀ r, r ∈ (getPort t k).queue → r.spaceLocal = true) ∧
      (∀ r a, (r ∈ s.ai.untranslated ∨ ∃ k, k < 4 ∧ r ∈ (getPort s k).queue) → r.spaceLocal = false →
        tget none s.ai.accesses r.access = some a → a.left ≤ 1 → a.fail = none →
        (∀ j st off l, a.who = .jobRead j st off → (getJob s j).seat = .running l → (getJob s j).isOver = false →
          (getJob t j).isOver = true ∧ (getJob t j).status = .hostLost) ∧
        (∀ j, a.who = .status j → jobExists s j = true → (getJob t j).seat = .ended)) ∧
      t.fuse = s.fuse ∧ t.watch = s.watch ∧ t.pending = s.pending) ∧
  (∀ s : State, s.pins.linkLost = true → portsServed s = true →
    ∃ t, exec .linkReturned s = .next t ∧ t.pins = { s.pins with linkLost := false } ∧ recordOffered s t 14 0x604 0 [2] ∧
      keepsBut [.pins, .ledger, .ai] s t)

/-- R364, R56, R365: a function level reset puts every host ring of the function under RESET, whatever its state, drops the function's
translations and discards its translation requests; no other ring changes, it is counted, and an FLR record names the function and its
rings. It is done once every one of those rings has reached STOPPED: with rings it waits for them, and one without is done at once. The
idle latency tolerance is proposed once no condition for the active one holds. Where the spec leaves a choice, the model's is log entry 3.
-/
def Obligations.FunctionLevelResetAndLatency : Prop :=
  (∀ (func : W16) (s : State), portsServed s = true → s.pins.icRst = false → func ∉ s.ai.flrs → s.ai.flrs.length < 8 →
    twf {} s.rings = true → twf {} s.jobs = true →
    ∃ t, exec (.functionLevelReset func) s = .next t ∧ (∀ e, e ∈ t.ai.atc → e.func ≠ func) ∧
      (∀ r, r ∈ flrRings s func → (getRing t r).flrPend = true ∧ (getRing t r).state = .resetting ∧
        (getRing t r).cmdResult = (getRing s r).cmdResult) ∧
      (∀ r, r ∈ flrRings s func → (getRing s r).state ≠ .resetting → (getRing t r).cmdBusy = false ∧ (getRing t r).scanning = false ∧
        (getRing t r).rstTaken = (getRing s r).taken ∧ (getRing t r).rstCount = (getRing s r).count) ∧
      (∀ r, r ∉ flrRings s func → getRing t r = getRing s r) ∧
      (∀ tag q, tget none s.ai.atsOut tag = some q → q.func = func → tget none t.ai.atsOut tag = some { q with dropped := true }) ∧
      t.ai.flrCount = s.ai.flrCount + 1 ∧
      (flrRings s func ≠ [] → t.ai.flrs = s.ai.flrs ++ [func] ∧ t.ai.flrDone = s.ai.flrDone) ∧
      (∃ x, t.ledger.waiting.getLast? = some x ∧ x.producer = 14 ∧ x.type = 0x605 ∧
        x.body = [w32 func.toNat, w32 (flrRings s func).length]) ∧
      keepsBut [.units, .rings, .jobs, .lanes, .muster, .serai, .mint, .house, .scales, .well, .relay, .ledger, .ai] s t) ∧
  (∀ (func : W16) (s : State), portsServed s = true → s.pins.icRst = false → func ∉ s.ai.flrs → s.ai.flrs.length < 8 →
    flrRings s func = [] → (∀ kv, kv ∈ s.rings → kv.2.flrPend = true → kv.2.func ≠ func) →
    ∃ t, exec (.functionLevelReset func) s = .next t ∧ t.ai.flrDone = func :: s.ai.flrDone ∧ t.ai.flrs = s.ai.flrs ∧
      t.ai.flrCount = s.ai.flrCount + 1 ∧ recordOffered s t 14 0x605 0 [w32 func.toNat, 0] ∧ keepsBut [.ledger, .ai] s t) ∧
  (∀ s : State, s.mode.mode = .service → ltrBusy s = false → s.ai.ltr ≠ s.ai.ltrIdle →
    ∃ t, exec .ltrIdle s = .next t ∧ t.ai = { s.ai with ltr := s.ai.ltrIdle, ltrUpdates := s.ai.ltrUpdates + 1 } ∧ keepsBut [.ai] s t)

/-- R363, R380: an invalidation leaves no covered entry in the translation cache, waits for the outstanding reads whose page of the cache it
covers, and is answered once none of them is left; a translation request of before notes it, and its completion is then not used; the
commands of AI_ATC_CMD empty the cache, whole or for a function. R362: a completion that allows every access waiting for its page enters
the cache, and none of them waits any more. Where the spec leaves a choice, the model's is log entries 20 and 21. -/
def Obligations.TranslationCacheRuns : Prop :=
  ((∀ (itag : BitVec 5) (func : W16) (pv : Bool) (pasid : BitVec 20) (global : Bool) (range : W64) (s : State), awake s = true →
    s.pins.icRst = false → (s.ai.invs.filter (fun v => v.itag.isSome)).length < 32 →
    let v : InvScope := { func := some func, pasid := if global || !pv then none else some pasid,
                          range := some (range.toNat / 4096 * 4096, rangeLog range) }
    ∃ t, exec (.invalidationRequest itag func pv pasid global range) s = .next t ∧
      t.ai.invs = s.ai.invs ++ [{ itag := some itag, uses := entryUses s v }] ∧
      (∀ tag q, tget none s.ai.atsOut tag = some q → tget none t.ai.atsOut tag = some { q with since := v :: q.since }) ∧
      (∀ e, e ∈ t.ai.atc → e.func = func → (global = true ∨ pv = false ∨ (e.pv = true ∧ e.pasid = pasid)) →
        overlap (range.toNat / 4096 * 4096) (rangeLog range) e.page.toNat e.logSize = false) ∧ keepsBut [.ai] s t) ∧
  (∀ (itag : BitVec 5) (s : State), s.pins.icRst = false → s.ai.icStop = false →
    s.ai.invs.any (fun v => v.itag = some itag && v.uses = []) = true →
    ∃ t, exec (.invalidationDone itag) s = .next t ∧ t.ai.invDone = itag :: s.ai.invDone ∧ t.ai.atcInvals = s.ai.atcInvals + 1 ∧
      t.ai.atc = s.ai.atc ∧ keepsBut [.ai] s t) ∧
  (∀ (p : CtlPort) (s : State), mayTake s p 0x800018 4 = true → s.ai.atcBusy = false →
    ∃ t, exec (.invalidateAll p) s = .next t ∧ t.ai.atc = [] ∧ keepsBut [.ai] (tookWrite s p 0x800018 4) t) ∧
  (∀ (p : CtlPort) (func : W16) (s : State), mayTake s p 0x800018 4 = true → s.ai.atcBusy = false →
    ∃ t, exec (.invalidateFunc p func) s = .next t ∧ (∀ e, e ∈ t.ai.atc → e.func ≠ func) ∧ keepsBut [.ai] (tookWrite s p 0x800018 4) t)) ∧
  (∀ (tag : BitVec 6) (r w : Bool) (logSize : BitVec 6) (addr : W64) (q : AtsReq) (s : State), 12 ≤ logSize.toNat → logSize.toNat ≤ 30 →
    s.pins.icRst = false → tget none s.ai.atsOut tag.toNat = some q → q.dropped = false → isStale q logSize.toNat = false →
    (if q.write then w else r) = true →
    (∀ x, x ∈ s.ai.untranslated → waitsFor q x = true → (if x.write then w else r) = true) →
    ∃ t, exec (.translationCompletion tag 0 r w logSize addr) s = .next t ∧
      { func := q.func, pv := q.pv, pasid := q.pasid, logSize := logSize.toNat, r := r, w := w
        page := w64 (q.addr.toNat / 2 ^ logSize.toNat * 2 ^ logSize.toNat)
        frame := w64 (addr.toNat / 2 ^ logSize.toNat * 2 ^ logSize.toNat) : AtcEntry } ∈ t.ai.atc ∧
      (∀ x, x ∈ t.ai.untranslated → waitsFor q x = false) ∧ keepsBut [.ai, .ration] s t)

/-- R352, R353, R357, R358, R380: a beat of a read that is not the last leaves the request outstanding, and its data joins that of the
access; a beat that fails gives the request its failure, that of the lowest address first. The last beat, or the acknowledgement of a
write, ends the request under its tag and counts, as an error too where the request has failed (once for the response: log entry 17);
that is all where no requester is left, and where other parts of the access are outstanding the access has one part less to wait for. A
response under a quarantined tag is late, counted at the last beat (log entry 17), and nothing else. The last part of an access brings its
requester what it waits for: a read its bytes, to the Mint, the lane, the Porter or the scan, which takes the entry or ends (R36); a write
its end: a STATUS releases its job (R139), a count is published and its message and event follow (R48), a PUT frees its entry. One that
has failed gives the requester its status: a ring becomes FAULTED (R57), the Porter stops (R309), a job or a command of the Mint or of
Safe-conduct fails. Where the spec leaves a choice, the model's is log entries 17, 61 and 68. -/
def Obligations.ResponsesEndRequests : Prop :=
  ((∀ (port : Fin 4) (tag : Byte) (beat : BitVec 3) (data : BitVec 1024) (r : Req) (s : State), s.pins.icRst = false →
    tget 0 (getPort s port.val).quarReads tag.toNat = 0 → tget none (getPort s port.val).reads tag.toNat = some r →
    ∃ t, exec (.readResponse port tag beat false 0 data) s = .next t ∧
      tget none (getPort t port.val).reads tag.toNat = some { r with beats := r.beats - 1, came := beat.toNat :: r.came } ∧
      tget none t.ai.accesses r.access = (tget none s.ai.accesses r.access).map (fun a => { a with
        data := tfill 0 a.data ((beatBytes r beat.toNat data).1 - a.addr.toNat) (beatBytes r beat.toNat data).2 }) ∧
      (∀ i, i ≠ r.access → tget none t.ai.accesses i = tget none s.ai.accesses i) ∧
      t.ration.beats = s.ration.beats + 1 ∧ keepsBut [.ai, .ration, .tollgate, .relay, .ledger] s t) ∧
  (∀ (port : Fin 4) (tag : Byte) (beat : BitVec 3) (status : BitVec 2) (data : BitVec 1024) (r : Req) (s : State), s.pins.icRst = false →
    status ≠ 0 → tget 0 (getPort s port.val).quarReads tag.toNat = 0 → tget none (getPort s port.val).reads tag.toNat = some r →
    ∃ t, exec (.readResponse port tag beat false status data) s = .next t ∧
      tget none (getPort t port.val).reads tag.toNat = some { r with
        beats := r.beats - 1, came := beat.toNat :: r.came
        fail := lowerFail r.fail (some ((beatBytes r beat.toNat data).1, if status = 2 then .translationFault else .fabricError)) } ∧
      t.ai.accesses = s.ai.accesses ∧ keepsBut [.ai, .ration] s t) ∧
  (∀ (port : Fin 4) (tag : Byte) (beat : BitVec 3) (status : BitVec 2) (data : BitVec 1024) (r : Req) (s : State), s.pins.icRst = false →
    (headersAllowed s = false ∨ ∀ k, k < 4 → (getPort s k).queue = []) →
    tget 0 (getPort s port.val).quarReads tag.toNat = 0 → tget none (getPort s port.val).reads tag.toNat = some r →
    r.write = false → tget none s.ai.accesses r.access = none →
    ∃ t, exec (.readResponse port tag beat true status data) s = .next t ∧ tget none (getPort t port.val).reads tag.toNat = none ∧
      (getPort t port.val).resp = (getPort s port.val).resp + 1 ∧
      (getPort t port.val).err = (getPort s port.val).err + (if r.fail = none ∧ status = 0 then 0 else 1) ∧
      keepsBut [.ai, .ration, .tollgate, .relay, .ledger] s t) ∧
  (∀ (port : Fin 4) (tag : Byte) (beat : BitVec 3) (data : BitVec 1024) (r : Req) (a : Access) (s : State), s.pins.icRst = false →
    (headersAllowed s = false ∨ ∀ k, k < 4 → (getPort s k).queue = []) →
    tget 0 (getPort s port.val).quarReads tag.toNat = 0 → tget none (getPort s port.val).reads tag.toNat = some r →
    r.write = false → r.fail = none → tget none s.ai.accesses r.access = some a → 1 < a.left →
    ∃ t, exec (.readResponse port tag beat true 0 data) s = .next t ∧ tget none (getPort t port.val).reads tag.toNat = none ∧
      (getPort t port.val).resp = (getPort s port.val).resp + 1 ∧
      tget none t.ai.accesses r.access = some { a with
        left := a.left - 1, fail := lowerFail a.fail none
        data := tfill 0 a.data ((beatBytes r beat.toNat data).1 - a.addr.toNat) (beatBytes r beat.toNat data).2 } ∧
      keepsBut [.jobs, .ai, .ration, .tollgate, .relay, .ledger] s t) ∧
  (∀ (port : Fin 4) (tag : Byte) (beat : BitVec 3) (status : BitVec 2) (data : BitVec 1024) (s : State), s.pins.icRst = false →
    tget 0 (getPort s port.val).quarReads tag.toNat ≠ 0 →
    ∃ t, exec (.readResponse port tag beat true status data) s = .next t ∧
      getPort t port.val = { getPort s port.val with late := (getPort s port.val).late + 1 } ∧
      (∀ k, k ≠ port.val → getPort t k = getPort s k) ∧ keepsBut [.ai] s t)) ∧
  ((∀ (port : Fin 4) (tag : Byte) (status : BitVec 2) (r : Req) (s : State), s.pins.icRst = false →
    (headersAllowed s = false ∨ ∀ k, k < 4 → (getPort s k).queue = []) →
    tget 0 (getPort s port.val).quarWrites tag.toNat = 0 → tget none (getPort s port.val).writes tag.toNat = some r →
    r.write = true → tget none s.ai.accesses r.access = none →
    ∃ t, exec (.writeAcknowledgement port tag status) s = .next t ∧ tget none (getPort t port.val).writes tag.toNat = none ∧
      (getPort t port.val).resp = (getPort s port.val).resp + 1 ∧
      (getPort t port.val).err = (getPort s port.val).err + (if status = 0 then 0 else 1) ∧
      keepsBut [.ai, .tollgate, .relay, .ledger] s t) ∧
  (∀ (port : Fin 4) (tag : Byte) (r : Req) (a : Access) (s : State), s.pins.icRst = false →
    (headersAllowed s = false ∨ ∀ k, k < 4 → (getPort s k).queue = []) →
    tget 0 (getPort s port.val).quarWrites tag.toNat = 0 → tget none (getPort s port.val).writes tag.toNat = some r →
    r.write = true → tget none s.ai.accesses r.access = some a → 1 < a.left →
    ∃ t, exec (.writeAcknowledgement port tag 0) s = .next t ∧ tget none (getPort t port.val).writes tag.toNat = none ∧
      (getPort t port.val).resp = (getPort s port.val).resp + 1 ∧
      tget none t.ai.accesses r.access = some { a with left := a.left - 1, fail := lowerFail a.fail none } ∧ keepsBut [.ai] s t) ∧
  (∀ (port : Fin 4) (tag : Byte) (status : BitVec 2) (s : State), s.pins.icRst = false →
    tget 0 (getPort s port.val).quarWrites tag.toNat ≠ 0 →
    ∃ t, exec (.writeAcknowledgement port tag status) s = .next t ∧
      getPort t port.val = { getPort s port.val with late := (getPort s port.val).late + 1 } ∧
      (∀ k, k ≠ port.val → getPort t k = getPort s k) ∧ keepsBut [.ai] s t) ∧
  (∀ (port : Fin 4) (tag : Byte) (beat : BitVec 3) (last : Bool) (status : BitVec 2) (data : BitVec 1024) (s : State),
    ∃ t u, exec (.readResponse port tag beat last status data) s = .next t ∧ exec (.writeAcknowledgement port tag status) s = .next u ∧
      ∀ v, v ∈ [t, u] → keepsBut [.units, .rings, .jobs, .nextJob, .muster, .serai, .mint, .house, .scales, .well, .tollgate, .porter,
        .relay, .ledger, .ai, .safe, .ration] s v)) ∧
  ((∀ (port : Fin 4) (tag : Byte) (beat : BitVec 3) (status : BitVec 2) (data : BitVec 1024) (r : Req) (s : State), s.pins.icRst = false →
    tget 0 (getPort s port.val).quarReads tag.toNat = 0 → tget none (getPort s port.val).reads tag.toNat = some r →
    ∃ t, exec (.readResponse port tag beat true status data) s = .next t ∧ (getPort t port.val).resp = (getPort s port.val).resp + 1 ∧
      (getPort t port.val).err = (getPort s port.val).err + (if r.fail = none ∧ status = 0 then 0 else 1) ∧
      (∀ k, k ≠ port.val → (getPort t k).resp = (getPort s k).resp ∧ (getPort t k).err = (getPort s k).err)) ∧
  (∀ (port : Fin 4) (tag : Byte) (status : BitVec 2) (r : Req) (s : State), s.pins.icRst = false →
    tget 0 (getPort s port.val).quarWrites tag.toNat = 0 → tget none (getPort s port.val).writes tag.toNat = some r →
    ∃ t, exec (.writeAcknowledgement port tag status) s = .next t ∧ (getPort t port.val).resp = (getPort s port.val).resp + 1 ∧
      (getPort t port.val).err = (getPort s port.val).err + (if status = 0 then 0 else 1) ∧
      (∀ k, k ≠ port.val → (getPort t k).resp = (getPort s k).resp ∧ (getPort t k).err = (getPort s k).err)) ∧
  (∀ (port : Fin 4) (tag : Byte) (beat : BitVec 3) (status : BitVec 2) (data : BitVec 1024) (r : Req) (a : Access) (f : Nat) (s : State),
    lastPart s false port.val tag.toNat r a = true → a.who = .record f →
    lowerFail a.fail (beatFail r beat.toNat status) = none → fillExists s f = true →
    ∃ t, exec (.readResponse port tag beat true status data) s = .next t ∧
      getFill t f = { getFill s f with bale := hasRead a r beat.toNat data, phase := .arrived } ∧
      (∀ k, k ≠ f → getFill t k = getFill s k) ∧
      keepsBut [.mint, .ai, .ration, .muster, .tollgate, .relay, .ledger] s t) ∧
  (∀ (port : Fin 4) (tag : Byte) (beat : BitVec 3) (status : BitVec 2) (data : BitVec 1024) (r : Req) (a : Access) (f : Nat) (x : Nat) (st : Status) (s : State),
    lastPart s false port.val tag.toNat r a = true → a.who = .record f →
    lowerFail a.fail (beatFail r beat.toNat status) = some (x, st) → fillExists s f = true →
    ∃ t, exec (.readResponse port tag beat true status data) s = .next t ∧
      getFill t f = { getFill s f with phase := .failed st } ∧
      keepsBut [.mint, .ai, .ration, .muster, .tollgate, .relay, .ledger] s t) ∧
  (∀ (port : Fin 4) (tag : Byte) (beat : BitVec 3) (status : BitVec 2) (data : BitVec 1024) (r : Req) (a : Access) (f : Nat) (s : State),
    lastPart s false port.val tag.toNat r a = true → a.who = .bale f →
    lowerFail a.fail (beatFail r beat.toNat status) = none → fillExists s f = true →
    ∃ t, exec (.readResponse port tag beat true status data) s = .next t ∧
      getFill t f = { getFill s f with bale := hasRead a r beat.toNat data, phase := .arrived } ∧
      (∀ k, k ≠ f → getFill t k = getFill s k) ∧
      keepsBut [.mint, .ai, .ration, .muster, .tollgate, .relay, .ledger] s t) ∧
  (∀ (port : Fin 4) (tag : Byte) (beat : BitVec 3) (status : BitVec 2) (data : BitVec 1024) (r : Req) (a : Access) (f : Nat) (x : Nat) (st : Status) (s : State),
    lastPart s false port.val tag.toNat r a = true → a.who = .bale f →
    lowerFail a.fail (beatFail r beat.toNat status) = some (x, st) → fillExists s f = true →
    ∃ t, exec (.readResponse port tag beat true status data) s = .next t ∧
      getFill t f = { getFill s f with phase := .failed st } ∧
      keepsBut [.mint, .ai, .ration, .muster, .tollgate, .relay, .ledger] s t) ∧
  (∀ (port : Fin 4) (tag : Byte) (beat : BitVec 3) (status : BitVec 2) (data : BitVec 1024) (r : Req) (a : Access) (s : State),
    lastPart s false port.val tag.toNat r a = true → a.who = .charterRead →
    lowerFail a.fail (beatFail r beat.toNat status) = none → s.mint.chStage = .reading →
    ∃ t, exec (.readResponse port tag beat true status data) s = .next t ∧
      t.mint = { s.mint with chStage := .here, chSeq := w64 (ofLe (slice (hasRead a r beat.toNat data) 8 8)) } ∧
      (getCtx t 2).mem = tfill 0 (getCtx s 2).mem 0 ((hasRead a r beat.toNat data).take 16384) ∧
      (getCtx t 3).mem = tfill 0 (getCtx s 3).mem 0 ((hasRead a r beat.toNat data).drop 16384) ∧
      keepsBut [.mint, .scales, .ai, .ration, .muster, .tollgate, .relay, .ledger] s t) ∧
  (∀ (port : Fin 4) (tag : Byte) (beat : BitVec 3) (status : BitVec 2) (data : BitVec 1024) (r : Req) (a : Access) (x : Nat) (st : Status) (s : State),
    lastPart s false port.val tag.toNat r a = true → a.who = .charterRead →
    lowerFail a.fail (beatFail r beat.toNat status) = some (x, st) → s.mint.chStage = .reading →
    ∃ t, exec (.readResponse port tag beat true status data) s = .next t ∧
      t.mint = { s.mint with chStage := .refused .fabricError 2 0 } ∧
      keepsBut [.mint, .ai, .ration, .muster, .tollgate, .relay, .ledger] s t) ∧
  (∀ (port : Fin 4) (tag : Byte) (beat : BitVec 3) (status : BitVec 2) (data : BitVec 1024) (r : Req) (a : Access) (s : State),
    lastPart s false port.val tag.toNat r a = true → a.who = .tallyRead →
    lowerFail a.fail (beatFail r beat.toNat status) = none → s.mint.chStage = .tally →
    ∃ t, exec (.readResponse port tag beat true status data) s = .next t ∧
      t.mint = { s.mint with chTally := hasRead a r beat.toNat data, chStage := .checked true } ∧
      keepsBut [.mint, .ai, .ration, .muster, .tollgate, .relay, .ledger] s t) ∧
  (∀ (port : Fin 4) (tag : Byte) (beat : BitVec 3) (status : BitVec 2) (data : BitVec 1024) (r : Req) (a : Access) (x : Nat) (st : Status) (s : State),
    lastPart s false port.val tag.toNat r a = true → a.who = .tallyRead →
    lowerFail a.fail (beatFail r beat.toNat status) = some (x, st) → s.mint.chStage = .tally →
    ∃ t, exec (.readResponse port tag beat true status data) s = .next t ∧
      t.mint = { s.mint with chTally := [], chStage := .checked false } ∧
      keepsBut [.mint, .ai, .ration, .muster, .tollgate, .relay, .ledger] s t) ∧
  (∀ (port : Fin 4) (tag : Byte) (beat : BitVec 3) (status : BitVec 2) (data : BitVec 1024) (r : Req) (a : Access) (j k off : Nat) (s : State),
    lastPart s false port.val tag.toNat r a = true → a.who = .jobRead j k off →
    lowerFail a.fail (beatFail r beat.toNat status) = none → jobExists s j = true →
    ∃ t, exec (.readResponse port tag beat true status data) s = .next t ∧
      getJob t j = { getJob s j with buf := (getJob s j).buf ++
        [(bufKey k (off + (r.addr.toNat - a.addr.toNat)), tread 0 (readWith a r beat.toNat data) (r.addr.toNat - a.addr.toNat) r.len)] } ∧
      keepsBut [.jobs, .ai, .ration, .muster, .tollgate, .relay, .ledger] s t) ∧
  (∀ (port : Fin 4) (tag : Byte) (beat : BitVec 3) (status : BitVec 2) (data : BitVec 1024) (r : Req) (a : Access) (j k off : Nat) (x : Nat) (st : Status) (s : State),
    lastPart s false port.val tag.toNat r a = true → a.who = .jobRead j k off →
    lowerFail a.fail (beatFail r beat.toNat status) = some (x, st) → jobExists s j = true →
    ∃ t, exec (.readResponse port tag beat true status data) s = .next t ∧
      jobFailed s t j st ∧
      keepsBut [.jobs, .units, .serai, .mint, .house, .scales, .well, .ai, .ration, .muster, .tollgate, .relay, .ledger] s t) ∧
  (∀ (port : Fin 4) (tag : Byte) (beat : BitVec 3) (status : BitVec 2) (data : BitVec 1024) (r : Req) (a : Access) (j b : Nat) (s : State),
    lastPart s false port.val tag.toNat r a = true → a.who = .manifest j b →
    lowerFail a.fail (beatFail r beat.toNat status) = none → jobExists s j = true →
    ∃ t, exec (.readResponse port tag beat true status data) s = .next t ∧
      (getJob t j).fragBlocks = b + 1 ∧
      (∀ k, k < 8 → fragSkip (getJob s j) ≤ 8 * b + k → 8 * b + k < fragSkip (getJob s j) + 4096 →
        tget 0 (getJob t j).frags (8 * b + k - fragSkip (getJob s j)) =
          BitVec.ofNat 128 (ofLe (slice (hasRead a r beat.toNat data) (16 * k) 16))) ∧
      keepsBut [.jobs, .units, .serai, .mint, .house, .scales, .well, .free, .ai, .ration, .muster, .tollgate, .relay, .ledger] s t) ∧
  (∀ (port : Fin 4) (tag : Byte) (beat : BitVec 3) (status : BitVec 2) (data : BitVec 1024) (r : Req) (a : Access) (j b : Nat) (x : Nat) (st : Status) (s : State),
    lastPart s false port.val tag.toNat r a = true → a.who = .manifest j b →
    lowerFail a.fail (beatFail r beat.toNat status) = some (x, st) → jobExists s j = true →
    ∃ t, exec (.readResponse port tag beat true status data) s = .next t ∧
      jobFailed s t j st ∧
      keepsBut [.jobs, .units, .serai, .mint, .house, .scales, .well, .ai, .ration, .muster, .tollgate, .relay, .ledger] s t) ∧
  (∀ (port : Fin 4) (tag : Byte) (beat : BitVec 3) (status : BitVec 2) (data : BitVec 1024) (r : Req) (a : Access) (k first : Nat) (s : State),
    lastPart s false port.val tag.toNat r a = true → a.who = .scan k first →
    lowerFail a.fail (beatFail r beat.toNat status) = none → a.len = 64 → first = (getRing s k).taken.toNat →
    (getRing s k).scanning = true → (getRing s k).waitSlot = false → (getRing s k).scanGot = [] → scanMay s k = true →
    e0Phase (w64 (ofLe (slice (hasRead a r beat.toNat data) 0 8))) ≠ expectedPhase (getRing s k).taken.toNat (getRing s k).logSize.toNat →
    ∃ t, exec (.readResponse port tag beat true status data) s = .next t ∧
      (getRing t k).scanning = false ∧ (getRing t k).taken = (getRing s k).taken ∧ (getRing t k).inflight = (getRing s k).inflight ∧
      (∀ q, q ≠ k → getRing t q = getRing s q) ∧
      keepsBut [.rings, .ai, .ration, .muster, .tollgate, .relay, .ledger] s t) ∧
  (∀ (port : Fin 4) (tag : Byte) (beat : BitVec 3) (status : BitVec 2) (data : BitVec 1024) (r : Req) (a : Access) (k first : Nat) (s : State),
    lastPart s false port.val tag.toNat r a = true → a.who = .scan k first →
    lowerFail a.fail (beatFail r beat.toNat status) = none → a.len = 64 → first = (getRing s k).taken.toNat →
    (getRing s k).scanning = true → (getRing s k).waitSlot = false → (getRing s k).scanGot = [] → scanMay s k = true →
    e0Phase (w64 (ofLe (slice (hasRead a r beat.toNat data) 0 8))) = expectedPhase (getRing s k).taken.toNat (getRing s k).logSize.toNat →
      slotFree s k = true →
    ∃ t, exec (.readResponse port tag beat true status data) s = .next t ∧
      (getRing t k).taken = (getRing s k).taken + 1 ∧ (getRing t k).takenTotal = (getRing s k).takenTotal + 1 ∧
      (getRing t k).inflight = (getRing s k).inflight + 1 ∧ (getRing t k).order = (getRing s k).order ++ [s.nextJob] ∧
      t.muster.roFree = s.muster.roFree - 1 ∧ t.nextJob = s.nextJob + 1 ∧
      (getJob t s.nextJob).ring = k ∧ (getJob t s.nextJob).seat = .arriving ∧
      (getJob t s.nextJob).word0 = w64 (ofLe (slice (hasRead a r beat.toNat data) 0 8)) ∧
      (getJob t s.nextJob).word1 = w64 (ofLe (slice (hasRead a r beat.toNat data) 8 8)) ∧
      (∀ i, i < 6 → (getJob t s.nextJob).slots.getD i 0 = w64 (ofLe (slice (hasRead a r beat.toNat data) (16 + 8 * i) 8))) ∧
      keepsBut [.rings, .jobs, .nextJob, .ai, .ration, .muster, .tollgate, .relay, .ledger] s t) ∧
  (∀ (port : Fin 4) (tag : Byte) (beat : BitVec 3) (status : BitVec 2) (data : BitVec 1024) (r : Req) (a : Access) (k first : Nat) (s : State),
    lastPart s false port.val tag.toNat r a = true → a.who = .scan k first →
    lowerFail a.fail (beatFail r beat.toNat status) = none → a.len = 64 → first = (getRing s k).taken.toNat →
    (getRing s k).scanning = true → (getRing s k).waitSlot = false → (getRing s k).scanGot = [] → scanMay s k = true →
    e0Phase (w64 (ofLe (slice (hasRead a r beat.toNat data) 0 8))) = expectedPhase (getRing s k).taken.toNat (getRing s k).logSize.toNat →
      slotFree s k = false →
    ∃ t, exec (.readResponse port tag beat true status data) s = .next t ∧
      (getRing t k).waitSlot = true ∧ (getRing t k).taken = (getRing s k).taken ∧
      keepsBut [.rings, .ai, .ration, .muster, .tollgate, .relay, .ledger] s t) ∧
  (∀ (port : Fin 4) (tag : Byte) (beat : BitVec 3) (status : BitVec 2) (data : BitVec 1024) (r : Req) (a : Access) (k first : Nat) (x : Nat) (st : Status) (s : State),
    lastPart s false port.val tag.toNat r a = true → a.who = .scan k first →
    lowerFail a.fail (beatFail r beat.toNat status) = some (x, st) → st ≠ .hostLost → (getRing s k).state ≠ .resetting →
    ∃ t, exec (.readResponse port tag beat true status data) s = .next t ∧
      ringFailed s t k st (w64 x) ∧
      keepsBut [.rings, .ai, .ration, .muster, .tollgate, .relay, .ledger] s t) ∧
  (∀ (port : Fin 4) (tag : Byte) (beat : BitVec 3) (status : BitVec 2) (data : BitVec 1024) (r : Req) (a : Access) (k : Nat) (x : Nat) (st : Status) (s : State),
    lastPart s false port.val tag.toNat r a = true → a.who = .scanGone k →
    lowerFail a.fail (beatFail r beat.toNat status) = some (x, st) → st ≠ .hostLost → (getRing s k).state ≠ .resetting →
    ∃ t, exec (.readResponse port tag beat true status data) s = .next t ∧
      ringFailed s t k st (w64 x) ∧
      keepsBut [.rings, .ai, .ration, .muster, .tollgate, .relay, .ledger] s t) ∧
  (∀ (port : Fin 4) (tag : Byte) (beat : BitVec 3) (status : BitVec 2) (data : BitVec 1024) (r : Req) (a : Access) (n e b : Nat) (c : Xfer) (s : State),
    lastPart s false port.val tag.toNat r a = true → a.who = .ptIndex n e b →
    lowerFail a.fail (beatFail r beat.toNat status) = none → (getChan s n).xfer = some c → (getChan s n).epoch = e →
    ∃ t, exec (.readResponse port tag beat true status data) s = .next t ∧
      ∃ d, (getChan t n).xfer = some d ∧ { d with idx := c.idx } = c ∧
        (∀ i, i < 32 → (getChan s n).act.index.toNat % 128 / 4 ≤ 32 * b + i →
          tget none d.idx (32 * b + i - (getChan s n).act.index.toNat % 128 / 4) =
            some (ofLe (slice (hasRead a r beat.toNat data) (4 * i) 4))) ∧ (∀ k, k ≠ n → getChan t k = getChan s k) ∧
      keepsBut [.porter, .ai, .ration, .muster, .tollgate, .relay, .ledger] s t) ∧
  (∀ (port : Fin 4) (tag : Byte) (beat : BitVec 3) (status : BitVec 2) (data : BitVec 1024) (r : Req) (a : Access) (n e pos : Nat) (dst : W64) (c : Xfer) (s : State),
    lastPart s false port.val tag.toNat r a = true → a.who = .ptRead n e pos dst →
    lowerFail a.fail (beatFail r beat.toNat status) = none → (getChan s n).xfer = some c → (getChan s n).epoch = e →
    ∃ t, exec (.readResponse port tag beat true status data) s = .next t ∧
      (getChan t n).xfer = some { c with early := c.early ++ [(pos, dst, hasRead a r beat.toNat data)] } ∧
      (∀ k, k ≠ n → getChan t k = getChan s k) ∧
      keepsBut [.porter, .ai, .ration, .muster, .tollgate, .relay, .ledger] s t) ∧
  (∀ (port : Fin 4) (tag : Byte) (beat : BitVec 3) (status : BitVec 2) (data : BitVec 1024) (r : Req) (a : Access) (n e b : Nat) (x : Nat) (st : Status) (s : State),
    lastPart s false port.val tag.toNat r a = true → a.who = .ptIndex n e b →
    lowerFail a.fail (beatFail r beat.toNat status) = some (x, st) → s.porter.stopped = false → a.fail = none →
    ∃ t, exec (.readResponse port tag beat true status data) s = .next t ∧
      porterStopped s t false 1 (w64 x) ∧
      keepsBut [.porter, .ai, .ration, .muster, .tollgate, .relay, .ledger] s t) ∧
  (∀ (port : Fin 4) (tag : Byte) (beat : BitVec 3) (status : BitVec 2) (data : BitVec 1024) (r : Req) (a : Access) (n e pos : Nat) (dst : W64) (x : Nat) (st : Status) (s : State),
    lastPart s false port.val tag.toNat r a = true → a.who = .ptRead n e pos dst →
    lowerFail a.fail (beatFail r beat.toNat status) = some (x, st) → s.porter.stopped = false → a.fail = none →
    ∃ t, exec (.readResponse port tag beat true status data) s = .next t ∧
      porterStopped s t false 1 (w64 x) ∧
      keepsBut [.porter, .ai, .ration, .muster, .tollgate, .relay, .ledger] s t) ∧
  (∀ (port : Fin 4) (tag : Byte) (status : BitVec 2) (r : Req) (a : Access) (j k : Nat) (s : State),
    lastPart s true port.val tag.toNat r a = true → a.who = .status j →
    lowerFail a.fail (ackFail r status) = none → jobExists s j = true → (getJob s j).ring = k → countOut s k = false →
      publishMay s k = true →
    (getRing s k).order.head? = some j → ((getRing s k).order.drop 1).all (fun i => (getJob s i).seat ≠ .acked) = true →
      j ∉ (getRing s k).order.drop 1 →
    ∃ t, exec (.writeAcknowledgement port tag status) s = .next t ∧
      (getRing t k).count = (getRing s k).count + 1 ∧ (getRing t k).inflight = (getRing s k).inflight - 1 ∧
      (getRing t k).order = (getRing s k).order.drop 1 ∧ t.muster.roFree = s.muster.roFree + 1 ∧ getJob t j = {} ∧
      (∀ i, i ≠ j → getJob t i = getJob s i) ∧
      keepsBut [.rings, .jobs, .ai, .ration, .muster, .tollgate, .relay, .ledger] s t) ∧
  (∀ (port : Fin 4) (tag : Byte) (status : BitVec 2) (r : Req) (a : Access) (j k : Nat) (s : State),
    lastPart s true port.val tag.toNat r a = true → a.who = .status j →
    lowerFail a.fail (ackFail r status) = none → jobExists s j = true → (getJob s j).ring = k → (getRing s k).order.head? ≠ some j →
      (getRing s k).order.head?.all (fun i => (getJob s i).seat ≠ .acked) = true →
    (getRing s k).count = (getRing s k).countAcked → (getRing s k).inflight ≠ 0 →
    ∃ t, exec (.writeAcknowledgement port tag status) s = .next t ∧
      getJob t j = { getJob s j with seat := .acked } ∧ (∀ i, i ≠ j → getJob t i = getJob s i) ∧
      keepsBut [.jobs, .ai, .ration, .muster, .tollgate, .relay, .ledger] s t) ∧
  (∀ (port : Fin 4) (tag : Byte) (status : BitVec 2) (r : Req) (a : Access) (j k : Nat) (x : Nat) (st : Status) (s : State),
    lastPart s true port.val tag.toNat r a = true → a.who = .status j →
    lowerFail a.fail (ackFail r status) = some (x, st) → jobExists s j = true → (getJob s j).ring = k → st ≠ .hostLost →
      (getRing s k).state ≠ .resetting →
    ∃ t, exec (.writeAcknowledgement port tag status) s = .next t ∧
      ringFailed s t k st (w64 x) ∧ (getRing t k).countStop = true ∧ getJob t j = { getJob s j with seat := .held } ∧
      keepsBut [.rings, .jobs, .ai, .ration, .muster, .tollgate, .relay, .ledger] s t) ∧
  (∀ (port : Fin 4) (tag : Byte) (status : BitVec 2) (r : Req) (a : Access) (k : Nat) (s : State),
    lastPart s true port.val tag.toNat r a = true → a.who = .count k →
    lowerFail a.fail (ackFail r status) = none →
    ∃ t, exec (.writeAcknowledgement port tag status) s = .next t ∧
      (getRing t k).countAcked = (getRing s k).count ∧
      ((getRing s k).count ≠ (getRing s k).countAcked →
        ((getRing s k).irqEn = true → (getRing s k).irqHoldoff = 0 ∨ (getRing s k).holding = false → tget false t.ai.irqPending k = true) ∧
        ((getRing s k).evtEn = true → relayOn s = true → sourceRaised t (256 + (getRing s k).evtSrc.toNat))) ∧
      (∀ q, q ≠ k → getRing t q = getRing s q) ∧
      keepsBut [.rings, .jobs, .ai, .ration, .muster, .tollgate, .relay, .ledger] s t) ∧
  (∀ (port : Fin 4) (tag : Byte) (status : BitVec 2) (r : Req) (a : Access) (k : Nat) (x : Nat) (st : Status) (s : State),
    lastPart s true port.val tag.toNat r a = true → a.who = .count k →
    lowerFail a.fail (ackFail r status) = some (x, st) → st ≠ .hostLost → (getRing s k).state ≠ .resetting →
    ∃ t, exec (.writeAcknowledgement port tag status) s = .next t ∧
      ringFailed s t k st (w64 x) ∧ (getRing t k).countStop = true ∧ (getRing t k).countAcked = (getRing s k).countAcked ∧
      keepsBut [.rings, .ai, .ration, .muster, .tollgate, .relay, .ledger] s t) ∧
  (∀ (port : Fin 4) (tag : Byte) (status : BitVec 2) (r : Req) (a : Access) (j : Nat) (n : BitVec 12) (i : BitVec 24) (s : State),
    lastPart s true port.val tag.toNat r a = true → a.who = .put j n i →
    lowerFail a.fail (ackFail r status) = none →
    ∃ t, exec (.writeAcknowledgement port tag status) s = .next t ∧
      t.mint = { s.mint with busy := s.mint.busy.erase (j, n, i), puts := s.mint.puts + 1 } ∧ t.jobs = s.jobs ∧
      keepsBut [.mint, .serai, .jobs, .lanes, .ai, .ration, .muster, .tollgate, .relay, .ledger] s t) ∧
  (∀ (port : Fin 4) (tag : Byte) (status : BitVec 2) (r : Req) (a : Access) (j : Nat) (n : BitVec 12) (i : BitVec 24) (x : Nat) (st : Status) (s : State),
    lastPart s true port.val tag.toNat r a = true → a.who = .put j n i →
    lowerFail a.fail (ackFail r status) = some (x, st) → jobExists s j = true →
    ∃ t, exec (.writeAcknowledgement port tag status) s = .next t ∧
      t.mint.busy = s.mint.busy.erase (j, n, i) ∧ t.mint.puts = s.mint.puts ∧ jobFailed s t j st ∧
      keepsBut [.jobs, .units, .serai, .mint, .house, .scales, .well, .ai, .ration, .muster, .tollgate, .relay, .ledger] s t) ∧
  (∀ (port : Fin 4) (tag : Byte) (status : BitVec 2) (r : Req) (a : Access) (j pos : Nat) (s : State),
    lastPart s true port.val tag.toNat r a = true → a.who = .jobWrite j pos →
    lowerFail a.fail (ackFail r status) = none →
    ∃ t, exec (.writeAcknowledgement port tag status) s = .next t ∧
      t.jobs = s.jobs ∧
      keepsBut [.ai, .ration, .muster] s t) ∧
  (∀ (port : Fin 4) (tag : Byte) (status : BitVec 2) (r : Req) (a : Access) (j pos : Nat) (x : Nat) (st : Status) (s : State),
    lastPart s true port.val tag.toNat r a = true → a.who = .jobWrite j pos →
    lowerFail a.fail (ackFail r status) = some (x, st) → jobExists s j = true →
    ∃ t, exec (.writeAcknowledgement port tag status) s = .next t ∧
      jobFailed s t j st ∧
      keepsBut [.jobs, .units, .serai, .mint, .house, .scales, .well, .ai, .ration, .muster, .tollgate, .relay, .ledger] s t) ∧
  (∀ (port : Fin 4) (tag : Byte) (status : BitVec 2) (r : Req) (a : Access) (s : State),
    lastPart s true port.val tag.toNat r a = true → a.who = .storeWrite →
    lowerFail a.fail (ackFail r status) = none → s.safe.stage = .writing →
    ∃ t, exec (.writeAcknowledgement port tag status) s = .next t ∧
      t.safe = { s.safe with stage := .over .done } ∧
      keepsBut [.safe, .ai, .ration, .muster] s t) ∧
  (∀ (port : Fin 4) (tag : Byte) (status : BitVec 2) (r : Req) (a : Access) (x : Nat) (st : Status) (s : State),
    lastPart s true port.val tag.toNat r a = true → a.who = .storeWrite →
    lowerFail a.fail (ackFail r status) = some (x, st) → s.safe.stage = .writing →
    ∃ t, exec (.writeAcknowledgement port tag status) s = .next t ∧
      t.safe = { s.safe with stage := .over .fabricError } ∧
      keepsBut [.safe, .ai, .ration, .muster, .tollgate, .relay, .ledger] s t) ∧
  (∀ (port : Fin 4) (tag : Byte) (status : BitVec 2) (r : Req) (a : Access) (s : State),
    lastPart s true port.val tag.toNat r a = true → a.who = .reportWrite →
    lowerFail a.fail (ackFail r status) = none → s.safe.stage = .writing →
    ∃ t, exec (.writeAcknowledgement port tag status) s = .next t ∧
      t.safe = { s.safe with stage := .over .done } ∧
      keepsBut [.safe, .ai, .ration, .muster] s t) ∧
  (∀ (port : Fin 4) (tag : Byte) (status : BitVec 2) (r : Req) (a : Access) (x : Nat) (st : Status) (s : State),
    lastPart s true port.val tag.toNat r a = true → a.who = .reportWrite →
    lowerFail a.fail (ackFail r status) = some (x, st) → s.safe.stage = .writing →
    ∃ t, exec (.writeAcknowledgement port tag status) s = .next t ∧
      t.safe = { s.safe with stage := .over .fabricError } ∧
      keepsBut [.safe, .ai, .ration, .muster, .tollgate, .relay, .ledger] s t) ∧
  (∀ (port : Fin 4) (tag : Byte) (status : BitVec 2) (r : Req) (a : Access) (s : State),
    lastPart s true port.val tag.toNat r a = true → a.who = .tallyWrite →
    lowerFail a.fail (ackFail r status) = none → s.mint.chStage = .writing →
    ∃ t, exec (.writeAcknowledgement port tag status) s = .next t ∧
      t.mint = { s.mint with chStage := .ready } ∧
      keepsBut [.mint, .ai, .ration, .muster] s t) ∧
  (∀ (port : Fin 4) (tag : Byte) (status : BitVec 2) (r : Req) (a : Access) (x : Nat) (st : Status) (s : State),
    lastPart s true port.val tag.toNat r a = true → a.who = .tallyWrite →
    lowerFail a.fail (ackFail r status) = some (x, st) → s.mint.chStage = .writing →
    ∃ t, exec (.writeAcknowledgement port tag status) s = .next t ∧
      t.mint = { s.mint with chStage := .refused .fabricError 11 0 } ∧
      keepsBut [.mint, .ai, .ration, .muster, .tollgate, .relay, .ledger] s t) ∧
  (∀ (port : Fin 4) (tag : Byte) (status : BitVec 2) (r : Req) (a : Access) (n e : Nat) (x : Nat) (st : Status) (s : State),
    lastPart s true port.val tag.toNat r a = true → a.who = .ptWrite n e →
    lowerFail a.fail (ackFail r status) = some (x, st) → s.porter.stopped = false → a.fail = none →
    ∃ t, exec (.writeAcknowledgement port tag status) s = .next t ∧
      porterStopped s t true 1 (w64 x) ∧
      keepsBut [.porter, .ai, .ration, .muster, .tollgate, .relay, .ledger] s t) ∧
  (∀ (port : Fin 4) (tag : Byte) (status : BitVec 2) (r : Req) (a : Access) (x : Nat) (st : Status) (s : State),
    lastPart s true port.val tag.toNat r a = true → a.who = .heartbeat →
    lowerFail a.fail (ackFail r status) = some (x, st) →
    ∃ t, exec (.writeAcknowledgement port tag status) s = .next t ∧
      { producer := 12, type := 0x005, code := st.code, body := w32 st.code.toNat :: loHi a.addr, madeAt := s.cycle, unit := 0 :
        LedgerRec } ∈ t.ledger.waiting ∧
      keepsBut [.ai, .ration, .muster, .tollgate, .relay, .ledger] s t))

/-- R353, R357: a credit granted to a port that has nothing to send is kept, one beyond 255 is discarded and counted; a request whose
time is over is written off, and its tag is in quarantine until the quarantine ends. R360, R361: the adapter takes one pending vector,
and no other vector's request changes; an event input is one raising of its source. Where the spec leaves a choice, the model's is log
entry 42. -/
def Obligations.TagsInterruptsAndInputs : Prop :=
  ((∀ (port : Fin 4) (wd : Bool) (s : State), awake s = true → s.pins.icRst = false →
    (headersAllowed s = false ∨ ∀ k, k < 4 → (getPort s k).queue = []) →
    (if wd then (getPort s port.val).dataCrd else (getPort s port.val).reqCrd) < 255 →
    ∃ t, exec (.creditGrant port wd) s = .next t ∧
      (getPort t port.val).dataCrd = (getPort s port.val).dataCrd + (if wd then 1 else 0) ∧
      (getPort t port.val).reqCrd = (getPort s port.val).reqCrd + (if wd then 0 else 1) ∧
      (∀ k, k ≠ port.val → getPort t k = getPort s k) ∧ keepsBut [.ai] s t) ∧
  (∀ (port : Fin 4) (wd : Bool) (s : State), awake s = true → s.pins.icRst = false →
    255 ≤ (if wd then (getPort s port.val).dataCrd else (getPort s port.val).reqCrd) →
    ∃ t, exec (.creditGrant port wd) s = .next t ∧ (getPort t port.val).overgrant = (getPort s port.val).overgrant + 1 ∧
      (getPort t port.val).reqCrd = (getPort s port.val).reqCrd ∧ (getPort t port.val).dataCrd = (getPort s port.val).dataCrd ∧
      keepsBut [.ai, .ledger] s t) ∧
  (∀ (port : Fin 4) (write : Bool) (tag : Byte) (r : Req) (s : State), timersRun s = true → cplCycles s ≤ r.age →
    (headersAllowed s = false ∨ ∀ k, k < 4 → (getPort s k).queue = []) → r.write = write →
    tget none (if write then (getPort s port.val).writes else (getPort s port.val).reads) tag.toNat = some r →
    tget none s.ai.accesses r.access = none →
    ∃ t, exec (.completionTimeout port write tag) s = .next t ∧ (getPort t port.val).woff = (getPort s port.val).woff + 1 ∧
      tget 0 (if write then (getPort t port.val).quarWrites else (getPort t port.val).quarReads) tag.toNat = 1 ∧
      tget none (if write then (getPort t port.val).writes else (getPort t port.val).reads) tag.toNat = none ∧
      keepsBut [.ai, .ledger, .tollgate, .relay] s t) ∧
  (∀ (port : Fin 4) (write : Bool) (tag : Byte) (s : State),
    cplCycles s < tget 0 (if write then (getPort s port.val).quarWrites else (getPort s port.val).quarReads) tag.toNat →
    ∃ t, exec (.tagQuarantineEnd port write tag) s = .next t ∧
      tget 0 (if write then (getPort t port.val).quarWrites else (getPort t port.val).quarReads) tag.toNat = 0 ∧
      keepsBut [.ai, .ration] s t) ∧
  (∀ (port : Fin 4) (write : Bool) (tag : Byte) (s : State),
    tget 0 (if write then (getPort s port.val).quarWrites else (getPort s port.val).quarReads) tag.toNat ≤ cplCycles s →
    exec (.tagQuarantineEnd port write tag) s = .next s)) ∧
  ((∀ (v : Nat) (s : State), s.pins.icRst = false → tget false s.ai.irqPending v = true →
    ∃ t k, exec .interruptTaken s = .next t ∧ k ∈ s.ai.irqPending.map Prod.fst ∧ tget false t.ai.irqPending k = false ∧
      t.ai.irqLast = k ∧ (∀ u, u ≠ k → tget false t.ai.irqPending u = tget false s.ai.irqPending u) ∧ keepsBut [.ai] s t) ∧
  (∀ (line : Fin 256) (s : State), s.pins.icRst = false → s.ai.icStop = false → portsServed s = true →
    ∃ t, exec (.adapterEventInput line) s = .next t ∧ sourceRaised t (768 + line.val) ∧
      (∀ u, u ∈ s.relay.raised → u ∈ t.relay.raised) ∧ keepsBut [.relay] s t))

/-! ### Counting House -/

/-- R249, R250, Table 9.7: each direct command on a DIRECT bench that is idle, powered and sound, with operands that meet its
conditions, starts its operation on the operands that CH_B_OPS names, and UW_BYTES counts the operand limbs. Where the spec leaves a choice, the model's is log entry 31. -/
def Obligations.DirectCommandsStart : Prop :=
  ∀ (c : (CtlPort → Fin 8 → BitVec 9 → BitVec 9 → Instr) × Nat),
    c ∈ [(Instr.dmul, 1), (Instr.dmod, 2), (Instr.modadd, 3), (Instr.modsub, 4), (Instr.modmul, 5), (Instr.modexp, 6), (Instr.modinv, 7)] →
    ∀ (p : CtlPort) (b : Fin 8) (nlen elen : BitVec 9) (s : State), mayTake s p (chCmd b.val) 4 = true → directReady s b.val = true →
      benchBusy s b.val = false → directOk s b.val c.2 nlen.toNat elen.toNat = true →
      ∃ t, exec (c.1 p b nlen elen) s = .next t ∧
        getBench t b.val = { getBench s b.val with
          owner := .direct, endedAt := none
          direct := some { op := c.2, nlen := nlen.toNat, elen := elen.toNat, ops := (getBench s b.val).ops } } ∧
        (getUnit t (benchUnit b.val)).bytes =
          (getUnit s (benchUnit b.val)).bytes + w64 (8 * ((directParts c.2 nlen.toNat elen.toNat).dropLast.map Prod.snd).sum) ∧
        (∀ k, k ≠ b.val → getBench t k = getBench s k) ∧ keepsBut [.units, .house] (tookWrite s p (chCmd b.val) 4) t

/-- R250, Table 9.7: what each direct operation leaves at its result operand, and that the rest of the public region is unchanged. Its
operands are those that CH_B_OPS named at the command. The powers are those of arithmetic. R435: an operation ends in a cycle in which Ration does
not hold its bench. -/
def Obligations.DirectOperationsCompute : Prop :=
  ∀ (bench : Fin 8) (d : DirectOp) (s : State), (getBench s bench.val).direct = some d → engineHeld s bench.val = false → 1 ≤ d.nlen →
    1 ≤ d.op → d.op ≤ 7 →
    (d.op = 1 ∨ 2 ≤ limbsAt s bench.val d.ops 2 d.nlen) → opsField d.ops 3 + (if d.op = 1 then 2 else 1) * d.nlen ≤ 4096 →
    ∃ t, exec (.directOpDone bench) s = .next t ∧ (getBench t bench.val).direct = none ∧
      (getBench t bench.val).cmdResult = Status.done.code ∧
      (let n := d.nlen
       let A := limbsAt s bench.val d.ops 0 n
       let B := limbsAt s bench.val d.ops 1 n
       let M := limbsAt s bench.val d.ops 2 n
       let D := limbsAt t bench.val d.ops 3
       (d.op = 1 → D (2 * n) = A * B) ∧ (d.op = 2 → D n = limbsAt s bench.val d.ops 0 (2 * n) % M) ∧ (d.op = 3 → D n = (A + B) % M) ∧
       (d.op = 4 → D n = (A + M - B) % M) ∧ (d.op = 5 → D n = A * B % M) ∧
       (d.op = 6 → D n = A ^ limbsAt s bench.val d.ops 1 d.elen % M) ∧ (d.op = 7 → D n = A ^ (M - 2) % M)) ∧
      (∀ a, a < 0x8000 → (a < 8 * opsField d.ops 3 ∨
        8 * (opsField d.ops 3 + (if d.op = 1 then 2 else 1) * d.nlen) ≤ a) →
        tget 0 (getBench t bench.val).mem a = tget 0 (getBench s bench.val).mem a) ∧
      (∀ k, k ≠ bench.val → getBench t k = getBench s k) ∧ keepsBut [.units, .house, .relay, .ai] s t

/-- R232: a write of operand memory stores its bytes, little-endian, at its offset in the public region of an idle DIRECT bench, and
changes no other byte. That writes of fewer than 32 bits land here is the model's reading, log entry 31. -/
def Obligations.OperandMemoryIsWritten : Prop :=
  ∀ (p : CtlPort) (b : Fin 8) (off : W16) (z : AccSize) (data : W64) (s : State), mayTake s p (0x400000 + (0x10000 * b.val + off.toNat)) (accBytes z) = true → off.toNat % accBytes z = 0 →
    isDirect s b.val = true → domOn s 2 = true → benchBusy s b.val = false → off.toNat < 0x8000 →
    ∃ t, exec (.operandMemoryWrite p b off z data) s = .next t ∧
      readBytes (getBench t b.val).mem off.toNat (accBytes z) = leBytes (accBytes z) data.toNat ∧
      (∀ a, (a < off.toNat ∨ off.toNat + accBytes z ≤ a) → tget 0 (getBench t b.val).mem a = tget 0 (getBench s b.val).mem a) ∧
      (∀ k, k ≠ b.val → getBench t k = getBench s k) ∧ 
      keepsBut [.house] (tookWrite s p (0x400000 + (0x10000 * b.val + off.toNat)) (accBytes z)) t

/-- R247, R248, R249, R250, R244, R252, R253: ABORT on an idle bench, which is DONE on a DIRECT one and refused on another, unless an
operation has ended in the same cycle, which stands and is followed by the wipe; ABORT of what a bench runs, which counts, and after which
its memory is zero; DIRECT_SELECT, the expiry of a lease, a parity fault and the end of a known-answer test. Where the spec leaves a choice,
the model's is log entries 31 and 57. -/
def Obligations.BenchControl : Prop :=
  ((∀ (p : CtlPort) (b : Fin 8) (s : State), mayTake s p (chCmd b.val) 4 = true → benchBusy s b.val = false →
    (getBench s b.val).endedAt ≠ some s.cycle →
    isDirect s b.val = true →
    ∃ t, exec (.abort p b) s = .next t ∧ getBench t b.val = { getBench s b.val with cmdResult := Status.done.code } ∧
      (∀ k, k ≠ b.val → getBench t k = getBench s k) ∧ keepsBut [.house] (tookWrite s p (chCmd b.val) 4) t) ∧
  (∀ (p : CtlPort) (b : Fin 8) (s : State), mayTake s p (chCmd b.val) 4 = true → benchBusy s b.val = false →
    (getBench s b.val).endedAt ≠ some s.cycle →
    isDirect s b.val = false →
    ∃ t, exec (.abort p b) s = .next t ∧ getBench t b.val = { getBench s b.val with cmdResult := Status.accessFault.code } ∧
      (∀ k, k ≠ b.val → getBench t k = getBench s k) ∧
      recordOffered s t 6 1 Status.accessFault.code [w32 (chCmd b.val + 2 ^ 24 * portBit p + 2 ^ 27), 15] ∧
      keepsBut [.house, .ledger] (tookWrite s p (chCmd b.val) 4) t) ∧
  (∀ (p : CtlPort) (b : Fin 8) (s : State), mayTake s p (chCmd b.val) 4 = true → benchBusy s b.val = false →
    (getBench s b.val).endedAt = some s.cycle →
    s.house.queue = [] →
    ∃ t, exec (.abort p b) s = .next t ∧ (getBench t b.val).mem = [] ∧ (getBench t b.val).owner = .none ∧
      (getBench t b.val).cmdResult = Status.done.code ∧ t.house.wipes = s.house.wipes + 1 ∧ t.house.opsEnded = s.house.opsEnded ∧
      keepsBut [.jobs, .serai, .house, .relay, .ledger, .ai] (tookWrite s p (chCmd b.val) 4) t) ∧
  (∀ (p : CtlPort) (b : Fin 8) (d : DirectOp) (s : State), mayTake s p (chCmd b.val) 4 = true → (getBench s b.val).direct = some d →
    (getBench s b.val).run = none → s.house.queue = [] →
    ∃ t, exec (.abort p b) s = .next t ∧ (getBench t b.val).direct = none ∧ (getBench t b.val).mem = [] ∧
      (getBench t b.val).cmdResult = Status.pkAborted.code ∧
      (getUnit t (benchUnit b.val)).preempts = (getUnit s (benchUnit b.val)).preempts + 1 ∧
      keepsBut [.units, .jobs, .serai, .house, .well, .relay, .ledger, .ai] (tookWrite s p (chCmd b.val) 4) t) ∧
  (∀ (p : CtlPort) (b : Fin 8) (r : PkReq) (s : State), mayTake s p (chCmd b.val) 4 = true → (getBench s b.val).run = some r →
    s.house.queue = [] →
    ∃ t, exec (.abort p b) s = .next t ∧ (getBench t b.val).run = none ∧ (getBench t b.val).mem = [] ∧ t.fuse = s.fuse ∧
      t.mode = s.mode ∧ t.pending = s.pending)) ∧
  (∀ (p : CtlPort) (cfg : W32) (s : State), mayTake s p chRowCfg 4 = true → s.mode.mode = .provision →
    ∃ t, exec (.directSelect p cfg) s = .next t ∧ t.house.direct = BitVec.ofNat 8 (fld cfg 0 8) ∧
      t.house.pinMax = BitVec.ofNat 3 (fld cfg 8 3) ∧ t.fuse = s.fuse ∧ t.mode = s.mode ∧ t.pending = s.pending) ∧
  (∀ (b : Fin 8) (cell : Fin 32) (s : State), (tget {} (getBench s b.val).cells cell.val).live = true →
    (tget {} (getBench s b.val).cells cell.val).deadline ≤ s.cycle → s.house.queue = [] →
    ∃ t, exec (.leaseExpiry b cell) s = .next t ∧
      tget {} (getBench t b.val).cells cell.val = { gen := (tget {} (getBench s b.val).cells cell.val).gen + 1 } ∧
      readBytes (getBench t b.val).mem (0xF000 + 128 * cell.val) 128 = zeros 128 ∧
      t.house.leaseRevoked = s.house.leaseRevoked + 1 ∧ keepsBut [.house, .relay, .ledger] s t) ∧
  (∀ (b : Fin 8) (s : State), portsServed s = true → domOn s 2 = true →
    ∃ t, exec (.benchFault b true) s = .next t ∧ (getBench t b.val).faulted = true ∧
      (getUnit t (benchUnit b.val)).quarantine = true ∧ t.fuse = s.fuse ∧ t.mode = s.mode ∧ t.pending = s.pending) ∧
  (∀ (b : Fin 8) (pass : Bool) (s : State), portsServed s = true → (getBench s b.val).kat = true →
    ∃ t, exec (.benchKatDone b pass) s = .next t ∧ (getBench t b.val).kat = false ∧ (getBench t b.val).faulted = !pass ∧
      (pass = false → (getUnit t (benchUnit b.val)).quarantine = true) ∧ t.fuse = s.fuse ∧ t.mode = s.mode ∧ t.pending = s.pending)

/-- R108, R236, R235, R138: a PKOP that passes its checks takes a ticket of the bench queue, and a result that is there goes to its
operand, bytes or a new key; when its operation ends, its random
numbers drawn (R282) and its bench not held (R435), the bench is free again and its secret working area is zero unless it keeps a
holding. Where the spec leaves a choice, the model's is log entries 29, 32 and 58. -/
def Obligations.BenchQueueRuns : Prop :=
  (∀ (l : Fin 16) (j : Nat) (i : W64) (q : List Byte × List Byte × Job) (s : State), laneTask s l.val (isOp .pkop) = some (j, i) →
    (getJob s j).kept = none → (getJob s j).wait = .nothing → issueOk (getJob s j) i = true →
    pkKeyFault s j (keyNum (wC i)) (wFn i) (wParam i) = none → rsaLenOk s j (keyNum (wC i)) (wFn i) (wLen i) = true →
    oaepRoom (wFn i) (wParam i) (wLen i) = true → pkReady (getJob s j) i = .ok q → (wFn i = 0x29 → tokenOk q.1 = true) →
    (pkDraws (wFn i) = true → wellCan s = true) →
    ∃ t, exec (.pkop l .same) s = .next t ∧ t.house.nextTicket = s.house.nextTicket + 1 ∧
      (wFn i ≠ 0x29 → s.house.queue = [] → (getJob t j).wait = .bench s.house.nextTicket) ∧ t.fuse = s.fuse ∧ t.mode = s.mode ∧
      t.pending = s.pending) ∧
  (∀ (l : Fin 16) (j : Nat) (i : W64) (bs : List Byte) (y : Job) (outs : List OutW) (s : State),
    laneTask s l.val (isOp .pkop) = some (j, i) → (getJob s j).kept = some bs → accepts (wA i) [.k] = false →
    putOut (getJob s j) (opd (wA i)) (decide (wFn i = 0x06)) bs = .ok (y, outs) → outputsMay s j y outs →
    ∃ t, exec (.pkop l .same) s = .next t ∧ ranTo s t j y ∧ outputsIssued (modJob s j (fun _ => y)) t j y outs ∧
      keepsBut [.jobs, .ai, .ration, .free] s t) ∧
  (∀ (l : Fin 16) (j k : Nat) (i : W64) (bs : List Byte) (s2 s : State),
    laneTask s l.val (isOp .pkop) = some (j, i) → (getJob s j).kept = some bs → accepts (wA i) [.k] = true →
    privateWay (releaseKey (takeIncoming s j) j (keyNum (wA i))) = .way k s2 →
    ∃ t, exec (.pkop l .same) s = .next t ∧ (getJob t j).pos = (getJob s j).pos + 1 ∧ (getJob t j).wait = .nothing ∧
      slotKey t k = padTo 64 (incomingKey s j) ∧ (getSlot t k).kind = .privateKey ∧ (getSlot t k).ktype = 0x20 ∧
      keyReg t j (keyNum (wA i)) = some (keyRefOf t k) ∧ tget [] t.serai.incoming j = [] ∧
      (∀ m, m ≠ j → getJob t m = getJob s m) ∧ keepsBut [.jobs, .serai, .well] s t) ∧
  (∀ (b : Fin 8) (r : PkReq) (s : State), (getBench s b.val).run = some r → s.house.queue = [] → (getBench s b.val).holder = none →
    pkDraw r.fn ≤ r.rnd.length → engineHeld s b.val = false →
    ∃ t, exec (.benchOpDone b) s = .next t ∧ (getBench t b.val).run = none ∧
      (∀ a, 0x8000 ≤ a → a < 0xF000 → tget 0 (getBench t b.val).mem a = 0) ∧ t.fuse = s.fuse ∧ t.watch = s.watch ∧
      t.pending = s.pending)

/-! ### Scales -/

/-- R111, R261, R262, R266, R269, R138: a LATOP that passes its checks takes a ticket of the Scales queue, and a result that is there
goes to its operands, bytes or a new key; when its operation ends, the context is free and, without a holding or a charter's copy, its
working memory is zero. R270, R272, R273: the abort of a running context, of one whose operation has ended in the same cycle, and of an idle
one, which is refused; a retest, a parity error, which faults both contexts of its pipeline, and the end of a context's
known-answer test. Where the spec leaves a choice, the model's is log entries 26, 33 and 58. -/
def Obligations.ScalesRun : Prop :=
  ((∀ (l : Fin 16) (j : Nat) (i : W64) (q : List Byte × List Byte × List Byte × Job) (s : State),
    laneTask s l.val (isOp .latop) = some (j, i) → (getJob s j).kept = none → (getJob s j).wait = .nothing →
    issueOk (getJob s j) i = true → latKeyFault s j (keyNum (wC i)) (wFn i) (wParam i) = none → latReady (getJob s j) i = .ok q →
    (latDraws i = true → wellCan s = true) → scalesClosed s = false →
    ∃ t, exec (.latop l .same) s = .next t ∧ t.scales.nextTicket = s.scales.nextTicket + 1 ∧
      (s.scales.queue = [] → (getJob t j).wait = .scales s.scales.nextTicket) ∧ t.fuse = s.fuse ∧ t.mode = s.mode ∧ t.pending = s.pending) ∧
  (∀ (l : Fin 16) (j : Nat) (i : W64) (bs : List Byte) (y : Job) (outs : List OutW) (s : State),
    laneTask s l.val (isOp .latop) = some (j, i) → (getJob s j).kept = some bs → wFn i ∉ [0x01, 0x02, 0x03] →
    putOut (getJob s j) (opd (wA i)) false bs = .ok (y, outs) → outputsMay s j y outs →
    ∃ t, exec (.latop l .same) s = .next t ∧ ranTo s t j y ∧ outputsIssued (modJob s j (fun _ => y)) t j y outs ∧
      keepsBut [.jobs, .ai, .ration, .free] s t) ∧
  (∀ (l : Fin 16) (j k : Nat) (i : W64) (bs : List Byte) (s2 s : State),
    laneTask s l.val (isOp .latop) = some (j, i) → (getJob s j).kept = some bs → wFn i = 0x03 →
    privateWay (releaseKey (takeIncoming s j) j (keyNum (wA i))) = .way k s2 →
    ∃ t, exec (.latop l .same) s = .next t ∧ (getJob t j).pos = (getJob s j).pos + 1 ∧ (getJob t j).wait = .nothing ∧
      slotKey t k = padTo 64 (incomingKey s j) ∧ (getSlot t k).kind = .privateKey ∧ (getSlot t k).ktype = 0x20 ∧
      keyReg t j (keyNum (wA i)) = some (keyRefOf t k) ∧ keyReg t j (keyNum (wC i)) = some (keyRefOf t k) ∧
      tget [] t.serai.incoming j = [] ∧
      (∀ m, m ≠ j → getJob t m = getJob s m) ∧ keepsBut [.jobs, .serai, .well] s t) ∧
  (∀ (l : Fin 16) (j k : Nat) (i : W64) (bs : List Byte) (y : Job) (outs : List OutW) (s2 s : State),
    let made := if wFn i = 0x01 then seedSlot else secretSlot
    let s3 := loadKey (fillPrivate s2 k (jobTenant s2 j) .privateKey (incomingKey s j).length l.val 0 made (incomingKey s j)) j (keyNum (wC i)) k
    laneTask s l.val (isOp .latop) = some (j, i) → (getJob s j).kept = some bs → (wFn i = 0x01 ∨ wFn i = 0x02) →
    privateWay (releaseKey (takeIncoming s j) j (keyNum (wC i))) = .way k s2 →
    putOut (getJob s3 j) (opd (wA i)) false bs = .ok (y, outs) → outputsMay s j y outs →
    ∃ t, exec (.latop l .same) s = .next t ∧ ranTo s t j y ∧ slotKey t k = padTo 64 (incomingKey s j) ∧
      (getSlot t k).kind = .privateKey ∧ (getSlot t k).ktype = (if wFn i = 0x01 then 0x19 else 0x20) ∧
      keyReg t j (keyNum (wC i)) = some (keyRefOf t k) ∧ outputsIssued (modJob s3 j (fun _ => y)) t j y outs ∧
      keepsBut [.jobs, .serai, .well, .ai, .ration, .free] s t) ∧
  (∀ (c : Fin 4) (r : LatReq) (s : State), (getCtx s c.val).run = some r → s.scales.queue = [] → (getCtx s c.val).holder = none →
    ctxMints s c.val = false → latDraw r ≤ r.rnd.length → engineHeld s (8 + c.val) = false →
    ∃ t, exec (.scalesOpDone c) s = .next t ∧ (getCtx t c.val).run = none ∧ (getCtx t c.val).mem = [] ∧ t.fuse = s.fuse ∧
      t.watch = s.watch ∧ t.pending = s.pending)) ∧
  ((∀ (p : CtlPort) (c : Fin 4) (s : State), mayTake s p scCmd 4 = true → ctxBusy s c.val = true → s.scales.queue = [] →
    ∃ t, exec (.scalesAbort p c) s = .next t ∧ (getCtx t c.val).run = none ∧ (getCtx t c.val).mem = [] ∧
      t.scales.cmdResult = Status.done.code ∧ t.fuse = s.fuse ∧ t.mode = s.mode ∧ t.pending = s.pending) ∧
  (∀ (p : CtlPort) (c : Fin 4) (s : State), mayTake s p scCmd 4 = true → ctxBusy s c.val = false → (getCtx s c.val).endedAt = some s.cycle →
    (getCtx s c.val).holder = none → s.scales.queue = [] →
    ∃ t, exec (.scalesAbort p c) s = .next t ∧ getCtx t c.val = { getCtx s c.val with mem := [], endedAt := none } ∧
      t.scales.cmdResult = Status.done.code ∧ t.scales.ops = s.scales.ops ∧ keepsBut [.scales] (tookWrite s p scCmd 4) t) ∧
  (∀ (p : CtlPort) (c : Fin 4) (s : State), mayTake s p scCmd 4 = true → ctxBusy s c.val = false → (getCtx s c.val).endedAt ≠ some s.cycle →
    ∃ t, exec (.scalesAbort p c) s = .next t ∧ t.scales = { s.scales with cmdResult := Status.accessFault.code } ∧
      keepsBut [.scales, .ledger] (tookWrite s p scCmd 4) t) ∧
  (∀ (p : CtlPort) (c : Fin 4) (s : State), mayTake s p scCfg 4 = true → s.mode.mode = .provision → (getCtx s c.val).faulted = true →
    s.scales.queue = [] →
    ∃ t, exec (.contextRetest p c) s = .next t ∧ (getCtx t c.val).kat = true ∧ t.scales.holdMax = s.scales.holdMax ∧
      t.scales.disable = s.scales.disable ∧ keepsBut [.scales] (tookWrite s p scCfg 4) t) ∧
  (∀ (c : Fin 4) (s : State), portsServed s = true →
    ∃ t, exec (.scalesFault c true) s = .next t ∧ (getCtx t (2 * (c.val / 2))).faulted = true ∧
      (getCtx t (2 * (c.val / 2) + 1)).faulted = true ∧ t.fuse = s.fuse ∧ t.mode = s.mode ∧ t.pending = s.pending) ∧
  (∀ (c : Fin 4) (pass : Bool) (s : State), (getCtx s c.val).kat = true → (pass = true → s.scales.queue = []) →
    ∃ t, exec (.contextKatDone c pass) s = .next t ∧ (getCtx t c.val).kat = false ∧ (getCtx t c.val).faulted = !pass ∧
      (pass = false → recordOffered s t 7 0x204 0 [w32 (0x100 + c.val)]) ∧ keepsBut [.scales, .relay, .ledger, .ai] s t))

/-! ### Serai -/

/-- R224, R225, R218: a flush command that finds the walk idle starts it, FLUSH_ENTRY ends at once, and the end of a flush frees each
covered slot without leases, retires each covered slot with leases, and leaves every other slot. A busy walk refuses a command, which is
logged with the word of log entry 57. -/
def Obligations.FlushesFreeOrRetire : Prop :=
  (∀ (p : CtlPort) (tenant : BitVec 12) (s : State), mayTake s p serCmd 4 = true → s.serai.cmdBusy = false → twf {} s.serai.slots = true →
    ∃ t, exec (.flushEntry p tenant) s = .next t ∧ t.serai.cmdBusy = false ∧ t.serai.flush = none ∧
      t.serai.cmdResult = Status.done.code ∧
      (∀ k, let r := getSlot s k
        getSlot t k = (if r.kind = .tenant ∧ r.tenant = tenant ∧ r.index = s.serai.cmdIndex then
          (if r.leases = 0 then { gen := r.gen + 1 } else { r with kind := .retired }) else r)) ∧
            keepsBut [.serai] (tookWrite s p serCmd 4) t) ∧
  (∀ (p : CtlPort) (tenant : BitVec 12) (s : State), mayTake s p serCmd 4 = true → s.serai.cmdBusy = false →
    ∃ t, exec (.flushTenant p tenant) s = .next t ∧ t.serai = { s.serai with cmdBusy := true, flush := some (.tenant tenant) } ∧
      keepsBut [.serai] (tookWrite s p serCmd 4) t) ∧
  (∀ (p : CtlPort) (tenant : BitVec 12) (s : State), mayTake s p serCmd 4 = true → s.serai.cmdBusy = false →
    ∃ t, exec (.flushStale p tenant) s = .next t ∧ t.serai = { s.serai with cmdBusy := true, flush := some (.stale tenant) } ∧
      keepsBut [.serai] (tookWrite s p serCmd 4) t) ∧
  (∀ (p : CtlPort) (s : State), mayTake s p serCmd 4 = true → s.serai.cmdBusy = false →
    ∃ t, exec (.flushAll p) s = .next t ∧ t.serai = { s.serai with cmdBusy := true, flush := some .all } ∧
      keepsBut [.serai] (tookWrite s p serCmd 4) t) ∧
  (∀ (p : CtlPort) (tenant : BitVec 12) (c : Instr) (op : Nat) (s : State), mayTake s p serCmd 4 = true → s.serai.cmdBusy = true →
    (c, op) ∈ [(.flushEntry p tenant, 1), (.flushTenant p tenant, 2), (.flushStale p tenant, 3), (.flushAll p, 4)] →
    ∃ t, exec c s = .next t ∧
      recordOffered s t 4 1 Status.accessFault.code
        [w32 (serCmd + 2 ^ 24 * portBit p + 2 ^ 27), w32 (op + if op = 4 then 0 else 65536 * tenant.toNat)] ∧
      keepsBut [.ledger] (tookWrite s p serCmd 4) t) ∧
  (∀ (f : FlushOp) (s : State), s.serai.flush = some f → twf {} s.serai.slots = true →
    ∃ t, exec .flushWalkDone s = .next t ∧ t.serai.cmdBusy = false ∧ t.serai.flush = none ∧ t.serai.cmdResult = Status.done.code ∧
      (∀ k, let r := getSlot s k
        getSlot t k = (if flushTakes s f r then
          (if r.leases = 0 then { gen := r.gen + 1 } else { r with kind := .retired }) else r)) ∧ keepsBut [.serai] s t)

/-- R222, R223, R282: the re-masking of a group draws its mask in class 1, and the grant that completes the draw rewrites the group under
it, which keeps every key; a mask that has aged flushes its group, and in group 511
overwrites the unit keys. R229, R227: the probe latches a slot's metadata, a write of MASKAGE clears it, and a slot struck by an
uncorrectable error is overwritten and DEAD, keeping the leases it carried, with a record that names it; a running job whose instruction
touches the slot ends with KEY_CONFLICT. Where the spec leaves a choice, the model's is log entries 34 and 66. -/
def Obligations.MasksAndDeadSlots : Prop :=
  ((∀ s : State, s.serai.hkeyDrawn = true → s.serai.zeroed = false → wellCan s = true →
    s.well.draws.any (fun d => d.who = .remask) = false →
    ∃ t, exec .remaskGroup s = .next t ∧ t.well = { s.well with
        nextDraw := s.well.nextDraw + 1
        draws := s.well.draws ++ [{ draw := s.well.nextDraw, cls := 1, who := .remask, need := 64 }] } ∧ keepsBut [.well] s t) ∧
  (∀ (d : DrawRec) (s : State), wellCan s = true → nextDraw s = some d → d.who = .remask → 0 < grantSize s d →
    d.need ≤ d.got.length + grantSize s d → tget false s.serai.aged s.serai.remaskNext = false →
    ∃ t, exec .wellGrant s = .next t ∧ (∀ k, slotMasked (getSlot s k).kind = true → slotKey t k = slotKey s k) ∧
      (∀ k, { getSlot t k with material := 0 } = { getSlot s k with material := 0 }) ∧
      t.serai.remaskNext = (s.serai.remaskNext + 1) % 512 ∧ keepsBut [.serai, .well] s t) ∧
  (∀ (g : Fin 512) (s : State), s.serai.hkeyDrawn = true → s.serai.zeroed = false → tget false s.serai.aged g.val = false →
    4000 ≤ maskAge s g.val → ∃ t, exec (.maskAged g) s = .next t ∧ tget false t.serai.aged g.val = true ∧ t.serai.maskLate = true ∧
      recordOffered s t 4 0x304 0 [w32 g.val] ∧
      (∀ k, k / 64 = g.val → let r := getSlot s k
        getSlot t k =
          if g.val = 511 then (if r.kind = .unit then { r with material := 0 } else r)
          else if r.kind = .tenant ∨ r.kind = .internal ∨ r.kind = .privateKey ∨ r.kind = .holding then
            (if r.leases = 0 then { gen := r.gen + 1 } else { r with kind := .retired })
          else r) ∧
      (∀ k, k / 64 ≠ g.val → getSlot t k = getSlot s k) ∧ keepsBut [.serai, .ledger] s t)) ∧
  ((∀ (p : CtlPort) (slot : BitVec 15) (s : State), mayTake s p 0x300070 4 = true →
    ∃ t, exec (.probeSelect p slot) s = .next t ∧
      t.serai = { s.serai with probeSel := slot, probe := slotMeta (getSlot s slot.toNat) } ∧
        keepsBut [.serai] (tookWrite s p 0x300070 4) t) ∧
  (∀ (p : CtlPort) (s : State), mayTake s p 0x300060 4 = true →
    ∃ t, exec (.maskageClear p) s = .next t ∧ t.serai = { s.serai with maskAgeMax := 0 } ∧ keepsBut [.serai] (tookWrite s p 0x300060 4) t) ∧
  (∀ (slot : BitVec 15) (s : State), s.serai.zeroed = false →
    (∀ l j, l < 16 → (getLane s l).run = some j → touches s slot.toNat j = true →
      (getJob s j).isOver = true ∨ (getJob s j).wait ≠ .nothing) →
    ∃ t, exec (.slotUncorrectable slot) s = .next t ∧
      getSlot t slot.toNat = { kind := .dead, leases := (getSlot s slot.toNat).leases } ∧
      (∀ k, k ≠ slot.toNat → getSlot t k = getSlot s k) ∧
      recordOffered s t 4 0x303 Status.keyConflict.code [w32 (slot.toNat + 7 * 2 ^ 15 + 3 * 2 ^ 18), 0, 0] ∧
      keepsBut [.serai, .ledger] s t) ∧
  (∀ (slot : BitVec 15) (s : State), s.serai.zeroed = false →
    ∃ t, exec (.slotUncorrectable slot) s = .next t ∧ (getSlot t slot.toNat).kind = .dead ∧ t.fuse = s.fuse ∧ t.mode = s.mode ∧
      t.pending = s.pending ∧
      (∀ l j, l < 16 → (getLane s l).run = some j → touches s slot.toNat j = true → (getJob s j).isOver = false →
        (getJob s j).wait = .nothing → (getJob t j).isOver = true ∧ (getJob t j).status = .keyConflict)))

/-! ### The Mint -/

/-- R61, R98, R213, R214, R217: a KEY first releases what its register holds. Of a short bale, one that hits leases its slot, loads the
register and sets HIT; one that misses asks for the bale with a fill of its own and waits, and one whose tenant record is not resident asks
for the record with a fill. R190, R196, R238, R267: a KEY of a long bale that opens puts its material into an engine, which the job then
holds, and loads the register with a HOLDING slot; one that does not open is BALE_INVALID, and one for which no set has a way is
STORAGE_FAULT (R216). Where the spec leaves a choice, the model's is log entries 28, 34, 58 and 66. -/
def Obligations.KeyHitsOrFills : Prop :=
  (∀ (l : Fin 16) (j k : Nat) (i : W64) (bs : List Byte) (sr s' s : State),
    let s0 := releaseKey s j (keyNum (wA i))
    laneTask s l.val (fun i => isOp .key i && wArg i ≠ 1) = some (j, i) → (getJob s j).wait = .nothing →
    issueOk (getJob s j) i = true → wArg i ≠ 0xFF → wB i = 0 → ownerHeld s = true → recordUse s0 j = .here bs sr →
    lookupKey sr (jobTenant s j) (wIndex i) (parseRecord bs).epoch = (.hit k, s') →
    laneWindowOk s 0 (getSlot s' k).notAfter.toNat = true →
    ∃ t, exec (.key l .same) s = .next t ∧ keyReg t j (keyNum (wA i)) = some (keyRefOf s' k) ∧
      (getJob t j).pos = (getJob s j).pos + 1 ∧ (getJob t j).flags = { (getJob s j).flags with hit := true } ∧
      (getSlot t k).leases = (getSlot s' k).leases + 1 ∧ slotKey t k = slotKey s' k ∧
      (∀ m, m ≠ j → getJob t m = getJob s m) ∧ keepsBut [.jobs, .serai, .mint] s t) ∧
  (∀ (l : Fin 16) (j : Nat) (i : W64) (bs : List Byte) (sr s' s : State),
    let s0 := releaseKey s j (keyNum (wA i))
    let r := parseRecord bs
    laneTask s l.val (fun i => isOp .key i && wArg i ≠ 1) = some (j, i) → (getJob s j).wait = .nothing →
    issueOk (getJob s j) i = true → wArg i ≠ 0xFF → wB i = 0 → ownerHeld s = true → recordUse s0 j = .here bs sr →
    lookupKey sr (jobTenant s j) (wIndex i) r.epoch = (.miss, s') → tableHas r (wIndex i) = true →
    entryBusy s (jobTenant s j) (BitVec.ofNat 24 (wIndex i)) = false →
    findFill s (jobTenant s j) (BitVec.ofNat 24 (wIndex i)) false = none → (r.spaceLocal = true ∨ s.pins.linkLost = false) →
    ∃ t, exec (.key l .same) s = .next t ∧ (getJob t j).wait = .mint s.mint.nextFill ∧ (getJob t j).pos = (getJob s j).pos ∧
      keyReg t j (keyNum (wA i)) = none ∧ t.mint.nextFill = s.mint.nextFill + 1 ∧
      (let f := getFill t s.mint.nextFill
       f.tenant = jobTenant s j ∧ f.index = BitVec.ofNat 24 (wIndex i) ∧ f.recordOnly = false ∧ f.phase = .reading ∧
       f.joined = [j] ∧ f.record = bs ∧ f.addr = r.base + w64 (128 * wIndex i)) ∧
      (∀ m, m ≠ j → getJob t m = getJob s m) ∧ keepsBut [.jobs, .serai, .mint, .ledger, .ai, .ration] s t) ∧
  (∀ (l : Fin 16) (j : Nat) (i : W64) (s : State),
    let t0 := jobTenant s j
    laneTask s l.val (fun i => isOp .key i && wArg i ≠ 1) = some (j, i) → (getJob s j).wait = .nothing →
    issueOk (getJob s j) i = true → wArg i ≠ 0xFF → ownerHeld s = true →
    recordUse (releaseKey s j (keyNum (wA i))) j = .miss → findFill s t0 (BitVec.ofNat 24 (idxRecord t0.toNat)) true = none →
    ∃ t, exec (.key l .same) s = .next t ∧ (getJob t j).wait = .mint s.mint.nextFill ∧ (getJob t j).pos = (getJob s j).pos ∧
      keyReg t j (keyNum (wA i)) = none ∧ t.mint.nextFill = s.mint.nextFill + 1 ∧
      (let f := getFill t s.mint.nextFill
       f.tenant = t0 ∧ f.index = BitVec.ofNat 24 (idxRecord t0.toNat) ∧ f.recordOnly = true ∧ f.phase = .reading ∧
       f.joined = [j] ∧ f.addr = recordAddr s t0.toNat) ∧
      (∀ m, m ≠ j → getJob t m = getJob s m) ∧ keepsBut [.jobs, .serai, .mint, .ai, .ration] s t) ∧
  (∀ (l : Fin 16) (j e st : Nat) (i : W64) (bs h c kek : List Byte) (y z : Job) (sr su s : State),
    let s0 := releaseKey s j (keyNum (wA i))
    let r := parseRecord bs
    let t0 := jobTenant s j
    let kt := ofLe (slice h 1 1)
    let n := ofLe (slice h 26 4)
    let args := [kek, slice h 32 12, h.take 32, slice h 48 16, c]
    let plain := stdBytes (.gcmSiv true) args c.length
    let m := plain.take n
    let opens := Config.stdOk (.gcmSiv true) args && (plain.drop n).all (fun b => b = 0) &&
      (if e < 8 then chMaterialOk kt m else scMaterialOk kt m)
    let way := privateWay (upMint su (fun q => { q with unwraps := q.unwraps + 1 }))
    laneTask s l.val (fun i => isOp .key i && wArg i ≠ 1) = some (j, i) → (getJob s j).wait = .nothing →
    issueOk (getJob s j) i = true → wArg i ≠ 0xFF → wB i ≠ 0 → ownerHeld s = true → recordUse s0 j = .here bs sr →
    (desigOf (wB i)).bind streamOf = some st → takeStream (getJob s0 j) st 64 = .ok (h, y) → headerOk h true = true →
    ofLe (slice h 44 4) = 0 → baleFault s0 h true t0 (wIndex i) r.epoch true = none → holdsOne s0 j kt = false →
    holdEngine s0 j kt = some e → takeStream y st (16 * ceilDiv n 16) = .ok (c, z) →
    useKek (longLookup sr) t0 r.epoch = .got kek su →
    (opens = false → ∃ t, exec (.key l .same) s = .next t ∧ t.fuse = s.fuse ∧ t.mode = s.mode ∧ t.pending = s.pending ∧
      (getJob t j).isOver = true ∧ (getJob t j).status = .baleInvalid) ∧
    (opens = true → way = .none → ∃ t, exec (.key l .same) s = .next t ∧ t.fuse = s.fuse ∧ t.mode = s.mode ∧ t.pending = s.pending ∧
      (getJob t j).isOver = true ∧ (getJob t j).status = .storageFault) ∧
    (∀ (k : Nat) (sw : State), opens = true → way = .way k sw →
      ∃ t, exec (.key l .same) s = .next t ∧ t.fuse = s.fuse ∧ t.mode = s.mode ∧ t.pending = s.pending ∧
        (getJob t j).pos = (getJob s j).pos + 1 ∧ (getJob t j).flags = { (getJob s j).flags with hit := false } ∧
        t.mint.unwraps = s.mint.unwraps + 1 ∧ (getJob t j).cursors = z.cursors ∧
        keyReg t j (keyNum (wA i)) = some (keyRefOf t k) ∧ (getSlot t k).kind = .holding ∧ (getSlot t k).leases = 1 ∧
        (e < 8 → (getBench t e).holder = some j ∧ (getBench t e).holdLen = m.length ∧
          readBytes (getBench t e).mem 0x8000 m.length = m) ∧
        (8 ≤ e → (getCtx t (e - 8)).holder = some j ∧ (getCtx t (e - 8)).holdLen = m.length ∧
          readBytes (getCtx t (e - 8)).mem 16384 m.length = m)))

/-- R194, R195, R214, R215: a fill whose bale is there and whose set has a FREE way writes the key under its mask and serves the KEY that
waits when the bale opens, and ends it with BALE_INVALID when it does not; a fill that failed ends it. R182, R217: a tenant record that
passes its checks becomes an INTERNAL slot, which is lent to the instruction that waits. R171: in a yoke
the two lanes' copies of the slot reference agree there. Where the spec leaves a choice, the model's is log
entries 5, 24, 58 and 66. -/
def Obligations.FillsServeTheKey : Prop :=
  (∀ (f j k : Nat) (kek : List Byte) (su s : State),
    let x := getFill s f
    let e := (parseRecord x.record).epoch
    let h := x.bale.take 32
    let args := [kek, slice x.bale 112 12, h, slice x.bale 96 16, slice x.bale 32 64]
    let plain := stdBytes (.gcmSiv true) args 64
    let opens := Config.stdOk (.gcmSiv true) args && (plain.drop (headerSlot h).klen).all (fun b => b = 0)
    let reg := keyNum (wA (instrAt s (getJob s j) (getJob s j).pos))
    s.mint.fills.any (fun kv => kv.1 = f) = true → x.phase = .arrived → x.recordOnly = false → x.joined = [j] →
    flushHolds s x = false → s.serai.zeroed = false → headerOk h false = true → ofLe (slice x.bale 124 4) = 0 →
    baleFault s h false x.tenant x.index.toNat e true = none → useKek s x.tenant e = .got kek su →
    setAged su (setOf s .tenant x.tenant.toNat x.index.toNat) = false →
    (waysOf (setOf s .tenant x.tenant.toNat x.index.toNat)).find? (fun k => (getSlot su k).kind = .free) = some k →
    (getJob s j).cmp = .same → keyReg s j reg = none →
    (isYoke s (seatLane (getJob s j)) = true → Config.copiesDiffer s.free = false) →
    ∃ t, exec (.mintFill f) s = .next t ∧ t.fuse = s.fuse ∧ t.mode = s.mode ∧ t.pending = s.pending ∧
      (opens = true → slotKey t k = padTo 64 (plain.take (headerSlot h).klen) ∧ (getSlot t k).kind = .tenant ∧
        (getSlot t k).tenant = x.tenant ∧ (getSlot t k).index = x.index ∧ (getSlot t k).leases = 1 ∧
        (getSlot t k).gen = (getSlot su k).gen ∧ t.mint.unwraps = s.mint.unwraps + 1 ∧ (getJob t j).wait = .nothing ∧
        (getJob t j).pos = (getJob s j).pos + 1 ∧ (getJob t j).flags = { (getJob s j).flags with hit := false } ∧
        keyReg t j reg = some (keyRefOf t k) ∧ (∀ m, m ≠ j → getJob t m = getJob s m) ∧
        keepsBut [.jobs, .serai, .mint, .well, .free] s t) ∧
      (opens = false → (getSlot t k).kind = .free ∧ t.mint.unwraps = s.mint.unwraps ∧
        (∀ l, (getJob s j).seat = .running l → (getJob s j).isOver = false →
          (getJob t j).isOver = true ∧ (getJob t j).status = .baleInvalid))) ∧
  (∀ (f j k : Nat) (s : State),
    let x := getFill s f
    s.mint.fills.any (fun kv => kv.1 = f) = true → x.phase = .arrived → x.recordOnly = true → x.joined = [j] →
    flushHolds s x = false → s.serai.zeroed = false → recordOk s x.tenant.toNat x.bale = true →
    setAged s (setOf s .internal x.tenant.toNat x.index.toNat) = false →
    (waysOf (setOf s .internal x.tenant.toNat x.index.toNat)).find? (fun k => (getSlot s k).kind = .free) = some k →
    ∃ t, exec (.mintFill f) s = .next t ∧ slotKey t k = x.bale ∧ (getSlot t k).kind = .internal ∧ (getSlot t k).tenant = x.tenant ∧
      (getSlot t k).index = x.index ∧ (getSlot t k).leases = 1 ∧ (getSlot t k).gen = (getSlot s k).gen ∧
      tget none t.mint.lent j = some k ∧ getJob t j = { getJob s j with wait := .nothing } ∧ getFill t f = {} ∧
      (∀ m, m ≠ j → getJob t m = getJob s m) ∧ keepsBut [.jobs, .serai, .mint] s t) ∧
  (∀ (f j l : Nat) (st : Status) (s : State), s.mint.fills.any (fun kv => kv.1 = f) = true → (getFill s f).phase = .failed st →
    (getFill s f).joined = [j] → (getJob s j).seat = .running l → (getJob s j).isOver = false →
    (∀ b q, (getBench s b).run = some q → q.job ≠ j) → (∀ c q, (getCtx s c).run = some q → q.job ≠ j) →
    ∃ t, exec (.mintFill f) s = .next t ∧ (getJob t j).isOver = true ∧ (getJob t j).status = st ∧ getFill t f = {} ∧
      keepsBut [.jobs, .serai, .mint, .house, .scales, .well] s t)

/-- R197, R198, R282, R99, R191: PUT draws its nonce in class 2, then writes its bale and holds its entry busy until the write is acknowledged, and the job goes on; DERIVE loads
a register with a new slot of the job's own that holds the derived key. Where the spec leaves a choice, the model's is log entries 27, 28,
58 and 66. -/
def Obligations.PutAndDeriveKeys : Prop :=
  (∀ (l : Fin 16) (j : Nat) (i : W64) (k : KeyRef) (bs : List Byte) (sr s : State),
    laneTask s l.val (fun i => isOp .key i && wArg i = 1) = some (j, i) → (getJob s j).wait = .nothing → (getJob s j).kept = none →
    keyReg s j (keyNum (wA i)) = some k → keyRefOk s k = true → (getSlot s k.slot).isHolding = false → ownerHeld s = true →
    recordUse s j = .here bs sr → tableHas (parseRecord bs) (wIndex i) = true →
    entryBusy s (jobTenant s j) (BitVec.ofNat 24 (wIndex i)) = false → wellCan s = true →
    ∃ t, exec (.put l .same) s = .next t ∧ getJob t j = { getJob s j with wait := .well s.well.nextDraw } ∧
      t.well = { s.well with
        nextDraw := s.well.nextDraw + 1
        draws := s.well.draws ++ [{ draw := s.well.nextDraw, cls := 2, who := .lane j l.val, need := 12 }] } ∧
      (∀ m, m ≠ j → getJob t m = getJob s m) ∧ keepsBut [.jobs, .well] s t) ∧
  (∀ (l : Fin 16) (j : Nat) (i : W64) (k : KeyRef) (bs kek nonce : List Byte) (sr su s : State),
    let r := parseRecord bs
    let held := (j, jobTenant s j, BitVec.ofNat 24 (wIndex i))
    let bale := wrapBale kek (putHeader (getSlot su k.slot) (jobTenant s j) r.epoch (wIndex i)) nonce
      ((slotKey su k.slot).take (getSlot su k.slot).klen)
    let a : FabAttr :=
      if r.spaceLocal then {} else { spaceLocal := false, func := r.func, pv := r.pv, pasid := if r.pv then r.pasid else 0 }
    laneTask s l.val (fun i => isOp .key i && wArg i = 1) = some (j, i) → (getJob s j).wait = .nothing →
    (getJob s j).kept = some nonce →
    keyReg s j (keyNum (wA i)) = some k → keyRefOk s k = true → (getSlot s k.slot).isHolding = false → ownerHeld s = true →
    recordUse s j = .here bs sr → tableHas r (wIndex i) = true →
    entryBusy s (jobTenant s j) (BitVec.ofNat 24 (wIndex i)) = false →
    (r.spaceLocal = true ∨ s.pins.linkLost = false) → useKek sr (jobTenant s j) r.epoch = .got kek su →
    ∃ t, exec (.put l .same) s = .next t ∧ (getJob t j).pos = (getJob s j).pos + 1 ∧ (getJob t j).keys = (getJob s j).keys ∧
      t.mint.busy = s.mint.busy ++ [held] ∧ (∀ m, m ≠ j → getJob t m = getJob s m) ∧
      t.ai = (issueAccess su (.put j held.2.1 held.2.2) a (r.base + w64 (128 * wIndex i)) 128 (some bale)).ai ∧
      keepsBut [.jobs, .serai, .mint, .well, .ai, .ration] s t) ∧
  (∀ (l : Fin 16) (j k : Nat) (i : W64) (inp : List Byte) (y : Job) (s2 s : State),
    let kb := keyNum (wB i)
    let key := deriveKey (wFn i) (wParam i) (keyBytes s j kb) inp
    let s1 := modJob s j (fun _ => y)
    laneTask s l.val (isOp .derive) = some (j, i) → (getJob s j).wait = .nothing → issueOk (getJob s j) i = true →
    keyFault s j kb 4 (wFn i) (kdfTypes (wFn i)) = none → wField2 i < 128 →
    Nat.land (wField2 i) (grantOf (keySlot s j kb)) = wField2 i → deriveInput (getJob s j) (opd (wC i)) = .ok (inp, y) →
    privateWay (if kb = keyNum (wA i) then s1 else releaseKey s1 j (keyNum (wA i))) = .way k s2 →
    (∀ old, keyReg s1 j (keyNum (wA i)) = some old → old.slot ≠ k) → y.ring = (getJob s j).ring →
    ∃ t, exec (.derive l .same) s = .next t ∧ (getJob t j).pos = y.pos + 1 ∧ slotKey t k = padTo 64 key ∧
      (getSlot t k).kind = .privateKey ∧ (getSlot t k).leases = 1 ∧ (getSlot t k).ktype = BitVec.ofNat 6 (wParam i) ∧
      (getSlot t k).usage = (derivedSlot (keySlot s j kb) (wParam i) (wField2 i)).usage ∧
      (getSlot t k).notAfter = (keySlot s j kb).notAfter ∧ keyReg t j (keyNum (wA i)) = some (keyRefOf t k) ∧
      (∀ m, m ≠ j → getJob t m = getJob s m) ∧ keepsBut [.jobs, .serai, .well] s t)

/-- R203, R204, R205, R268, Table 7.7: GO in Provision makes the Mint busy, takes contexts 2 and 3 and reads the charter; elsewhere it is
refused. Of the charter in the two contexts steps 2 to 6 are checked, each with its RESULT and REASON, and then the signatures: a verdict
against one of them refuses the charter with SIG_EC or SIG_PQ. CHARTER_DONE ends processing: a charter that a step has refused changes
nothing but the Mint's and the contexts' own state, and one that passed every step is accepted, and SEQ takes its number. Where the spec
leaves a choice, the model's is log entries 5, 10, 57, 65 and 69. -/
def Obligations.ChartersRun : Prop :=
  ((∀ (p : CtlPort) (s : State), served s = true → s.mint.chBusy = false → s.mode.mode = .provision → (getCtx s 2).faulted = false →
    (getCtx s 3).faulted = false → unitMaskDead s = false →
    ∃ t, exec (.charterGo p) s = .next t ∧
      t.mint = { s.mint with
        chBusy := true, chStage := .reading, chRun := s.mint.chRun + 1, chSeq := 0, chTally := [], chSecrets := [] } ∧
      t.scales = { s.scales with charter := true } ∧ t.ai = (issueAccess s .charterRead {} s.mint.chAddr 32768 none).ai ∧
      keepsBut [.mint, .scales, .ai, .ration] (respond s p false) t) ∧
  (∀ (p : CtlPort) (s : State), served s = true → s.mint.chBusy = true →
    ∃ t, exec (.charterGo p) s = .next t ∧ t.mint = { s.mint with chRefused := s.mint.chRefused + 1 } ∧
      recordOffered s t 5 1 Status.accessFault.code [w32 (chGoOff + 2 ^ 24 * portBit p + 2 ^ 27), 1] ∧
        keepsBut [.mint, .ledger] (respond s p false) t) ∧
  (∀ (p : CtlPort) (s : State), served s = true → s.mint.chBusy = false → s.mode.mode ≠ .provision →
    ∃ t, exec (.charterGo p) s = .next t ∧ t.mint = { s.mint with
        chRefused := s.mint.chRefused + 1, chResult := Status.accessFault.code, chReason := 1, chIndex := 0 } ∧
      keepsBut [.mint, .ledger] (respond s p false) t) ∧
  (∀ (p : CtlPort) (s : State), served s = true → s.mint.chBusy = false → s.mode.mode = .provision →
    ((getCtx s 2).faulted = true ∨ (getCtx s 3).faulted = true ∨ unitMaskDead s = true) →
    ∃ t, exec (.charterGo p) s = .next t ∧ t.mint = { s.mint with
        chRefused := s.mint.chRefused + 1, chResult := Status.pkAborted.code, chReason := 0, chIndex := 0 } ∧
      recordOffered s t 5 0x302 Status.pkAborted.code [0, 0, 0] ∧ keepsBut [.mint, .ledger] (respond s p false) t)) ∧
  ((∀ s : State, s.mint.chStage = .here → (getCtx s 2).faulted = false → (getCtx s 3).faulted = false → unitMaskDead s = false →
    (chCommands (charterBytes s) = none → (charterAdvance s).mint = { s.mint with chStage := .refused .encoding 3 0 }) ∧
    (∀ cmds reason, chCommands (charterBytes s) = some cmds → chGate s (charterBytes s) cmds = some reason →
      (charterAdvance s).mint = { s.mint with chStage := .refused .accessFault reason 0 }) ∧
    (∀ cmds, chCommands (charterBytes s) = some cmds → chGate s (charterBytes s) cmds = none →
      (charterAdvance s).mint.chStage = .engine 0 ∧
      (∃ r, r ∈ (charterAdvance s).house.queue ∧ r.who = .mint ∧ r.fn = 0x15 ∧ r.part = 0) ∧
      ((getDom s 2).phase = .gated → (getDom s 2).fault = false → (getDom (charterAdvance s) 2).phase = .waking))) ∧
  (∀ (n part : Nat) (verdict : List Byte) (s : State), s.mint.chStage = .engine part → s.mint.chRun = n → part < 2 →
    (internalGives s .mint n part verdict).mint = { s.mint with
      chStage := if verdict.any (fun b => b ≠ 0) then .refused .accessFault (8 + part) 0 else .passed part }) ∧
  (∀ s : State, ((getCtx s 2).faulted = true ∨ (getCtx s 3).faulted = true ∨ unitMaskDead s = true) → s.mint.chStage ≠ .idle →
    (∀ st reason index, s.mint.chStage ≠ .refused st reason index) →
    (charterAdvance s).mint = { s.mint with chStage := .refused .pkAborted 0 0 })) ∧
  ((∀ (st : Status) (reason index : Nat) (s : State), s.mint.chStage = .refused st reason index → charterAccess s = false →
    ∃ t, exec .charterDone s = .next t ∧ t.mint = { s.mint with
        chBusy := false, chStage := .idle, chTally := [], chSecrets := [], chRefused := s.mint.chRefused + 1, chResult := st.code
        chReason := BitVec.ofNat 5 reason, chIndex := BitVec.ofNat 6 index } ∧
      t.scales.charter = false ∧ (getCtx t 2).mem = [] ∧ (getCtx t 3).mem = [] ∧
      recordOffered s t 5 0x302 st.code (loHi s.mint.chSeq ++ [w32 (reason + 32 * index)]) ∧
      keepsBut [.mint, .scales, .house, .ledger] s t) ∧
  (∀ (q : ChState) (cmds : List ChCmd) (s : State), s.mint.chStage = .ready → unitMaskDead s = false →
    chCommands (charterBytes s) = some cmds →
    chChecks s (chTallyOf s) (charterBytes s) 0 { owner := ownerHeld s } cmds = .inr q →
    ∃ t, exec .charterDone s = .next t ∧ t.mint.chBusy = false ∧ t.mint.chStage = .idle ∧ t.scales.charter = false ∧
      (getCtx t 2).mem = [] ∧ (getCtx t 3).mem = [] ∧ t.mint.chResult = Status.done.code ∧ t.mint.chReason = 0 ∧
      t.mint.chAccepted = s.mint.chAccepted + 1 ∧ t.mint.chRefused = s.mint.chRefused ∧
      (chSeqOf (charterBytes s) ≠ 0 → t.watch.box.seq = chSeqOf (charterBytes s)) ∧
      (∃ front, t.ledger.waiting = front ++ [{ producer := 5, type := 0x302, code := Status.done.code
                                               body := loHi (chSeqOf (charterBytes s)) ++ [0] ++ cmds.map charterWord
                                               madeAt := s.cycle, unit := recordUnit 0x302 (loHi (chSeqOf (charterBytes s)) ++ [0] ++
                                                 cmds.map charterWord) }]) ∧
      t.fuse = s.fuse ∧ t.mode = s.mode ∧ t.pending = s.pending))

/-! ### Muster -/

/-- R126, R127, R129: admission takes the oldest arrived entry, Courier entries first; the bucket admits a Courier job and is charged,
or demotes it to Post, and the other classes are queued as their waybills ask. R130: a job whose entry is refused ends here with ENCODING.
Where the spec leaves a choice, the model's is log entry 63. -/
def Obligations.AdmissionClassifies : Prop :=
  (∀ (j : Nat) (s : State), (s.muster.arrCourier ++ s.muster.arrOther).find? (admitMay s) = some j →
    entryRefused (getJob s j).word0 = false → (e0Yoke (getJob s j).word0 = true → anyYoke s = true) →
    ∃ t, exec .admission s = .next t ∧ (getJob t j).seat = .queued ∧
      (let c := e0Class (getJob s j).word0
       let courier := (getRing s (getJob s j).ring).courier
       let charge : Int := 1024 * (chargeVal s : Int)
       (c = 1 → (getJob t j).cls = .post ∧ t.muster.cbLevel = s.muster.cbLevel ∧ t.muster.postQ.getLast? = some j) ∧
       (c = 2 → (getJob t j).cls = .freight ∧ t.muster.cbLevel = s.muster.cbLevel ∧ t.muster.freightQ.getLast? = some j) ∧
       (c = 3 → (getJob t j).cls = .ballast ∧ t.muster.cbLevel = s.muster.cbLevel ∧ t.muster.ballastQ.getLast? = some j) ∧
       (c = 0 → courier = false → (getJob t j).cls = .post ∧ t.muster.cbLevel = s.muster.cbLevel) ∧
       (c = 0 → courier = true → charge ≤ s.muster.cbLevel → (getJob t j).cls = .courier ∧ t.muster.courierQ.getLast? = some j ∧
         t.muster.cbLevel = s.muster.cbLevel - charge ∧ t.muster.cbAdmitted = s.muster.cbAdmitted + 1) ∧
       (c = 0 → courier = true → s.muster.cbLevel < charge → (getJob t j).cls = .post ∧ t.muster.cbLevel = s.muster.cbLevel ∧
         t.muster.cbDemoted = s.muster.cbDemoted + 1)) ∧
      (∀ k, k ≠ j → getJob t k = getJob s k) ∧ keepsBut [.jobs, .muster] s t) ∧
  (∀ (j : Nat) (s : State), (s.muster.arrCourier ++ s.muster.arrOther).find? (admitMay s) = some j →
    (entryRefused (getJob s j).word0 = true ∨ (e0Yoke (getJob s j).word0 = true ∧ anyYoke s = false)) →
    ∃ t, exec .admission s = .next t ∧ (getJob t j).seat = .ended ∧ (getJob t j).isOver = true ∧ (getJob t j).status = .encoding ∧
      j ∉ t.muster.arrCourier ∧ j ∉ t.muster.arrOther ∧ t.fuse = s.fuse ∧ t.mode = s.mode ∧ t.pending = s.pending)

/-- R131 to R136, R154: a Courier job goes to its target, where a running job gets a preemption request and the jobs in preparation and
setup are put back; another job joins the staged jobs of its target, and enters execution at once where the target is reserved. Which of
several targets of equal preference a job takes is the model's choice, log entry 63. -/
def Obligations.PlacementSeatsJobs : Prop :=
  (∀ (j l : Nat) (s : State), s.muster.courierQ.find? (placeMay s) = some j → courierTarget s j = some l →
    ∃ t, exec .courierPlacement s = .next t ∧ (getJob t j).seat = .staged l ∧ (getLane t l).courier = some j ∧
      (getLane t l).preempt = (getLane s l).run.isSome ∧ (getLane t l).run = (getLane s l).run ∧ (getLane t l).prep = none ∧
      (getLane t l).setup = none ∧ (getLane t l).saved = (getLane s l).saved ∧ (getLane t l).staged = (getLane s l).staged ∧
      (∀ k, k ≠ l → getLane t k = getLane s k) ∧ keepsBut [.jobs, .lanes, .muster, .serai, .ai, .ration] s t) ∧
  (∀ (j l : Nat) (s : State), s.muster.courierQ = [] → (classOrder s).findSome? (classJob s) = some j → targetFor s j = some l →
    anyReserved s l = false → ∃ t, exec .placement s = .next t ∧ (getJob t j).seat = .staged l ∧ t.muster.lastLane = l ∧
      getLane t l = { getLane s l with staged := (getLane s l).staged ++ [j] } ∧ (∀ k, k ≠ l → getLane t k = getLane s k) ∧
      keepsBut [.jobs, .lanes, .muster, .ai, .ration] s t) ∧
  (∀ (j l : Nat) (s : State), s.muster.courierQ = [] → (classOrder s).findSome? (classJob s) = some j → targetFor s j = some l →
    anyReserved s l = true →
    ∃ t, exec .placement s = .next t ∧ (getJob t j).seat = .running l ∧ t.muster.lastLane = l ∧ (getLane t l).run = some j ∧
      (getLane t l).staged = [] ∧ (∀ k, k ≠ l → getLane t k = getLane s k) ∧ t.fuse = s.fuse ∧ t.mode = s.mode ∧ t.pending = s.pending)

/-- R135, R137, R157, R158, R170, R142, R133, Table 5.5: a preempted job is saved on its lane, which writes its save slot,
as does the other lane of a yoke; the job saved last
goes on there when no waiting Courier job takes the lane, and its slot is cleared; a laggard's staged jobs go back to the front of their
queues in their order, the share window is measured and a write of MU_CR_LATMAX clears it. Where the spec leaves a choice, the model's is
log entries 24 and 63. -/
def Obligations.PreemptionAndWindows : Prop :=
  (∀ (l : Fin 16) (j : Nat) (s : State), (getLane s l.val).run = some j → (getLane s l.val).preempt = true →
    preemptable s l.val = true → laneHeld s l.val = false → l.val ∈ members s l.val →
    ∃ t, exec (.preemptionSave l) s = .next t ∧
      getLane t l.val = { getLane s l.val with
        run := none, saved := j :: (getLane s l.val).saved, preempt := false, slots := (j, saveImage s j) :: (getLane s l.val).slots } ∧
      (∀ k, k ∈ members s l.val → k ≠ l.val →
        getLane t k = { getLane s k with slots := (j, saveImage s j) :: (getLane s k).slots }) ∧
      (getJob t j).seat = .saved l.val ∧ getJob t j = { getJob s j with seat := .saved l.val, eaten := (getJob t j).eaten } ∧
      (getUnit t (laneUnit l.val)).preempts = (getUnit s (laneUnit l.val)).preempts + 1 ∧ (∀ k, k ≠ j → getJob t k = getJob s k) ∧
      (∀ k, k ∉ members s l.val → getLane t k = getLane s k) ∧ keepsBut [.units, .jobs, .lanes] s t) ∧
  (∀ (l : Fin 16) (j : Nat) (rest : List Nat) (s : State), (getLane s l.val).saved = j :: rest → laneFree s l.val = true →
    laneOut s l.val = false → jobMoves s l.val j = true → courierDue s l.val = false → laneHeld s l.val = false →
    l.val ∈ members s l.val → (getJob s j).stop = none →
    ∃ t, exec (.resumption l) s = .next t ∧
      getLane t l.val = { getLane s l.val with
        run := some j, saved := rest, slots := (getLane s l.val).slots.filter (fun c => c.1 ≠ j) } ∧
      getJob t j = { getJob s j with seat := .running l.val, onLane := true, stuck := 0, eaten := [] } ∧ (∀ k, k ≠ j →
        getJob t k = getJob s k) ∧
      (∀ k, k ∈ members s l.val → (getLane t k).slots = (getLane s k).slots.filter (fun c => c.1 ≠ j)) ∧
      (∀ k, k ∉ members s l.val → getLane t k = getLane s k) ∧ keepsBut [.jobs, .lanes] s t) ∧
  (∀ (l : Fin 16) (s : State), leadOf s l.val = l.val → isLaggard s l.val = true → (getLane s l.val).laggard = false →
    ∃ t, exec (.laggard l) s = .next t ∧ (getLane t l.val).laggard = true ∧ (getLane t l.val).staged = [] ∧
      (∀ j, j ∈ (getLane s l.val).staged → (getJob t j).seat = .queued ∧ (getJob t j).started = false) ∧
      ((getLane s l.val).staged.Pairwise (fun a b => (getJob s a).adm ≤ (getJob s b).adm) →
        let of_ := fun (c : JobClass) => (getLane s l.val).staged.filter (fun j => (getJob s j).cls = c)
        t.muster = { s.muster with
          courierQ := of_ .courier ++ s.muster.courierQ, postQ := of_ .post ++ s.muster.postQ
          freightQ := of_ .freight ++ s.muster.freightQ, ballastQ := of_ .ballast ++ s.muster.ballastQ }) ∧
      keepsBut [.jobs, .lanes, .muster, .serai, .ai] s t) ∧
  (∀ s : State, awake s = true →
    ∃ t, exec .shareWindowEnd s = .next t ∧ t.muster = { s.muster with
        measPost := shareOf s s.muster.occPost, measFreight := shareOf s s.muster.occFreight
        measBallast := shareOf s s.muster.occBallast, occPost := 0, occFreight := 0, occBallast := 0, occCourier := 0, winCycles := 0
        sharesOff := s.muster.throttle } ∧ keepsBut [.muster] s t) ∧
  (∀ (p : CtlPort) (s : State), mayTake s p 0x200060 4 = true →
    ∃ t, exec (.latmaxClear p) s = .next t ∧ t.ai = { s.ai with crLatMax := 0 } ∧ keepsBut [.ai] (tookWrite s p 0x200060 4) t)

/-! ### The lane pipeline -/

/-- R154, R80, R160: preparation does the job-start work of a staged job, setup moves it on, and the known-answer test of a lane leaves
it sound, or FAULTED and quarantined. R65, R80, R82, Table 3.2: a job enters execution with the job-start values of its state; one that
fails a job-start check ends there with its status. A job that has ended leaves its lane, its key registers and its satchels are empty,
and the lane's unit counts the ending. -/
def Obligations.JobsRunThroughTheLane : Prop :=
  ((∀ (l : Fin 16) (j : Nat) (s : State), (getLane s l.val).staged.find? (fun k => (getLane s l.val).setup ≠ some k) = some j →
    (getLane s l.val).prep = none → (getLane s l.val).courier = none → (getJob s j).started = false → laneHeld s l.val = false →
    jobMoves s l.val j = true → (getJob s j).isOver = false →
    ∃ t, exec (.preparation l .same) s = .next t ∧ getLane t l.val = { getLane s l.val with prep := some j } ∧
      (getJob t j).started = true ∧ (getJob t j).pos = (getJob t j).preparedTo ∧ (getJob t j).sat = [] ∧
      (getJob t j).cursors = [] ∧ (getJob t j).pend = .done ∧ (getJob t j).isOver = false ∧
      ((getJob s j).stop = none → (getJob t j).stop = startFault s (getJob s j)) ∧
      (keyHits s j (instrAt s (getJob s j) 0) = none → (getJob t j).pos = 0) ∧
      (∀ k, k ≠ j → getJob t k = getJob s k) ∧ (∀ k, k ≠ l.val → getLane t k = getLane s k) ∧
      keepsBut [.jobs, .lanes, .serai, .mint] s t) ∧
  (∀ (l : Fin 16) (j : Nat) (s : State), (getLane s l.val).prep = some j → (getLane s l.val).setup = none → laneHeld s l.val = false →
    jobMoves s l.val j = true → setupOk s j = true →
    ∃ t, exec (.setup l) s = .next t ∧ getLane t l.val = { getLane s l.val with prep := none, setup := some j } ∧
      getJob t j = { getJob s j with setUp := true } ∧ keepsBut [.jobs, .lanes] s t) ∧
  (∀ (l : Fin 16) (pass : Bool) (s : State), portsServed s = true → (getLane s l.val).kat = true →
    ∃ t, exec (.laneKatDone l pass) s = .next t ∧
      getLane t l.val = { getLane s l.val with kat := false, faulted := !pass, retest := false } ∧
      (pass = false → (getUnit t (laneUnit l.val)).quarantine = true) ∧ (∀ k, k ≠ l.val → getLane t k = getLane s k) ∧
      keepsBut [.units, .lanes, .relay, .ledger, .ai, .ration] s t)) ∧
  ((∀ (l : Fin 16) (j : Nat) (s : State), nextJobOf (getLane s l.val) = some j → (getLane s l.val).run = none →
    laneHeld s l.val = false → laneOut s l.val = false → jobMoves s l.val j = true → (getJob s j).stop = none →
    ((getJob s j).started = true ∨ startFault s (getJob s j) = none) →
    ((getLane s l.val).courier ≠ none ∨ courierDue s l.val = false) →
    ∃ t, exec (.jobStart l) s = .next t ∧ (getLane t l.val).run = some j ∧ (getJob t j).seat = .running l.val ∧
      (getJob t j).occ = 0 ∧ (getJob t j).isOver = (getJob s j).isOver ∧ j ∉ (getLane t l.val).staged ∧
      ((getJob s j).started = false → (getJob t j).pos = 0 ∧ (getJob t j).sat = [] ∧ (getJob t j).cursors = [] ∧
        (getJob t j).flags = { man := e0Manifest (getJob s j).word0, yok := isYoke s l.val } ∧ (getJob t j).pend = .done ∧
        (getJob t j).run = none) ∧ (∀ k, k ≠ j → getJob t k = getJob s k) ∧ keepsBut [.jobs, .lanes] s t) ∧
  (∀ (l : Fin 16) (j : Nat) (st : Status) (s : State), nextJobOf (getLane s l.val) = some j → (getLane s l.val).run = none →
    laneHeld s l.val = false → laneOut s l.val = false → jobMoves s l.val j = true → (getJob s j).started = false →
    startFault s (getJob s j) = some st → ((getLane s l.val).courier ≠ none ∨ courierDue s l.val = false) →
    ∃ t, exec (.jobStart l) s = .next t ∧ (getLane t l.val).run = some j ∧ (getJob t j).isOver = true ∧ (getJob t j).status = st ∧
      t.fuse = s.fuse ∧ t.mode = s.mode ∧ t.watch = s.watch ∧ t.pending = s.pending) ∧
  (∀ (l : Fin 16) (j : Nat) (s : State), (getLane s l.val).run = some j → (getJob s j).isOver = true → laneHeld s l.val = false →
    ∃ t, exec (.jobEnd l .same) s = .next t ∧ (getLane t l.val).run = none ∧ (getLane t l.val).preempt = false ∧
      (getJob t j).seat = .ended ∧ (getJob t j).status = (getJob s j).status ∧ (getJob t j).keys = [] ∧ (getJob t j).sat = [] ∧
      (getUnit t (laneUnit l.val)).jobs = (getUnit s (laneUnit l.val)).jobs + 1 ∧
      (getRing t (getJob s j).ring).expTime = expectNext (getRing s (getJob s j).ring).expTime ((getJob s j).ran / 2) ∧
      t.fuse = s.fuse ∧ t.mode = s.mode ∧ t.watch = s.watch ∧ t.pending = s.pending))

/-! ### The instructions that a lane runs by itself -/

/-- R75, R76, R117, R118, R62, R63, R107: BRANCH, FENCE, EVENT, END and CMP. A branch that is taken skips its count, CLR clears the soft
flags, an EVENT adds one count, END keeps the pending status, and CMP records a difference once. A write that has failed or was written off
counts as ended for FENCE and EVENT: the model's reading, log entry 22. -/
def Obligations.ControlFlowRuns : Prop :=
  (∀ (l : Fin 16) (j : Nat) (i : W64) (s : State), laneTask s l.val (isOp .branch) = some (j, i) →
    ∃ t, exec (.branch l .same) s = .next t ∧ ranTo s t j (branchJob (getJob s j) i) ∧
      (getJob t j).pos = (getJob s j).pos + 1 + (if branchTaken (getJob s j).flags (wA i) (wB i % 4) then wImm i else 0) ∧
      (tb i 23 = true → (getJob t j).pend = .done ∧ (getJob t j).flags.tf = false ∧ (getJob t j).flags.cf = false ∧
        (getJob t j).flags.sft = false ∧ (getJob t j).flags.hit = (getJob s j).flags.hit) ∧
      (tb i 23 = false → (getJob t j).flags = (getJob s j).flags ∧ (getJob t j).pend = (getJob s j).pend) ∧ keepsBut [.jobs] s t) ∧
  (∀ (l : Fin 16) (j : Nat) (i : W64) (s : State), laneTask s l.val (isOp .fence) = some (j, i) → writesDone s j = true →
    ∃ t, exec (.fence l .same) s = .next t ∧ ranTo s t j (getJob s j) ∧ keepsBut [.jobs] s t) ∧
  (∀ (l : Fin 16) (j : Nat) (i : W64) (s : State), laneTask s l.val (isOp .event) = some (j, i) → writesDone s j = true →
    ∃ t, exec (.event l .same) s = .next t ∧ ranTo s t j (getJob s j) ∧
      tget 0 t.relay.laneAdds (immF i 0 9) = tget 0 s.relay.laneAdds (immF i 0 9) + 1 ∧
      (∀ k, k ≠ immF i 0 9 → tget 0 t.relay.laneAdds k = tget 0 s.relay.laneAdds k) ∧ keepsBut [.jobs, .relay] s t) ∧
  (∀ (l : Fin 16) (j : Nat) (s : State), (getLane s l.val).run = some j → (getJob s j).isOver = false →
    (getLane s l.val).preempt = false → laneHeld s l.val = false → jobMoves s l.val j = true →
    (progLen s (getJob s j) ≤ (getJob s j).pos ∨ isOp .endW (instrAt s (getJob s j) (getJob s j).pos) = true) →
    ∃ t, exec (.endI l .same) s = .next t ∧ getJob t j = { getJob s j with isOver := true, status := (getJob s j).pend } ∧
      (∀ k, k ≠ j → getJob t k = getJob s k) ∧ keepsBut [.jobs] s t) ∧
  (∀ (l : Fin 16) (j : Nat) (i : W64) (p q : List Byte) (z : Job) (s : State), laneTask s l.val (isOp .cmp) = some (j, i) →
    issueOk (getJob s j) i = true → cmpIn (getJob s j) i = .ok (p, q, z) →
    ∃ t, exec (.cmp l .same) s = .next t ∧
      (p = q → ranTo s t j { z with flags := { z.flags with cf := false } }) ∧
      (p ≠ q → z.pend = .done →
        ranTo s t j { z with flags := { z.flags with cf := true, sft := true }, pend := .compareFalse }) ∧
      (p ≠ q → z.pend ≠ .done → ranTo s t j { z with flags := { z.flags with cf := true } }) ∧ keepsBut [.jobs] s t)

/-- R104, Table 4.6, R60: what XFORM leaves in its satchel for each function, that it changes no other byte of the satchels, and that a
range past byte 255 ends the job with ENCODING, as does, at job start, an FN, an operand kind or an ARG that Table 4.6 does not give. -/
def Obligations.XformComputes : Prop :=
  (∀ (l : Fin 16) (j : Nat) (i : W64) (s : State), laneTask s l.val (isOp .xform) = some (j, i) → 1 ≤ wFn i → wFn i ≤ 5 →
    wParam i + len8 (wField2 i) ≤ 256 →
    ∃ t, exec (.xform l .same) s = .next t ∧
      (let n := len8 (wField2 i)
       let at_ := fun (q : Job) (d : Nat) => tread 0 q.sat (256 * satNum d + wParam i) n
       let x := getJob s j
       let y := getJob t j
       (wFn i = 1 → ∀ k, k < n → (at_ y (wA i)).getD k 0 = (at_ x (wB i)).getD k 0 ^^^ (at_ x (wC i)).getD k 0) ∧
       (wFn i = 2 → at_ y (wA i) = at_ x (wB i)) ∧
       (wFn i = 3 → ofBe (at_ y (wA i)) = (ofBe (at_ x (wB i)) + wArg i) % 2 ^ (8 * n)) ∧
       (wFn i = 4 → at_ y (wA i) = (at_ x (wB i)).reverse) ∧
       (wFn i = 5 → at_ y (wA i) = List.replicate n (BitVec.ofNat 8 (wArg i))) ∧
       (∀ a, (a < 256 * satNum (wA i) + wParam i ∨ 256 * satNum (wA i) + wParam i + n ≤ a) → tget 0 y.sat a = tget 0 x.sat a) ∧
       y.pos = x.pos + 1 ∧ y.keys = x.keys ∧ y.flags = x.flags ∧ y.cursors = x.cursors) ∧
      (∀ k, k ≠ j → getJob t k = getJob s k) ∧ keepsBut [.jobs] s t) ∧
  (∀ (l : Fin 16) (j : Nat) (i : W64) (s : State), laneTask s l.val (isOp .xform) = some (j, i) →
    256 < wParam i + len8 (wField2 i) →
    ∃ t, exec (.xform l .same) s = .next t ∧ (getJob t j).isOver = true ∧ (getJob t j).status = .encoding ∧
      (getJob t j).sat = (getJob s j).sat ∧ t.fuse = s.fuse ∧ t.mode = s.mode ∧ t.watch = s.watch ∧ t.pending = s.pending) ∧
  (∀ (l : Fin 16) (j p : Nat) (i : W64) (s : State), nextJobOf (getLane s l.val) = some j → (getLane s l.val).run = none →
    laneHeld s l.val = false → laneOut s l.val = false → jobMoves s l.val j = true → (getJob s j).started = false →
    (e0Route (getJob s j).word0 = 0 ∨ (getRoute s (e0Route (getJob s j).word0)).valid = true) →
    p < e0Ninst (getJob s j).word0 → (getJob s j).slots.getD p 0 = i → isOp .xform i = true →
    (let b := accepts (wB i) [.s]
     let c := accepts (wC i) [.s]
     ¬(accepts (wA i) [.s] = true ∧
       ((wFn i = 1 ∧ b = true ∧ c = true ∧ wArg i = 0) ∨ (wFn i = 2 ∧ b = true ∧ wC i = 0 ∧ wArg i = 0) ∨
        (wFn i = 3 ∧ b = true ∧ wC i = 0) ∨ (wFn i = 4 ∧ b = true ∧ wC i = 0 ∧ wArg i = 0) ∨
        (wFn i = 5 ∧ wB i = 0 ∧ wC i = 0)))) →
    ((getLane s l.val).courier ≠ none ∨ courierDue s l.val = false) →
    ∃ t, exec (.jobStart l) s = .next t ∧ (getJob t j).isOver = true ∧ (getJob t j).status = .encoding ∧
      t.fuse = s.fuse ∧ t.mode = s.mode ∧ t.watch = s.watch ∧ t.pending = s.pending)

/-- R115, R116, R89, R155, R282: MOVE, LOADS and STORES take their input from a satchel or a stream and put it where A says. RAND waits for
its draw, in class 3 for a Courier job and in class 4 for another, and puts what the Well has granted there. Bytes that go to a stream are issued at its cursor, and those of a MOVE that still lacks input are issued
in whole beats as far as they have come. Where the spec leaves a choice, the model's is log entry 36. -/
def Obligations.MovesRun : Prop :=
  (∀ (l : Fin 16) (j : Nat) (i : W64) (bs : List Byte) (z y : Job) (outs : List OutW) (s : State),
    laneTask s l.val (isOp .move) = some (j, i) → issueOk (getJob s j) i = true →
    takeIn (getJob s j) (opd (wB i)) (wLen i) = .ok (bs, z) → putOut z (opd (wA i)) false bs = .ok (y, outs) → outputsMay s j y outs →
    ∃ t, exec (.move l .same) s = .next t ∧ ranTo s t j y ∧ outputsIssued (modJob s j (fun _ => y)) t j y outs ∧
      keepsBut [.jobs, .ai, .ration, .free] s t) ∧
  (∀ (l : Fin 16) (j : Nat) (i : W64) (ws : List Need) (y : Job) (o : OutW) (s : State),
    laneTask s l.val (isOp .move) = some (j, i) → issueOk (getJob s j) i = true → moveRun (getJob s j) i = .need ws (y, [o]) →
    (outStreamOf (opd (wA i))).isSome = true → jobLost s j = false →
    ∃ t, exec (.move l .same) s = .next t ∧ (getJob t j).pos = (getJob s j).pos ∧ (getJob t j).sat = (getJob s j).sat ∧
      (getJob t j).cursors = (getJob s j).cursors ∧ (getJob t j).isOver = (getJob s j).isOver ∧
      (getJob t j).done = Nat.max (getJob s j).done
        (wholeBeats (cover y o.1 o.2.1 o.2.2.length) (moveStand (getJob s j) i)) ∧
      (∀ k, k ≠ j → getJob t k = getJob s k) ∧ keepsBut [.jobs, .ai, .ration, .free] s t) ∧
  (∀ (l : Fin 16) (j : Nat) (i : W64) (bs : List Byte) (z : Job) (s : State), laneTask s l.val (isOp .loads) = some (j, i) →
    issueOk (getJob s j) i = true → wFn i + len8 (wParam i) ≤ 256 →
    takeIn (getJob s j) (opd (wB i)) (len8 (wParam i)) = .ok (bs, z) → bs.length = len8 (wParam i) →
    ∃ t, exec (.loads l .same) s = .next t ∧ tread 0 (getJob t j).sat (256 * satNum (wA i) + wFn i) bs.length = bs ∧
      (∀ a, (a < 256 * satNum (wA i) + wFn i ∨ 256 * satNum (wA i) + wFn i + bs.length ≤ a) →
        tget 0 (getJob t j).sat a = tget 0 z.sat a) ∧
      (getJob t j).cursors = z.cursors ∧ (getJob t j).pos = z.pos + 1 ∧ (∀ k, k ≠ j → getJob t k = getJob s k) ∧ keepsBut [.jobs] s t) ∧
  (∀ (l : Fin 16) (j : Nat) (i : W64) (y : Job) (outs : List OutW) (s : State), laneTask s l.val (isOp .stores) = some (j, i) →
    issueOk (getJob s j) i = true → wFn i + len8 (wParam i) ≤ 256 →
    putOut (getJob s j) (opd (wA i)) false (tread 0 (getJob s j).sat (256 * satNum (wB i) + wFn i) (len8 (wParam i))) = .ok (y, outs) →
    outputsMay s j y outs →
    ∃ t, exec (.stores l .same) s = .next t ∧ ranTo s t j y ∧ outputsIssued (modJob s j (fun _ => y)) t j y outs ∧
      keepsBut [.jobs, .ai, .ration, .free] s t) ∧
  (∀ (l : Fin 16) (j : Nat) (i : W64) (y : Job) (outs : List OutW) (s : State), laneTask s l.val (isOp .rand) = some (j, i) →
    (getJob s j).wait = .nothing → (getJob s j).kept = none → issueOk (getJob s j) i = true → wellCan s = true →
    putOut (getJob s j) (opd (wA i)) false (zeros (wLen i)) = .ok (y, outs) → outputsMay s j y outs →
    ∃ t, exec (.rand l .same) s = .next t ∧ getJob t j = { getJob s j with wait := .well s.well.nextDraw } ∧
      t.well = { s.well with
        nextDraw := s.well.nextDraw + 1
        draws := s.well.draws ++ [{ draw := s.well.nextDraw, cls := drawClass s j, who := .lane j l.val, need := wLen i }] } ∧
      (∀ k, k ≠ j → getJob t k = getJob s k) ∧ keepsBut [.jobs, .well] s t) ∧
  (∀ (l : Fin 16) (j : Nat) (i : W64) (bs : List Byte) (y : Job) (outs : List OutW) (s : State),
    laneTask s l.val (isOp .rand) = some (j, i) → (getJob s j).wait = .nothing → (getJob s j).kept = some bs →
    issueOk (getJob s j) i = true → bs.length = wLen i → putOut (getJob s j) (opd (wA i)) false bs = .ok (y, outs) →
    outputsMay s j y outs →
    ∃ t, exec (.rand l .same) s = .next t ∧ ranTo s t j y ∧ outputsIssued (modJob s j (fun _ => y)) t j y outs ∧
      keepsBut [.jobs, .ai, .ration, .free] s t)

/-- R101 to R106, R125, R176: SEAL, OPEN, CIPHER, MAC and HASH, with a key that passes its checks and inputs that are there: the job goes
on with what the functions of the standards give, the outputs are issued, and the unit counts the input bytes. Where the spec leaves a
choice, the model's is log entries 5, 25, 36 and 62. -/
def Obligations.CiphersRun : Prop :=
  (∀ (l : Fin 16) (j : Nat) (n : Nat) (i : W64) (y : Job) (outs : List OutW) (s : State),
    let k := keyNum (wC i)
    laneTask s l.val (isOp .sealW) = some (j, i) → issueOk (getJob s j) i = true →
    keyFault s j k 0 (wAlg i) (algTypes (wAlg i)) = none →
    sealRun (getJob s j) i (keySlot s j k).ktype.toNat (keyBytes s j k) = .ok (n, y, outs) → outputsMay s j y outs →
    ∃ t, exec (.seal l .same) s = .next t ∧ ranTo s t j y ∧
      outputsIssued (modJob (countBytes s l.val n) j (fun _ => y)) t j y outs ∧
      (getUnit t (laneUnit l.val)).bytes = (getUnit s (laneUnit l.val)).bytes + w64 n ∧ keepsBut [.units, .jobs, .ai, .ration, .free] s t) ∧
  (∀ (l : Fin 16) (j n : Nat) (i : W64) (y : Job) (outs : List OutW) (v : Option Bool) (s : State),
    let k := keyNum (wC i)
    laneTask s l.val (isOp .openW) = some (j, i) → (getJob s j).wait = .nothing → issueOk (getJob s j) i = true →
    keyFault s j k 1 (wAlg i) (algTypes (wAlg i)) = none → outputsMay s j y outs →
    openRun (getJob s j) i (keySlot s j k).ktype.toNat (keyBytes s j k) = .ok (n, y, outs, v) →
    ∃ t, exec (.openI l .same) s = .next t ∧ (v = none → ranTo s t j y) ∧
      (v = some true → ranTo s t j { y with flags := { y.flags with tf := false } }) ∧
      (v = none → outputsIssued (modJob (countBytes s l.val n) j (fun _ => y)) t j y outs) ∧
      (v = some true → outputsIssued (modJob (countBytes s l.val n) j (fun _ => { y with flags := { y.flags with tf := false } }))
        t j y outs) ∧
      (v = some false → (getJob t j).flags.tf = true ∧ (getJob t j).pend = (if y.pend = .done then .tagMismatch else y.pend)) ∧
      (v = some false → ∀ o os, outs = o :: os → o.2.2 ≠ [] →
        (getJob t j).wait = .zeroing 1 ∧ (getJob t j).wrote = some (o.1, o.2.1, o.2.2.length) ∧ (getJob t j).pos = y.pos ∧
        outputsIssued (modJob (countBytes s l.val n) j (fun _ => getJob t j)) t j y outs) ∧
      (∀ m, m ≠ j → getJob t m = getJob s m) ∧ keepsBut [.units, .jobs, .ai, .ration, .free] s t) ∧
  (∀ (l : Fin 16) (j st off n : Nat) (i : W64) (s : State), laneTask s l.val (isOp .openW) = some (j, i) →
    (getJob s j).wait = .zeroing 1 → (getJob s j).wrote = some (st, off, n) → writesDone s j = true → jobLost s j = false →
    ∃ t, exec (.openI l .same) s = .next t ∧ ranTo s t j (getJob s j) ∧ t.ai = (writeStream s j st off (zeros n)).ai ∧
      keepsBut [.jobs, .ai, .ration] s t) ∧
  (∀ (l : Fin 16) (j n : Nat) (i : W64) (y : Job) (outs : List OutW) (s : State),
    let k := keyNum (wC i)
    laneTask s l.val (isOp .cipher) = some (j, i) → issueOk (getJob s j) i = true →
    keyFault s j k (bit (wDec i)) (wAlg i) (algTypes (wAlg i)) = none →
    cipherRun (getJob s j) i (keySlot s j k).ktype.toNat (keyBytes s j k) = .ok (n, y, outs) → outputsMay s j y outs →
    ∃ t, exec (.cipher l .same) s = .next t ∧ ranTo s t j y ∧
      outputsIssued (modJob (countBytes s l.val n) j (fun _ => y)) t j y outs ∧
      (getUnit t (laneUnit l.val)).bytes = (getUnit s (laneUnit l.val)).bytes + w64 n ∧ keepsBut [.units, .jobs, .ai, .ration, .free] s t) ∧
  (∀ (l : Fin 16) (j n : Nat) (i : W64) (y : Job) (outs : List OutW) (s : State),
    let k := keyNum (wC i)
    laneTask s l.val (isOp .mac) = some (j, i) → issueOk (getJob s j) i = true →
    keyFault s j k (if wVerify i then 3 else 2) (wAlg i) (algTypes (wAlg i)) = none →
    macRun (getJob s j) i (keySlot s j k).ktype.toNat (keyBytes s j k) = .ok (n, y, outs) → outputsMay s j y outs →
    ∃ t, exec (.mac l .same) s = .next t ∧ ranTo s t j y ∧
      outputsIssued (modJob (countBytes s l.val n) j (fun _ => y)) t j y outs ∧
      (getUnit t (laneUnit l.val)).bytes = (getUnit s (laneUnit l.val)).bytes + w64 n ∧ keepsBut [.units, .jobs, .ai, .ration, .free] s t) ∧
  (∀ (l : Fin 16) (j n : Nat) (i : W64) (y : Job) (outs : List OutW) (s : State),
    let key := keyBytes s j (keyNum (wC i))
    laneTask s l.val (isOp .hash) = some (j, i) → (getJob s j).wait = .nothing → issueOk (getJob s j) i = true →
    ((algFamily (wAlg i) ≠ .slh ∧ hashRun (getJob s j) i = .ok (n, y, outs)) ∨
     (algFamily (wAlg i) = .slh ∧ wAlg i ≠ 0x30 ∧ wAlg i ≠ 0x31 ∧ slhRun (getJob s j) i [] [] = .ok (n, y, outs)) ∨
     (algFamily (wAlg i) = .slh ∧ wAlg i = 0x31 ∧ slhKeyFault s j i = none ∧ slhRun (getJob s j) i key [] = .ok (n, y, outs)) ∨
     (algFamily (wAlg i) = .slh ∧ wAlg i = 0x30 ∧ slhKeyFault s j i = none ∧ (∃ q, slhRun (getJob s j) i key [] = .ok q) ∧
       ∃ rnd, (getJob s j).kept = some rnd ∧ slhRun (getJob s j) i key rnd = .ok (n, y, outs))) → outputsMay s j y outs →
    ∃ t, exec (.hash l .same) s = .next t ∧ ranTo s t j y ∧
      outputsIssued (modJob (countBytes s l.val n) j (fun _ => y)) t j y outs ∧
      (getUnit t (laneUnit l.val)).bytes = (getUnit s (laneUnit l.val)).bytes + w64 n ∧ keepsBut [.units, .jobs, .ai, .ration, .free] s t)

/-- R93, R61, R63: a cipher instruction on a key register that is empty, or whose key may not be used so, ends the job with the status
of the check, and writes nothing. -/
def Obligations.KeyChecksEndTheJob : Prop :=
  ∀ (l : Fin 16) (j : Nat) (i : W64) (st : Status) (s : State),
    let k := keyNum (wC i)
    issueOk (getJob s j) i = true → (getJob s j).wait = .nothing →
    ∀ c, ((laneTask s l.val (isOp .sealW) = some (j, i) ∧ keyFault s j k 0 (wAlg i) (algTypes (wAlg i)) = some st ∧ c = .seal l .same) ∨
      (laneTask s l.val (isOp .openW) = some (j, i) ∧ keyFault s j k 1 (wAlg i) (algTypes (wAlg i)) = some st ∧ c = .openI l .same) ∨
      (laneTask s l.val (isOp .cipher) = some (j, i) ∧ keyFault s j k (bit (wDec i)) (wAlg i) (algTypes (wAlg i)) = some st ∧
        c = .cipher l .same) ∨
      (laneTask s l.val (isOp .mac) = some (j, i) ∧ keyFault s j k (if wVerify i then 3 else 2) (wAlg i) (algTypes (wAlg i)) = some st ∧
        c = .mac l .same)) →
    ∃ t, exec c s = .next t ∧ (getJob t j).isOver = true ∧ (getJob t j).status = st ∧ (getJob t j).sat = (getJob s j).sat ∧
      (getJob t j).cursors = (getJob s j).cursors ∧ (keyReg s j k = none → st = .keyUsage) ∧ t.ai.accesses = s.ai.accesses ∧
      t.fuse = s.fuse ∧ t.mode = s.mode ∧ t.pending = s.pending

/-- R161, R164, R165, R167: STREAM on a line that is good. LOAD takes the running state and USER from it, SAVE writes a new line with a
fresh nonce, UPDATE writes the line back with the satchel's bytes merged, each under the tag of the tenant's key. Where the spec leaves a
choice, the model's is log entries 5 and 62. -/
def Obligations.StreamLinesRun : Prop :=
  (∀ (l : Fin 16) (j : Nat) (i : W64) (p : Piece) (line : List Byte) (y : Job) (s : State), streamTask s l.val 1 = some (j, i) →
    issueOk (getJob s j) i = true → (ctxOf s l.val j) ≠ [] → lineOf (getJob s j) (ctxStream i) = .ok p →
    takeStream (getJob s j) (ctxStream i) 128 = .ok (line, y) →
    lineFault ((ctxOf s l.val j).drop 32) p.addr (jobTenant s j) line = none →
    ∃ t, exec (.streamLoad l .same) s = .next t ∧
      ranTo s t j (loadLine y ((ctxOf s l.val j).take 32) p.addr (jobTenant s j) line) ∧ keepsBut [.jobs] s t) ∧
  (∀ (l : Fin 16) (j : Nat) (i : W64) (p : Piece) (s : State), streamTask s l.val 2 = some (j, i) →
    issueOk (getJob s j) i = true → (ctxOf s l.val j) ≠ [] → lineOf (getJob s j) (ctxStream i) = .ok p → jobLost s j = false →
    (getJob s j).kept = none → wellCan s = true →
    ∃ t, exec (.streamSave l .same) s = .next t ∧ getJob t j = { getJob s j with wait := .well s.well.nextDraw } ∧
      t.well = { s.well with
        nextDraw := s.well.nextDraw + 1
        draws := s.well.draws ++ [{ draw := s.well.nextDraw, cls := drawClass s j, who := .lane j l.val, need := 12 }] } ∧
      (∀ k, k ≠ j → getJob t k = getJob s k) ∧ keepsBut [.jobs, .well] s t) ∧
  (∀ (l : Fin 16) (j : Nat) (i : W64) (p : Piece) (nonce : List Byte) (s : State), streamTask s l.val 2 = some (j, i) →
    issueOk (getJob s j) i = true → (ctxOf s l.val j) ≠ [] → lineOf (getJob s j) (ctxStream i) = .ok p → jobLost s j = false →
    (getJob s j).kept = some nonce →
    ∃ t, exec (.streamSave l .same) s = .next t ∧ ranTo s t j (advJob (getJob s j) (ctxStream i) 128) ∧
      (let body := saveBody (getJob s j) ((ctxOf s l.val j).take 32) nonce p.addr (jobTenant s j)
       t.ai = (issueAccess (modJob s j (fun _ => advJob (getJob s j) (ctxStream i) 128)) (.jobWrite j (getJob s j).pos)
         (jobAttr s j p.ns p.rlx) (w64 p.addr) 128 (some (body ++ lineTag ((ctxOf s l.val j).drop 32) p.addr (jobTenant s j) body))).ai) ∧
      keepsBut [.jobs, .ai, .ration] s t) ∧
  (∀ (l : Fin 16) (j : Nat) (i : W64) (p : Piece) (line : List Byte) (y : Job) (s : State), streamTask s l.val 3 = some (j, i) →
    issueOk (getJob s j) i = true → (ctxOf s l.val j) ≠ [] → lineOf (getJob s j) (ctxStream i) = .ok p →
    takeStream (getJob s j) (ctxStream i) 128 = .ok (line, y) → jobLost s j = false →
    lineFault ((ctxOf s l.val j).drop 32) p.addr (jobTenant s j) line = none →
    ∃ t, exec (.streamUpdate l .same) s = .next t ∧ ranTo s t j y ∧
      (let body := mergeLine y i line
       t.ai = (issueAccess (modJob s j (fun _ => y)) (.jobWrite j y.pos) (jobAttr s j p.ns p.rlx) (w64 p.addr) 128
         (some (body ++ lineTag ((ctxOf s l.val j).drop 32) p.addr (jobTenant s j) body))).ai) ∧ keepsBut [.jobs, .ai, .ration] s t)

/-! ### Lane and storage faults -/

/-- R173, R175: a fatal fault of a lane, and the sequencer's watchdog, quarantine the lane and its yoke partner, mark it FAULTED, empty
its staged jobs, contain its string, and end the running job with LANE_FAULT. Where the spec leaves a choice, the model's is log entry
38. -/
def Obligations.LaneFaultsQuarantine : Prop :=
  ∀ (l : Fin 16) (c : Instr) (j : Nat) (s : State), laneLive s l.val = true → (getLane s (leadOf s l.val)).run = some j →
    (getJob s j).isOver = false →
    ((c = .sequencerWatchdog l ∧ 2 ^ 20 ≤ (getJob s j).stuck) ∨
      ∃ row : Fin 8, 2 ≤ row.val ∧ row.val ≤ 5 ∧ c = .fatalLaneFault l row) →
    ∃ t, exec c s = .next t ∧ (getLane t l.val).faulted = true ∧ (getLane t l.val).kat = false ∧
      (∀ k, k ∈ members s (leadOf s l.val) → (getUnit t (laneUnit k)).quarantine = true) ∧
      (getLane t (leadOf s l.val)).staged = [] ∧ (getJob t j).isOver = true ∧ (getJob t j).status = .laneFault ∧
      tb t.mode.strings (stringOf l.val) = true ∧ t.fuse = s.fuse ∧ t.watch = s.watch ∧ t.pending = s.pending

/-- R444, R227, Table 18.6: what an uncorrectable error does in each array. Where the spec leaves a choice, the model's is log entries
47 and 52. -/
def Obligations.StorageFaultsAct : Prop :=
  ∀ (a : StorageArray) (index unit : Nat) (s : State), portsServed s = true →
    ∃ t, exec (.uncorrectableError a index unit) s = .next t ∧ t.ration.ue = s.ration.ue + 1 ∧
      (a = .routeStore → (getRoute t (index % 1024)).valid = false) ∧
      (a = .reorderStore → t.muster.roBad = true ∧ (s.mode.mode = .service → t.mode.mode = .containment)) ∧
      (a = .ringContext → (getRing s (index % 4096)).state = .running → (getRing t (index % 4096)).state = .faulted ∧
        (getRing t (index % 4096)).lastErr = Status.storageFault.code) ∧
      (a = .translationCache → t.ai.atc = s.ai.atc.eraseIdx index) ∧
      (a = .readReturnBuffer → ∀ r, tget none (getPort s (unit % 4)).reads index = some r →
        tget none (getPort t (unit % 4)).reads index = some { r with fail := lowerFail r.fail (some (r.addr.toNat, .fabricError)) }) ∧
      (a = .porterBuffer → t.porter.stopped = true ∧ t.tollgate.cleared = true ∧ t.tollgate.cause = 6 ∧
        (s.porter.stopped = false → t.porter.dir = true ∧ t.porter.cause = 3)) ∧
      (a = .maskStore → ∀ k, k / 64 = index % 512 → (getSlot t k).kind = .dead ∧ (getSlot t k).material = 0 ∧
        (getSlot t k).leases = (getSlot s k).leases) ∧
      (a = .logicParity → s.mode.mode = .service → t.mode.mode = .containment) ∧
      (∃ rest, t.ledger.waiting = s.ledger.waiting ++ { producer := 18, type := 0x905, code := Status.storageFault.code
                                                        body := [w32 (storageCode a), w32 index, w32 unit], madeAt := s.cycle } :: rest) ∧
      (relayOn s = true → sourceRaised t 244) ∧ t.fuse = s.fuse ∧ t.pending = s.pending

/-! ### Well -/

/-- R276, R277, R278, R281, R284, R285: every source gives a raw bit to its tests, and to a capture of that source. A source whose bits fail
a health test, or its start-up test once, is excluded, counted and recorded, entropy input that holds bits of its window is discarded, and
the Well takes the state that its healthy sources give; RETEST runs start-up tests, which are over when each source under test has passed
or failed, and their end leaves FAILED only where a source has passed; CAPTURE fills the window with raw bits. R279, R280, R282: a reseed
that is due and has its input starts the count of Generate calls anew, unless a source of its input failed in that cycle, and a generator
test that fails makes the Well FAILED; a grant gives one waiting draw up to 32 bytes, or up to four in classes 3 and 4, and a draw that has
them all lets its job go on, gives the Serai its replacement bits, or gives an engine its random numbers. Where the spec leaves a choice,
the model's is log entries 8, 35, 66 and 67. -/
def Obligations.WellRuns : Prop :=
  ((∀ (n : Fin 4) (test : HealthTest) (s : State),
    let x := getSource s.well n.val
    let starts := (startSources s &&& ~~~s.well.startFail).toNat.testBit n.val
    let code := match test with
      | .repetition => 1
      | .proportion => 2
      | .startup => 3
    portsServed s = true → s.well.zeroed = false →
    ((test = .repetition ∧ repeats x = true ∧ starts = false) ∨
     (test = .proportion ∧ recurs x = true ∧ repeats x = false ∧ starts = false) ∨
     (test = .startup ∧ (repeats x = true ∨ recurs x = true) ∧ starts = true)) →
    ∃ t, exec (.healthTestFail n test) s = .next t ∧ t.well.srcOk = s.well.srcOk &&& ~~~BitVec.ofNat 4 (2 ^ n.val) ∧
      t.well.srcFails = failCount s.well.srcFails n.val ∧ getSource t.well n.val = {} ∧
      (s.well.inputNow.toNat.testBit n.val = true → t.well.input = [] ∧ t.well.inputOf = 0) ∧
      (test = .startup → t.well.startFail.toNat.testBit n.val = true) ∧
      (s.well.state = .notInst → t.well.state = .notInst) ∧ (s.well.state ≠ .notInst → t.well.state = wellStateOf t.well) ∧
      (∃ rest, t.ledger.waiting = s.ledger.waiting ++
        { producer := 8, type := 0x402, code := 0, body := [w32 (n.val + 4 * code)], madeAt := s.cycle, unit := n.val } :: rest) ∧
      t.fuse = s.fuse ∧ t.watch = s.watch ∧ t.pending = s.pending) ∧
  (∀ (p : CtlPort) (s : State), mayTake s p wlCmd 4 = true → s.well.cmd = none →
    ∃ t, exec (.retest p) s = .next t ∧
      t.well = { s.well with cmd := some .retest, startFail := 0, startPass := 0, sources := t.well.sources } ∧
      (∀ n, n < 4 → getSource t.well n =
        if s.well.srcOk.toNat.testBit n = true ∧ s.well.state ≠ .failed then getSource s.well n else {}) ∧
      keepsBut [.well] (tookWrite s p wlCmd 4) t) ∧
  (∀ (pass : BitVec 4) (kat : Bool) (s : State),
    let tested := startSources s
    let good := tested &&& s.well.startPass &&& ~~~s.well.startFail
    let stays := s.well.state = .failed ∧ good = 0
    s.well.cmd = some .retest → s.well.zeroed = false → tested &&& ~~~(good ||| s.well.startFail) = 0 → pass = good →
    ∃ t, exec (.wellStartupDone pass kat) s = .next t ∧ t.well.cmd = none ∧ t.well.startFail = 0 ∧ t.well.startPass = 0 ∧
      t.well.srcOk = s.well.srcOk ||| good ∧
      (stays → t.well.state = .failed) ∧ (¬stays → t.well.state = wellStateOf t.well) ∧
      t.well.cmdResult = (if t.well.state = .failed then Status.entropyFail else .done).code ∧
      (¬stays → t.well.srcOk ≠ 0 → t.well.katFail = !kat) ∧ t.fuse = s.fuse ∧ t.watch = s.watch ∧ t.pending = s.pending) ∧
  (∀ (n : Nat) (s : State), n < 4 → s.cycle % 10 = 0 → s.well.zeroed = false →
    getSource (srcTick s).well n = srcBit (getSource s.well n) (Config.rawBit (s.free + n)) ∧
    (s.well.cmd = some (.capture n) → s.well.capCount < 8192 → (srcTick s).well.capCount = s.well.capCount + 1 ∧
      tget 0 (srcTick s).well.capBits (s.well.capCount / 8) =
        tget 0 s.well.capBits (s.well.capCount / 8) + BitVec.ofNat 8 (2 ^ (s.well.capCount % 8) * bit (Config.rawBit (s.free + n))))) ∧
  (∀ (p : CtlPort) (source : BitVec 2) (s : State), mayTake s p wlCmd 4 = true → s.well.cmd = none → s.mode.mode = .provision →
    ∃ t, exec (.capture p source) s = .next t ∧
      t.well = { s.well with cmd := some (.capture source.toNat), capBits := [], capCount := 0 } ∧
      keepsBut [.well] (tookWrite s p wlCmd 4) t) ∧
  (∀ (n : Nat) (s : State), s.well.cmd = some (.capture n) → 8192 ≤ s.well.capCount →
    ∃ t, exec .captureDone s = .next t ∧ t.well = { s.well with
        capture := s.well.capBits, capBits := [], capCount := 0, cmd := none, cmdResult := Status.done.code } ∧ keepsBut [.well] s t) ∧
  (∀ (n : Nat) (s : State), s.well.cmd = some (.capture n) → s.well.capCount < 8192 → exec .captureDone s = .next s)) ∧
  ((∀ s : State, portsServed s = true → wellCan s = true → reseedInt s ≤ s.well.genCalls → inputReady s = true → reseedBarred s = false →
    ((s.well.reseeds + 1).toNat % 2 ^ 24 ≠ 0 ∨ Config.wellKat (s.well.reseeds + 1).toNat = true) →
    ∃ t, exec .reseed s = .next t ∧ t.well = { s.well with
        reseed := some { cycle := s.cycle, of_ := s.well.inputOf, drbg := s.well.drbg, calls := s.well.genCalls }
        drbg := stdBytes (.drbg 3) [s.well.drbg, packBits s.well.input] 48, genCalls := 0, reseeds := s.well.reseeds + 1
        input := [], inputOf := 0, inputNow := 0 } ∧ keepsBut [.well] s t) ∧
  (∀ s : State, portsServed s = true → wellCan s = true → reseedInt s ≤ s.well.genCalls → inputReady s = true → reseedBarred s = true →
    ∃ t, exec .reseed s = .next t ∧ t.well = { s.well with input := [], inputOf := 0, inputNow := 0 } ∧ keepsBut [.well] s t) ∧
  (∀ s : State, portsServed s = true → wellCan s = true → reseedInt s ≤ s.well.genCalls → inputReady s = true → reseedBarred s = false →
    (s.well.reseeds + 1).toNat % 2 ^ 24 = 0 → Config.wellKat (s.well.reseeds + 1).toNat = false →
    ∃ t, exec .reseed s = .next t ∧ t.well.state = .failed ∧ t.well.katFail = true ∧ t.well.level = 0 ∧ t.well.draws = [] ∧
      t.well.reseeds = s.well.reseeds + 1 ∧ t.fuse.array = s.fuse.array ∧ t.watch = s.watch ∧ t.pending = s.pending) ∧
  (∀ (d : DrawRec) (s : State), wellCan s = true → nextDraw s = some d → 0 < grantSize s d → d.need ≤ d.got.length + grantSize s d →
    let n := grantSize s d
    let got := d.got ++ (wellTake s n).1
    ∃ t, exec .wellGrant s = .next t ∧ t.well.draws = s.well.draws.filter (fun e => e.draw ≠ d.draw) ∧
      t.well.level = s.well.level - n ∧ t.well.bytes = s.well.bytes + w64 n ∧
      (∀ j l, d.who = .lane j l → getJob t j = { getJob s j with kept := some got, wait := .nothing } ∧
        (∀ k, k ≠ j → getJob t k = getJob s k) ∧ keepsBut [.jobs, .well] s t) ∧
      (d.who = .replacement → t.serai = { s.serai with bits := s.serai.bits ++ [ofLe got] } ∧ keepsBut [.serai, .well] s t) ∧
      (∀ b k r, d.who = .bench b k → (getBench s b).run = some r → r.ticket = k →
        getBench t b = { getBench s b with run := some { r with rnd := got } } ∧ (∀ m, m ≠ b → getBench t m = getBench s m) ∧
        keepsBut [.house, .well] s t) ∧
      (∀ c k r, d.who = .ctx c k → (getCtx s c).run = some r → r.ticket = k →
        getCtx t c = { getCtx s c with run := some { r with rnd := got } } ∧ (∀ m, m ≠ c → getCtx t m = getCtx s m) ∧
        keepsBut [.scales, .well] s t)) ∧
  (∀ (d : DrawRec) (s : State), wellCan s = true → nextDraw s = some d → 0 < grantSize s d → d.got.length + grantSize s d < d.need →
    let n := grantSize s d
    ∃ t, exec .wellGrant s = .next t ∧ t.well.level = s.well.level - n ∧ t.well.bytes = s.well.bytes + w64 n ∧
      t.well.draws = s.well.draws.map (fun e => if e.draw = d.draw then { e with got := d.got ++ (wellTake s n).1 } else e) ∧
      keepsBut [.well] s t))

/-! ### Tollgate and Porter -/

/-- R291 to R295, Table 12.2: ARM, FINISH and CANCEL in the states that take them, the digest and the compare at the end of a finish,
and the errors LENGTH and SHORT. R309, R307: RESUME after a stop clears it, and the end of a transfer frees its channel, makes an armed
shadow set active and raises the channel's source; a failure in the cycle of a RESUME leaves Porter stopped. Where the spec leaves a
choice, the model's is log entries 5 and 41. -/
def Obligations.TollgateAndPorterRun : Prop :=
  ((∀ (p : CtlPort) (c : Fin 8) (s : State), mayTake s p (tgCmd c.val) 4 = true → tgActive (getTg s c.val) = false →
    tgArmOk (getTg s c.val) = true →
    ∃ t, exec (.arm p c) s = .next t ∧ (let x := getTg s c.val
      let y := getTg t c.val
      y.state = .armed ∧ y.stream = [] ∧ y.count = 0 ∧ y.digest = 0 ∧ y.matched = false ∧ y.cmpv = false ∧ y.err = 0 ∧
      y.next = (if x.src = 2 then x.wstart else 0) ∧ y.alg = x.alg ∧ y.fifo = [] ∧ y.snoop = [] ∧
      y.skip = (x.src = 1 && (getChan s x.chan.toNat).xfer.isSome) ∧ y.srcEnded = false ∧ y.cmdResult = Status.done.code) ∧
      (∀ k, k ≠ c.val → getTg t k = getTg s k) ∧ keepsBut [.tollgate] (tookWrite s p (tgCmd c.val) 4) t) ∧
  (∀ (p : CtlPort) (c : Fin 8) (s : State), mayTake s p (tgCmd c.val) 4 = true → tgActive (getTg s c.val) = true →
    ∃ t, exec (.arm p c) s = .next t ∧ getTg t c.val = { getTg s c.val with cmdResult := Status.accessFault.code } ∧
      keepsBut [.tollgate, .ledger] (tookWrite s p (tgCmd c.val) 4) t) ∧
  (∀ (p : CtlPort) (c : Fin 8) (s : State), mayTake s p (tgCmd c.val) 4 = true → tgListening (getTg s c.val) = true →
    ((getTg s c.val).src = 2 → (getTg s c.val).next = (getTg s c.val).wend) →
    ∃ t, exec (.finish p c) s = .next t ∧
      getTg t c.val = { getTg s c.val with state := .finishing, cmdResult := Status.done.code } ∧
        keepsBut [.tollgate] (tookWrite s p (tgCmd c.val) 4) t) ∧
  (∀ (p : CtlPort) (c : Fin 8) (s : State), mayTake s p (tgCmd c.val) 4 = true → tgListening (getTg s c.val) = true →
    (getTg s c.val).src = 2 →
    (getTg s c.val).next ≠ (getTg s c.val).wend →
    ∃ t, exec (.finish p c) s = .next t ∧ (getTg t c.val).state = .error ∧ (getTg t c.val).err = 3 ∧
      recordOffered s t 9 0x501 0 [w32 (2 ^ c.val + 256 * 3)] ∧
        keepsBut [.tollgate, .relay, .ledger, .ai] (tookWrite s p (tgCmd c.val) 4) t) ∧
  (∀ (p : CtlPort) (c : Fin 8) (s : State), mayTake s p (tgCmd c.val) 4 = true → tgActive (getTg s c.val) = true →
    ∃ t, exec (.cancel p c) s = .next t ∧ (getTg t c.val).state = .idle ∧ (getTg t c.val).stream = [] ∧ (getTg t c.val).count = 0 ∧
      (getTg t c.val).fifo = [] ∧ (getTg t c.val).snoop = [] ∧
      (∀ k, k ≠ c.val → getTg t k = getTg s k) ∧ keepsBut [.tollgate] (tookWrite s p (tgCmd c.val) 4) t) ∧
  (∀ (c : Fin 8) (s : State), tgFinishes s (getTg s c.val) = true →
    ∃ t, exec (.tollgateFinishDone c) s = .next t ∧ (let x := getTg s c.val
      let y := getTg t c.val
      (tgLengthBad x = true → y.state = .error ∧ y.err = 2) ∧
      (tgLengthBad x = false → y.state = .done ∧ y.digest = BitVec.ofNat 512 (ofLe (tgDigest x)) ∧ y.cmpv = x.cmpEn ∧
        y.matched = (x.cmpEn && tgEqual x (tgDigest x)) ∧ (relayOn s = true → sourceRaised t (64 + 4 * c.val)) ∧
        (relayOn s = true → x.cmpEn = true → sourceRaised t (64 + 4 * c.val + if tgEqual x (tgDigest x) then 1 else 2)))) ∧
      keepsBut [.tollgate, .relay, .ledger, .ai] s t)) ∧
  ((∀ (p : CtlPort) (s : State), mayTake s p ptCmd 4 = true → s.porter.stopped = true → (∀ f, s.porter.lateFail = some f → f.1 ≠ s.cycle) →
    s.porter.stopAt ≠ some s.cycle →
    ∃ t, exec (.resume p) s = .next t ∧ t.porter = { s.porter with
        stopped := false, stopAt := none, dir := false, cause := 0, errAddr := 0, cmdResult := Status.done.code, lateFail := none } ∧
      keepsBut [.porter] (tookWrite s p ptCmd 4) t) ∧
  (∀ (p : CtlPort) (dir : Bool) (cause : Nat) (addr : W64) (s : State), mayTake s p ptCmd 4 = true → s.porter.stopped = true →
    s.porter.lateFail = some (s.cycle, dir, cause, addr) → s.porter.stopAt ≠ some s.cycle →
    ∃ t, exec (.resume p) s = .next t ∧ t.porter.stopped = true ∧ t.porter.dir = dir ∧ t.porter.cause = BitVec.ofNat 2 cause ∧
      t.porter.errAddr = addr ∧ t.porter.stops = s.porter.stops + 1 ∧ t.porter.lateFail = none ∧
      t.porter.cmdResult = Status.done.code ∧ keepsBut [.porter, .tollgate, .relay, .ledger, .ai] (tookWrite s p ptCmd 4) t) ∧
  (∀ (p : CtlPort) (s : State), mayTake s p ptCmd 4 = true → s.porter.stopped = true → s.porter.stopAt = some s.cycle →
    ∃ t, exec (.resume p) s = .next t ∧ t.porter = { s.porter with cmdResult := Status.done.code } ∧
      keepsBut [.porter] (tookWrite s p ptCmd 4) t) ∧
  (∀ (p : CtlPort) (s : State), mayTake s p ptCmd 4 = true → s.porter.stopped = false →
    ∃ t, exec (.resume p) s = .next t ∧ t.porter = { s.porter with cmdResult := Status.accessFault.code } ∧
      keepsBut [.porter, .ledger] (tookWrite s p ptCmd 4) t) ∧
  (∀ (n : Fin 32) (s : State), ptFinished s n.val = true →
    ∃ t, exec (.porterComplete n) s = .next t ∧ (getChan t n.val).xfer = none ∧
      (getChan t n.val).act = (if (getChan s n.val).shadow.arm then (getChan s n.val).shadow else (getChan s n.val).act) ∧
      (relayOn s = true → sourceRaised t n.val) ∧ (∀ k, k ≠ n.val → getChan t k = getChan s k) ∧
      keepsBut [.tollgate, .porter, .relay, .ledger, .ai] s t))

/-! ### Relay -/

/-- R316, R318, R319, Table 13.6: FIRE, the events of an earlier control cycle and the lane EVENTs add to sinks; what a cycle adds stands in
the counts, which saturate at 65,535, from the next cycle on. CLEAR writes off what a sink held at the start of the cycle. R317, Table
13.5: a sink whose action can start consumes one count, at most one in a cycle and none in that of a CLEAR, and acts: it starts a Porter
channel, rings a ring's doorbell, asks a Tollgate context to finish, or pulses an event output. One whose action cannot start keeps its
count. Where the spec leaves a choice, the model's is log entries 42 and 54. -/
def Obligations.SinksRun : Prop :=
  ((∀ (p : CtlPort) (k : Fin 512) (n : W16) (s : State), mayTake s p (rlSinkCmd k.val) 4 = true → hasSink k.val = true →
    ∃ t, exec (.fire p k n) s = .next t ∧ getSink t k.val = { getSink s k.val with
        adds := (getSink s k.val).adds + (if n = 0 then 1 else n.toNat), cmdResult := Status.done.code } ∧
      (∀ m, m ≠ k.val → getSink t m = getSink s m) ∧ keepsBut [.relay] (tookWrite s p (rlSinkCmd k.val) 4) t) ∧
  (∀ (p : CtlPort) (k : Fin 512) (s : State), mayTake s p (rlSinkCmd k.val) 4 = true → hasSink k.val = true →
    (getSink s k.val).actedAt ≠ some s.cycle →
    ∃ t, exec (.clear p k) s = .next t ∧ getSink t k.val = { getSink s k.val with
        count := 0, cmdResult := Status.done.code, clearedAt := some s.cycle, clearDue := false } ∧
      t.relay.woff = s.relay.woff + w32 (getSink s k.val).count ∧ (∀ m, m ≠ k.val → getSink t m = getSink s m) ∧
      keepsBut [.relay, .ledger] (tookWrite s p (rlSinkCmd k.val) 4) t) ∧
  (∀ (p : CtlPort) (k : Fin 512) (s : State), mayTake s p (rlSinkCmd k.val) 4 = true → hasSink k.val = true →
    (getSink s k.val).actedAt = some s.cycle →
    ∃ t, exec (.clear p k) s = .next t ∧ getSink t k.val = { getSink s k.val with cmdResult := Status.done.code, clearDue := true } ∧
      (∀ m, m ≠ k.val → getSink t m = getSink s m) ∧ keepsBut [.relay] (tookWrite s p (rlSinkCmd k.val) 4) t) ∧
  (∀ s : State, relayOn s = true →
    ∃ t, exec .sinkCount s = .next t ∧ t.relay.laneAdds = [] ∧ t.relay.raised = raisedRest s ∧
      (∀ k, k < 512 → hasSink k = true → getSink t k = { getSink s k with
        adds := (getSink s k).adds + (sinkHits (getSink s k) (sourcesDue s) + tget 0 s.relay.laneAdds k) }) ∧
      keepsBut [.relay] s t) ∧
  (∀ (k : Nat) (s : State), twf {} s.relay.sinks = true → (getSink s k).clearDue = false →
    (getSink (sinksLand s) k).adds = 0 ∧
    ((getSink s k).count ≤ 65535 →
      (getSink (sinksLand s) k).count = Nat.min 65535 ((getSink s k).count + (getSink s k).adds)) ∧
    (65535 < (getSink s k).count + (getSink s k).adds → (getSink s k).adds ≠ 0 → (getSink (sinksLand s) k).ovf = true)) ∧
  (∀ (k : Nat) (s : State), twf {} s.relay.sinks = true → (getSink s k).clearDue = true →
    (getSink (sinksLand s) k).count = 0 ∧ (getSink (sinksLand s) k).clearedAt = some s.cycle)) ∧
  ((∀ (k : Fin 512) (s : State), relayOn s = true → sinkMay s k.val = true →
    (k.val < 32 → ptCanStart s k.val = true) → (32 ≤ k.val → k.val < 96 → (getSink s k.val).en = true) →
    (256 ≤ k.val → (getSink s k.val).pulseAfter ≤ s.cycle) →
    ∃ t, exec (.sinkAction k) s = .next t ∧ (getSink t k.val).count = (getSink s k.val).count - 1 ∧
      (getSink t k.val).actedAt = some s.cycle ∧
      (k.val < 32 → (getChan s k.val).xfer = none → ptFault k.val (getChan s k.val).act = none →
        (getChan t k.val).xfer = some { granted := Nat.min (ptTotal (getChan s k.val).act) (ptStep (getChan s k.val).act) }) ∧
      t.relay.consumed = s.relay.consumed + 1 ∧
      (32 ≤ k.val → k.val < 96 → (getRing s (getSink s k.val).ring.toNat).state = .running →
        (getRing t (getSink s k.val).ring.toNat).pending = true ∧
        (getRing t (getSink s k.val).ring.toNat).doorbells = (getRing s (getSink s k.val).ring.toNat).doorbells + 1) ∧
      (96 ≤ k.val → k.val < 104 → tgListening (getTg s (k.val - 96)) = true →
        ((getTg s (k.val - 96)).src = 2 → (getTg s (k.val - 96)).next = (getTg s (k.val - 96)).wend) →
        (getTg t (k.val - 96)).state = .finishing) ∧
      (256 ≤ k.val → tget 0 t.relay.pulses (k.val - 256) = tget 0 s.relay.pulses (k.val - 256) + 1 ∧
        (getSink t k.val).pulseAfter = s.cycle + 2) ∧
      (∀ m, m ≠ k.val → getSink t m = getSink s m) ∧
      keepsBut [.rings, .tollgate, .porter, .relay, .ledger, .ai, .ration] s t) ∧
  (∀ (k : Fin 512) (s : State), (sinkMay s k.val = false ∨ (k.val < 32 ∧ ptCanStart s k.val = false) ∨
      (32 ≤ k.val ∧ k.val < 96 ∧ (getSink s k.val).en = false) ∨ (256 ≤ k.val ∧ s.cycle < (getSink s k.val).pulseAfter)) →
    exec (.sinkAction k) s = .next s))

/-- R320, Table 13.8: START and STOP of a timer, and what happens when a running timer reaches its target: in Service it fires and
raises its source, outside Service the target is missed. Table 13.6: a firing that is due stands when a START or STOP meets it. Where the
spec leaves a choice, the model's is log entry 43. -/
def Obligations.TimersRun : Prop :=
  (∀ (p : CtlPort) (n : Fin 32) (s : State), mayTake s p (rlTimerCmd n.val) 4 = true → timerMay s = true →
    timerBad (getTimer s n.val) = false →
    ∃ t, exec (.timerStart p n) s = .next t ∧ (let y := getTimer t n.val
      let x := getTimer s n.val
      y.running = true ∧ y.fired = 0 ∧ y.missed = 0 ∧ y.cmdResult = Status.done.code ∧ y.periodic = x.periodic ∧ y.limit = x.limit ∧
      (x.base = false → y.elapsed = 0 ∧ y.target = some (timerPeriod x)) ∧
      (x.base = true → timeSet s = true → almTicks s.almanac.time < timerOrigin x → y.target = some (timerOrigin x))) ∧
      (s.mode.mode = .service → (getTimer s n.val).running = true → timerDue s (getTimer s n.val) = true → sourceRaised t (32 + n.val)) ∧
      (∀ k, k ≠ n.val → getTimer t k = getTimer s k) ∧ keepsBut [.relay] (tookWrite s p (rlTimerCmd n.val) 4) t) ∧
  (∀ (p : CtlPort) (n : Fin 32) (s : State), mayTake s p (rlTimerCmd n.val) 4 = true → timerMay s = true →
    timerBad (getTimer s n.val) = true →
    ∃ t, exec (.timerStart p n) s = .next t ∧ getTimer t n.val = { getTimer s n.val with cmdResult := Status.encoding.code } ∧
      keepsBut [.relay, .ledger] (tookWrite s p (rlTimerCmd n.val) 4) t) ∧
  (∀ (p : CtlPort) (n : Fin 32) (s : State), mayTake s p (rlTimerCmd n.val) 4 = true → timerMay s = true →
    ((getTimer s n.val).running = false ∨ timerDue s (getTimer s n.val) = false) →
    ∃ t, exec (.timerStop p n) s = .next t ∧
      getTimer t n.val = { getTimer s n.val with running := false, cmdResult := Status.done.code } ∧
      (∀ k, k ≠ n.val → getTimer t k = getTimer s k) ∧ keepsBut [.relay] (tookWrite s p (rlTimerCmd n.val) 4) t) ∧
  (∀ (p : CtlPort) (n : Fin 32) (s : State), mayTake s p (rlTimerCmd n.val) 4 = true → s.mode.mode = .service →
    (getTimer s n.val).running = true →
    timerDue s (getTimer s n.val) = true →
    ∃ t, exec (.timerStop p n) s = .next t ∧ (getTimer t n.val).running = false ∧
      (getTimer t n.val).fired = (getTimer s n.val).fired + 1 ∧ sourceRaised t (32 + n.val) ∧
      (∀ k, k ≠ n.val → getTimer t k = getTimer s k) ∧ keepsBut [.relay] (tookWrite s p (rlTimerCmd n.val) 4) t) ∧
  (∀ (n : Fin 32) (s : State), s.mode.mode = .service → (getTimer s n.val).running = true → timerDue s (getTimer s n.val) = true →
    ∃ t, exec (.timerFire n) s = .next t ∧ (getTimer t n.val).fired = (getTimer s n.val).fired + 1 ∧ sourceRaised t (32 + n.val) ∧
      ((getTimer s n.val).periodic = false → (getTimer t n.val).running = false) ∧
      ((getTimer s n.val).periodic = true → (getTimer s n.val).limit = 0 → (getTimer t n.val).running = true) ∧
      ((getTimer s n.val).limit ≠ 0 → (getTimer s n.val).fired + 1 = (getTimer s n.val).limit → (getTimer t n.val).running = false) ∧
      keepsBut [.relay] s t) ∧
  (∀ (n : Fin 32) (s : State), relayOn s = true → s.mode.mode ≠ .service → (getTimer s n.val).running = true →
    timerDue s (getTimer s n.val) = true →
    ∃ t, exec (.timerFire n) s = .next t ∧ (getTimer t n.val).missed = (getTimer s n.val).missed + 1 ∧
      (getTimer t n.val).fired = (getTimer s n.val).fired ∧ keepsBut [.relay] s t)

/-! ### Almanac -/

/-- R326, R327, R328, R330: AL_SEC stages, AL_NSEC sets the time with what is staged and clears the staging, a read of any byte of AL_NSEC latches
the rest (R453) and is answered with what it asks for (R459), an unaligned or unserved one with an error (R452, R461), and a locked Almanac, a value of 10⁹ and above, or a write that meets the sideband port's in its cycle leaves the time. A time
that goes back flushes the tenant keys. Where the spec leaves a choice, the model's is log entry 45. -/
def Obligations.TimeIsWritten : Prop :=
  (∀ (p : CtlPort) (h : PairHalf) (data : W64) (s : State), served s = true → s.almanac.wlock = false →
    ∃ t, exec (.secStage p h data) s = .next t ∧ alPort t p = stageSec h data (alPort s p) ∧ t.almanac.time = s.almanac.time ∧
      (∀ q, q ≠ p → alPort t q = alPort s q) ∧ keepsBut [.almanac] (respond s p false) t) ∧
  (∀ (p : CtlPort) (data : W32) (s : State), served s = true → s.almanac.wlock = false → data.toNat % 2 ^ 30 < 1000000000 →
    nsecBeaten s p = false → ∃ t, exec (.nsecWrite p data) s = .next t ∧
      t.almanac.time = { sec := stagedSec s.almanac.time.sec (alPort s p), nsec := data.toNat % 2 ^ 30 } ∧
      t.almanac.state ≠ .unset ∧ t.almanac.steps = s.almanac.steps + 1 ∧ (alPort t p).stagedLow = none ∧
      (alPort t p).stagedHigh = none ∧ t.almanac.freq = s.almanac.freq ∧ t.almanac.wroteAt = some (s.cycle, p) ∧
      (wholeNs t.almanac.time < wholeNs s.almanac.time → twf {} s.serai.slots = true → ∀ k, (getSlot t k).kind ≠ .tenant) ∧
      (relayOn s = true → sourceRaised t 164) ∧ keepsBut [.serai, .relay, .almanac, .ledger, .ai] (respond s p false) t) ∧
  (∀ (p : CtlPort) (data : W32) (s : State), served s = true → (s.almanac.wlock = true ∨ 1000000000 ≤ data.toNat % 2 ^ 30 ∨
    nsecBeaten s p = true) →
    ∃ t, exec (.nsecWrite p data) s = .next t ∧ t.almanac.time = s.almanac.time ∧ t.almanac.state = s.almanac.state ∧
      recordOffered s t 12 0x001 Status.accessFault.code [w32 (0x7C0008 + 2 ^ 24 * portBit p + 2 ^ 25 * 3), data] ∧
      keepsBut [.almanac, .ledger] (respond s p false) t) ∧
  (∀ (p : CtlPort) (byte : Fin 4) (size : AccSize) (s : State), served s = true → byte.val % accBytes size = 0 →
    ∃ t, exec (.nsecRead p byte size) s = .next t ∧
      alPort t p = { alPort s p with sec := s.almanac.time.sec, frac := s.almanac.time.frac } ∧
      (∀ q, q ≠ p → alPort t q = alPort s q) ∧
      (match p with
        | .host => t.ports.rspHost
        | .sideband => t.ports.rspSide) =
        some { err := false, data := w64 (if size = .b8 then s.almanac.time.nsec % 2 ^ 32 + 2 ^ 32 * s.almanac.time.frac.toNat
          else s.almanac.time.nsec % 2 ^ 32 / 256 ^ byte.val % 256 ^ accBytes size) } ∧
      keepsBut [.almanac, .ports] s t) ∧
  (∀ (p : CtlPort) (byte : Fin 4) (size : AccSize) (s : State), portThere s = true →
    (served s = false ∨ byte.val % accBytes size ≠ 0) →
    exec (.nsecRead p byte size) s = .next (respond s p true))

/-- R324, R331, R332: the second rolls over and raises its source; an accepted edge on an unset Almanac sets the whole second; an edge
without a valid time of day, one too soon after another, or one that meets a write of the time is rejected; a locked Almanac without edges
goes to HOLDOVER, and from there to UNSET, which flushes the tenant keys. R333, R334, R335: the other domains' copy of the time, an alarm
that fires once, and the heartbeat, which is skipped while one is unacknowledged. Where the spec leaves a choice, the model's is log
entries 7, 44, 45 and 59. -/
def Obligations.AlmanacRuns : Prop :=
  ((∀ s : State, awake s = true → rollsOver s.almanac = true →
    ∃ t, exec .secondRollover s = .next t ∧
      t.almanac.time = withSub s.almanac.time (subSecond s.almanac.time + increment s.almanac) ∧
      (relayOn s = true → sourceRaised t 161) ∧ keepsBut [.relay, .almanac] s t) ∧
  (∀ (tod : BitVec 48) (s : State), awake s = true → s.almanac.disc = true → edgeSpaced s = true → timeSet s = false →
    writeBeats s = false → ∃ t, exec (.ppsEdge tod true) s = .next t ∧ t.almanac.time.sec = tod ∧ 4 ≤ t.almanac.time.nsec ∧
      t.almanac.time.nsec ≤ 8 ∧
      t.almanac.state = .free ∧ t.almanac.ppsAcc = s.almanac.ppsAcc + 1 ∧ t.almanac.lastEdge = some s.cycle ∧
      t.almanac.todv = true ∧ (relayOn s = true → sourceRaised t 160 ∧ sourceRaised t 164) ∧
      keepsBut [.serai, .relay, .almanac, .ledger, .ai] s t) ∧
  (∀ (tod : BitVec 48) (v : Bool) (s : State), awake s = true → s.almanac.disc = true →
    (v = false ∨ edgeSpaced s = false ∨ writeBeats s = true) →
    ∃ t, exec (.ppsEdge tod v) s = .next t ∧
      t.almanac = { s.almanac with todv := v, ppsRej := s.almanac.ppsRej + 1 } ∧ keepsBut [.almanac] s t) ∧
  (∀ s : State, s.almanac.state = .locked → edgeLost s = true →
    ∃ t, exec .holdover s = .next t ∧ t.almanac.state = .holdover ∧ t.almanac.holdSince = s.cycle ∧
      t.almanac.time = s.almanac.time ∧ (relayOn s = true → sourceRaised t 163) ∧ keepsBut [.relay, .almanac, .ai] s t) ∧
  (∀ s : State, s.almanac.state = .holdover → s.almanac.holdMax ≠ 0 →
    s.almanac.holdSince + 500000000 * s.almanac.holdMax.toNat ≤ s.cycle → twf {} s.serai.slots = true →
    ∃ t, exec .holdoverExpiry s = .next t ∧ t.almanac.state = .unset ∧ t.almanac.time = s.almanac.time ∧
      (∀ k, (getSlot t k).kind ≠ .tenant) ∧ (relayOn s = true → sourceRaised t 165) ∧
      keepsBut [.serai, .relay, .almanac, .ledger, .ai] s t)) ∧
  ((∀ s : State, awake s = true →
    ∃ t, exec .almanacSnapshot s = .next t ∧ t.almanac = { s.almanac with snap := s.almanac.time, snapSet := timeSet s } ∧
      keepsBut [.almanac] s t) ∧
  (∀ (k : Fin 16) (s : State), awake s = true → (getAlarm s k.val).en = true → timeSet s = true →
    alarmDue s.almanac.time (getAlarm s k.val) = true →
    ∃ t, exec (.alarmFire k) s = .next t ∧ getAlarm t k.val = { getAlarm s k.val with en := false, fired := true } ∧
      (relayOn s = true → sourceRaised t (168 + k.val)) ∧ (∀ m, m ≠ k.val → getAlarm t m = getAlarm s m) ∧
      keepsBut [.relay, .almanac] s t) ∧
  (∀ s : State, heartbeatDue s = true → heartbeatOut s = false →
    ∃ t, exec .heartbeat s = .next t ∧ t.almanac = { s.almanac with hbAt := some s.cycle } ∧
      t.ai = (issueAccess s .heartbeat { spaceLocal := true } s.almanac.hbAddr 8
        (some (leBytes 8 (stampOf s.almanac.time).toNat))).ai ∧ keepsBut [.almanac, .ai, .ration] s t) ∧
  (∀ s : State, heartbeatDue s = true → heartbeatOut s = true →
    ∃ t, exec .heartbeat s = .next t ∧
      t.almanac = { s.almanac with hbAt := some s.cycle, hbSkipped := s.almanac.hbSkipped + 1 } ∧ keepsBut [.almanac] s t) ∧
  (∀ s : State, heartbeatDue s = false → exec .heartbeat s = .next s))

/-! ### Ledger -/

/-- R338 to R343, R346: the next record goes into the fill bank whole when it fits; while the drain bank is not empty, one that does not fit
is dropped and counted, and while it is empty the banks swap first and the record opens the new fill bank; an overflow record that is due
goes before any other. The banks swap while the drain bank is empty; a read takes the oldest word of the drain bank, and a word with an
uncorrectable error reads as zeros and is written off. Where the spec leaves a choice, the model's is log entry 46. -/
def Obligations.LedgerRuns : Prop :=
  (∀ (i : Nat) (r : LedgerRec) (s : State), awake s = true → s.ledger.ovfDue = false → nextRecord s.ledger = some i →
    s.ledger.waiting[i]? = some r → recordFits s r = true →
    ∃ t, exec .ledgerRecord s = .next t ∧ t.ledger.fill = s.ledger.fill ++ recordWords s r ∧
      t.ledger.waiting = s.ledger.waiting.eraseIdx i ∧ t.ledger.last = r.producer ∧ t.ledger.rseq = s.ledger.rseq + 1 ∧
      t.ledger.records = s.ledger.records + 1 ∧ (recordWords s r).length = recordLen r ∧ recordLen r ≤ 64 ∧
      t.ledger.drain = s.ledger.drain ∧ keepsBut [.relay, .ledger, .ai] s t) ∧
  (∀ (i : Nat) (r : LedgerRec) (s : State), awake s = true → s.ledger.ovfDue = false → nextRecord s.ledger = some i →
    s.ledger.waiting[i]? = some r → recordFits s r = false → s.ledger.drain ≠ [] →
    ∃ t, exec .ledgerRecord s = .next t ∧ t.ledger.fill = s.ledger.fill ∧ t.ledger.waiting = s.ledger.waiting.eraseIdx i ∧
      t.ledger.rseq = s.ledger.rseq + 1 ∧ t.ledger.droppedRecs = s.ledger.droppedRecs + 1 ∧ t.ledger.ovf = true ∧
      t.ledger.records = s.ledger.records ∧ keepsBut [.relay, .ledger, .ai] s t) ∧
  (∀ (i : Nat) (r : LedgerRec) (s : State), awake s = true → s.ledger.ovfDue = false → s.ledger.newDrops = 0 →
    nextRecord s.ledger = some i → s.ledger.waiting[i]? = some r → recordFits s r = false → s.ledger.drain = [] →
    ∃ t, exec .ledgerRecord s = .next t ∧ t.ledger.fill = recordWords s r ∧ t.ledger.bank = (!s.ledger.bank) ∧
      t.ledger.drain.length = (sevens bankWords s.ledger.fill).length ∧ t.ledger.waiting = s.ledger.waiting.eraseIdx i ∧
      t.ledger.rseq = s.ledger.rseq + 1 ∧ t.ledger.droppedRecs = s.ledger.droppedRecs ∧
      (relayOn s = true → sourceRaised t 208) ∧ keepsBut [.relay, .ledger, .ai] s t) ∧
  (∀ s : State, awake s = true → s.ledger.ovfDue = true →
    ∃ t, exec .ledgerRecord s = .next t ∧ t.ledger.ovfDue = false ∧ t.ledger.newDrops = 0 ∧ t.ledger.newDropBytes = 0 ∧
      t.ledger.fill = s.ledger.fill ++ recordWords s
        { producer := 13, type := 0x002, code := 0, body := [w32 s.ledger.newDrops, w32 s.ledger.newDropBytes] } ∧
      t.ledger.waiting = s.ledger.waiting ∧ t.ledger.rseq = s.ledger.rseq + 1 ∧ keepsBut [.relay, .ledger, .ai] s t) ∧
  (∀ s : State, awake s = true → s.ledger.drain = [] → s.ledger.fill ≠ [] → s.ledger.fill.length ≤ bankWords →
    ∃ t, exec .ledgerSwap s = .next t ∧ t.ledger.fill = [] ∧ t.ledger.bank = !s.ledger.bank ∧
      t.ledger.drain.length = wordsBegun s.ledger.fill.length ∧
      (t.ledger.drain.map (fun w => w.nbytes)).sum = 4 * s.ledger.fill.length ∧
      (relayOn s = true → sourceRaised t 208) ∧ keepsBut [.relay, .ledger, .ai] s t) ∧
  (∀ (p : CtlPort) (size : AccSize) (s : State), ledgerServed s p = true → s.ledger.drain = [] →
    ∃ t, exec (.ledgerDataRead p size) s = .next t ∧ t.ledger.drain = [] ∧ t.ledger.wseq = s.ledger.wseq ∧
      t.ledger.bytesOut = s.ledger.bytesOut ∧ keepsBut [.ledger, .ports] s t) ∧
  (∀ (p : CtlPort) (size : AccSize) (w : LedgerWord) (ws : List LedgerWord) (s : State), ledgerServed s p = true →
    s.ledger.drain = w :: ws →
    w.ue = false →
    ∃ t, exec (.ledgerDataRead p size) s = .next t ∧ t.ledger.drain = ws ∧ t.ledger.wseq = s.ledger.wseq + 1 ∧
      t.ledger.bytesOut = s.ledger.bytesOut + w64 w.nbytes ∧
      (match p with
        | .host => t.ledger.latchHost.toNat % 2 ^ 224 = w.data.toNat
        | .sideband => t.ledger.latchSide.toNat % 2 ^ 224 = w.data.toNat) ∧ keepsBut [.ledger, .ports] s t) ∧
  (∀ (p : CtlPort) (size : AccSize) (w : LedgerWord) (ws : List LedgerWord) (s : State), ledgerServed s p = true →
    s.ledger.drain = w :: ws →
    w.ue = true →
    ∃ t, exec (.ledgerDataRead p size) s = .next t ∧ t.ledger.drain = ws ∧ t.ledger.wseq = s.ledger.wseq + 1 ∧
      t.ledger.bytesOut = s.ledger.bytesOut ∧ t.ledger.bytesWoff = s.ledger.bytesWoff + w32 w.nbytes ∧
      (match p with
        | .host => t.ledger.latchHost.toNat % 2 ^ 224 = 0
        | .sideband => t.ledger.latchSide.toNat % 2 ^ 224 = 0) ∧
      (relayOn s = true → sourceRaised t 211) ∧ keepsBut [.ledger, .relay, .ports] s t)

/-! ### Fuses and Safe-conduct -/

/-- R408, R409, Table 17.4: in Provision, with no command in progress and in the lifecycle states of the table, each fuse command begins
with its plan of words, and no fuse is blown yet. GENROOT asks for its secrets as it begins, with
nothing planned until the draw is complete, and while the Well can give nothing GENROOT ends with ENTROPY_FAIL. Outside Provision a command
is refused, which writes a FUSE_PROGRAM record too. Where the
spec leaves a choice, the model's is log entry 48. -/
def Obligations.FuseCommandsBegin : Prop :=
  (∀ (p : CtlPort) (w : BitVec 9) (acc : Bool) (s : State), mayTake s p fzCmd 4 = true → s.fuse.cmd = none → s.mode.mode = .provision →
    programMay s w.toNat = true → (acc = true ∨ tget 0 s.fuse.array w.toNat = 0) →
    ∃ t, exec (.program p w acc) s = .next t ∧
      t.fuse = { s.fuse with cmd := some { op := 1, word := w.toNat, acc := acc, plan := [(w.toNat, s.fuse.pdata)] } } ∧
      keepsBut [.fuse] (tookWrite s p fzCmd 4) t) ∧
  (∀ (p : CtlPort) (s : State), mayTake s p fzCmd 4 = true → s.fuse.cmd = none → s.mode.mode = .provision → s.fuse.life = 0 →
    wellCan s = true →
    ∃ t, exec (.genroot p) s = .next t ∧ t.fuse = { s.fuse with cmd := some { op := 2, word := 0x1FF, acc := false, plan := [] } } ∧
      t.well = { s.well with
        nextDraw := s.well.nextDraw + 1
        draws := s.well.draws ++ [{ draw := s.well.nextDraw, cls := 2, who := .genroot, need := 64 }] } ∧
      keepsBut [.fuse, .well] (tookWrite s p fzCmd 4) t) ∧
  (∀ (d : DrawRec) (j : FuseJob) (s : State), wellCan s = true → nextDraw s = some d → d.who = .genroot → 0 < grantSize s d →
    d.need ≤ d.got.length + grantSize s d → s.fuse.cmd = some j →
    ∃ t q, exec .wellGrant s = .next t ∧ t.fuse = { s.fuse with cmd := some q } ∧ q = { j with plan := q.plan } ∧
      q.plan.map Prod.fst = (rsWords ++ isWords).flatMap (fun w => (List.range 9).map (fun i => w + i)) ∧ keepsBut [.fuse, .well] s t) ∧
  (∀ (p : CtlPort) (s : State), mayTake s p fzCmd 4 = true → s.fuse.cmd = none → s.mode.mode = .provision → s.fuse.life = 0 →
    wellCan s = false →
    ∃ t, exec (.genroot p) s = .next t ∧ t.fuse = { s.fuse with cmdResult := Status.entropyFail.code } ∧
      t.well = { s.well with denied := s.well.denied + 1 } ∧ keepsBut [.fuse, .well, .ledger] (tookWrite s p fzCmd 4) t) ∧
  (∀ (p : CtlPort) (s : State), mayTake s p fzCmd 4 = true → s.fuse.cmd = none → s.mode.mode = .provision → s.fuse.life = 1 →
    s.fuse.disagree = false → s.fuse.fault = false →
    ∃ t, exec (.lockSecret p) s = .next t ∧
      t.fuse = { s.fuse with cmd := some { op := 3, word := 0x1FF, acc := false, plan := [(64, 0x007)] } } ∧
        keepsBut [.fuse] (tookWrite s p fzCmd 4) t) ∧
  (∀ (p : CtlPort) (acc : Bool) (s : State), mayTake s p fzCmd 4 = true → s.fuse.cmd = none → s.mode.mode = .provision → s.fuse.life = 2 →
    s.fuse.ownData ≠ 0 → (acc = true ∨ ∀ w, 65 ≤ w → w ≤ 77 → tget 0 s.fuse.array w = 0) →
    ∃ t, exec (.ownerhash p acc) s = .next t ∧
      t.fuse = { s.fuse with cmd := some { op := 4, word := 0x1FF, acc := acc, plan := ownerPlan s.fuse.ownData } } ∧
      keepsBut [.fuse] (tookWrite s p fzCmd 4) t) ∧
  (∀ (p : CtlPort) (s : State), mayTake s p fzCmd 4 = true → s.fuse.cmd = none → s.mode.mode = .provision → s.fuse.life = 2 →
    s.fuse.ownerV = true →
    ∃ t, exec (.lockOwner p) s = .next t ∧
      t.fuse = { s.fuse with cmd := some { op := 5, word := 0x1FF, acc := false, plan := [(64, 0x038)] } } ∧
        keepsBut [.fuse] (tookWrite s p fzCmd 4) t) ∧
  (∀ (p : CtlPort) (s : State), mayTake s p fzCmd 4 = true → s.fuse.cmd = none → s.mode.mode = .provision →
    (s.fuse.life = 1 ∨ s.fuse.life = 2 ∨ s.fuse.life = 3) → ownerHeld s = false →
    ∃ t, exec (.retire p) s = .next t ∧
      t.fuse = { s.fuse with cmd := some { op := 6, word := 0x1FF, acc := false, plan := [(64, 0x1C0)] } } ∧
        keepsBut [.fuse] (tookWrite s p fzCmd 4) t) ∧
  (∀ (p : CtlPort) (s : State), mayTake s p fzCmd 4 = true → s.fuse.cmd = none → s.mode.mode ≠ .provision →
    ∀ (c : Instr) (op : Nat), (c, op) ∈ [(Instr.genroot p, 2), (.lockSecret p, 3), (.lockOwner p, 5), (.retire p, 6)] →
    ∃ t x, exec c s = .next t ∧ t.fuse = { s.fuse with cmdResult := Status.accessFault.code } ∧ x ∈ t.ledger.waiting ∧ x.type = 0x802 ∧
      x.code = Status.accessFault.code ∧ x.body = [w32 (0x1FF + 512 * op), w32 Status.accessFault.code.toNat, 0] ∧
      keepsBut [.fuse, .ledger] (tookWrite s p fzCmd 4) t)

/-- R403, R404, R409: when a fuse command ends, no fuse has lost a bit and no word outside its plan has changed; where every bit blew
the words hold what was asked, and RESULT is DONE. The lifecycle state is that of the array. A command that still waits for its draw does
not end. Where the spec leaves a choice, the model's is log entry 48. -/
def Obligations.FuseCommandsEnd : Prop :=
  (∀ (j : FuseJob) (stuck : List W32) (s : State), s.fuse.cmd = some j → j.plan = [] → exec (.fuseCommandDone stuck) s = .next s) ∧
  (∀ (j : FuseJob) (stuck : List W32) (s : State), s.fuse.cmd = some j → j.plan ≠ [] →
    ∃ t, exec (.fuseCommandDone stuck) s = .next t ∧ t.fuse.cmd = none ∧
      (∀ w, tget 0 s.fuse.array w &&& tget 0 t.fuse.array w = tget 0 s.fuse.array w) ∧
      (∀ w, w ∉ j.plan.map Prod.fst → tget 0 t.fuse.array w = tget 0 s.fuse.array w) ∧
      (stuck = [] → t.fuse.cmdResult = Status.done.code ∧ ∀ p, p ∈ j.plan → tget 0 t.fuse.array p.1 &&& p.2 = p.2) ∧
      (t.fuse.cmdResult = Status.done.code ∨ t.fuse.cmdResult = Status.fuseVerify.code) ∧ t.fuse.life.toNat = lifeOf t ∧
      (∀ w, 64 ≤ w → tget 0 t.fuse.sensed w = tget 0 t.fuse.array w) ∧ keepsBut [.fuse, .ledger] s t)

/-- R414 to R416, R444: PUBLISH with a held store writes it, and otherwise requests 64 signatures first; ATTEST keeps its body of Table
17.6 and requests two. An ATTEST that may not begin is refused, and writes its record
too. With the unit keys lost the command is over with PK_ABORTED, with the Well failed with ENTROPY_FAIL. Once the last
signature is made, the store is rebuilt and written, or the report: body and signatures. As its writes end the command is over, with DONE or
FABRIC_ERROR; PUBLISH_DONE and ATTEST_DONE then end it: RESULT, PUBLISHED or the count of reports, and the record. Before that they do
nothing. Where the spec leaves a choice, the model's is log entries 5, 49 and 65. -/
def Obligations.SafeConductRuns : Prop :=
  ((∀ (p : CtlPort) (s : State), mayTake s p sfCmd 4 = true → s.safe.cmd = none → s.mode.mode = .provision → unitKeyed s = true →
    s.safe.storeAddr ≠ 0 → s.safe.storeAddr.toNat % 4096 = 0 → s.safe.held = true →
    ∃ t, exec (.publish p) s = .next t ∧
      t = issueAccess { tookWrite s p sfCmd 4 with safe := { s.safe with cmd := some .publish, run := s.safe.run + 1, stage := .writing, sigs := [] } }
        .storeWrite {} s.safe.storeAddr 0x40000 (some (readBytes s.safe.store 0 0x40000)) ∧
      keepsBut [.safe, .ai, .ration] (tookWrite s p sfCmd 4) t) ∧
  (∀ (p : CtlPort) (s : State), mayTake s p sfCmd 4 = true → s.safe.cmd = none → s.mode.mode = .provision → unitKeyed s = true →
    s.safe.storeAddr ≠ 0 → s.safe.storeAddr.toNat % 4096 = 0 → s.safe.held = false → unitMaskDead s = false → wellCan s = true →
    ∃ t, exec (.publish p) s = .next t ∧
      t.safe = { s.safe with cmd := some .publish, run := s.safe.run + 1, stage := t.safe.stage, sigs := [] } ∧
      (t.safe.stage = .signing ∨ t.safe.stage = .over .pkAborted) ∧ t.house.nextTicket = s.house.nextTicket + 32 ∧
      t.scales.nextTicket = s.scales.nextTicket + 32 ∧
      keepsBut [.safe, .ai, .ration, .ledger, .house, .scales, .well, .units, .serai, .jobs, .mint, .relay] (tookWrite s p sfCmd 4) t) ∧
  (∀ (p : CtlPort) (u : BitVec 5) (s : State), mayTake s p sfCmd 4 = true → s.safe.cmd = none →
    (s.mode.mode = .provision ∨ s.mode.mode = .service) → unitKeyed s = true → unitMaskDead s = false → wellCan s = true →
    ∃ t, exec (.attest p u) s = .next t ∧
      t.safe = { s.safe with
        cmd := some (.attest u.toNat), run := s.safe.run + 1, stage := t.safe.stage, sigs := [], body := reportBody s u.toNat } ∧
      (t.safe.stage = .signing ∨ t.safe.stage = .over .pkAborted) ∧ t.house.nextTicket = s.house.nextTicket + 1 ∧
      t.scales.nextTicket = s.scales.nextTicket + 1 ∧
      keepsBut [.safe, .ai, .ration, .ledger, .house, .scales, .well, .units, .serai, .jobs, .mint, .relay] (tookWrite s p sfCmd 4) t) ∧
  (∀ (p : CtlPort) (u : BitVec 5) (s : State), mayTake s p sfCmd 4 = true → s.safe.cmd = none →
    (s.mode.mode = .provision ∨ s.mode.mode = .service) → unitKeyed s = true → (unitMaskDead s = true ∨ wellCan s = false) →
    ∃ t, exec (.attest p u) s = .next t ∧ t.safe.cmd = some (.attest u.toNat) ∧
      t.safe.stage = .over (if unitMaskDead s then .pkAborted else .entropyFail) ∧ keepsBut [.safe, .well] (tookWrite s p sfCmd 4) t) ∧
  (∀ (p : CtlPort) (u : BitVec 5) (s : State), mayTake s p sfCmd 4 = true → s.safe.cmd = none →
    ((s.mode.mode ≠ .provision ∧ s.mode.mode ≠ .service) ∨ unitKeyed s = false) →
    ∃ t x, exec (.attest p u) s = .next t ∧ t.safe = { s.safe with cmdResult := Status.accessFault.code } ∧ x ∈ t.ledger.waiting ∧
      x.type = 0x804 ∧ x.code = Status.accessFault.code ∧
      x.body = w32 u.toNat :: w32 Status.accessFault.code.toNat :: loHi s.safe.attAddr ∧
      keepsBut [.safe, .ledger] (tookWrite s p sfCmd 4) t)) ∧
  ((∀ s : State, s.safe.cmd = some .publish → s.safe.stage = .signing → unitMaskDead s = false → signed s 64 = true →
      (safeAdvance s).safe.stage = .writing ∧ (safeAdvance s).safe.held = true ∧ (safeAdvance s).safe.cmd = some .publish ∧
        keepsBut [.safe, .units, .ai, .ration] s (safeAdvance s)) ∧
  (∀ (u : Nat) (s : State), s.safe.cmd = some (.attest u) → s.safe.stage = .signing → unitMaskDead s = false → signed s 2 = true →
      safeAdvance s = issueAccess { s with safe := { s.safe with stage := .writing } } .reportWrite {} s.safe.attAddr
        (s.safe.body ++ tget [] s.safe.sigs 0 ++ tget [] s.safe.sigs 1).length
        (some (s.safe.body ++ tget [] s.safe.sigs 0 ++ tget [] s.safe.sigs 1)) ∧ keepsBut [.safe, .ai, .ration] s (safeAdvance s)) ∧
  (∀ (fail : Option Status) (s : State), s.safe.stage = .writing → safeWritten s fail = { s with
      safe := { s.safe with stage := .over (if fail.isSome then .fabricError else .done) } })) ∧
  ((∀ (st : Status) (s : State), s.safe.cmd = some .publish → s.safe.stage = .over st →
    ∃ t, exec .publishDone s = .next t ∧ t.safe = { s.safe with
        cmd := none, cmdResult := st.code, stage := .idle, body := [], sigs := []
        published := s.safe.published || decide (st = .done) } ∧
      recordOffered s t 16 0x807 st.code [1, w32 st.code.toNat] ∧
      t.house = { s.house with queue := s.house.queue.filter (fun r => r.who ≠ .safeConduct) } ∧
      t.scales = { s.scales with queue := s.scales.queue.filter (fun r => r.who ≠ .safeConduct) } ∧
      keepsBut [.safe, .ledger, .house, .scales] s t) ∧
  (∀ (u : Nat) (st : Status) (s : State), s.safe.cmd = some (.attest u) → s.safe.stage = .over st →
    ∃ t, exec .attestDone s = .next t ∧ t.safe = { s.safe with
        cmd := none, cmdResult := st.code, stage := .idle, body := [], sigs := []
        reports := if st = .done then s.safe.reports + 1 else s.safe.reports } ∧
      recordOffered s t 16 0x804 st.code (w32 u :: w32 st.code.toNat :: loHi s.safe.attAddr) ∧
      keepsBut [.safe, .ledger, .house, .scales] s t) ∧
  (∀ s : State, (∀ st, s.safe.stage ≠ .over st) → exec .publishDone s = .next s ∧ exec .attestDone s = .next s))

/-! ### The Watchman -/

/-- R420 to R423, R398, R226, R430: the zeroize line and an acting tamper input clear the owner secret and the version in the Strongbox
and, with the block out of reset, take it to Cleared with its keys gone; an input that does not act leaves the Strongbox and clears the
Tollgate; LOGCLEAR in Provision empties the log. Where the spec leaves a choice, the model's is log entries 14 and 50. -/
def Obligations.ZeroizationActs : Prop :=
  (∀ (c : Instr) (cause : Nat) (s : State),
    ((c = .zeroize ∧ s.pins.zeroize = false ∧ cause = 5) ∨
      ∃ i : Fin 4, c = .tamperInput i ∧ tb s.watch.act i.val = true ∧ s.watch.zeroAt ≠ some s.cycle ∧ cause = i.val + 1) →
    ∃ t, exec c s = .next t ∧ t.watch.box = strongboxClear s.watch.box ∧ tget 0 t.watch.log s.watch.logNext = aonEntry s cause ∧
      t.watch.logNext = (s.watch.logNext + 1) % 16 ∧
      (awake s = true → t.mode.mode = .cleared ∧ t.serai.slots = [] ∧ t.serai.masks = [] ∧ t.serai.zeroed = true ∧
        t.mint.root = false ∧ t.mint.dk = 0 ∧ t.mint.okey = 0 ∧ t.mint.tk = 0 ∧ t.watch.cleared = true ∧
        t.watch.events = s.watch.events + 1 ∧ t.well.zeroed = true ∧ t.scales.zeroed = true ∧ t.house.zeroed = true ∧
        t.tollgate.cleared = true) ∧
      (awake s = false → t.mode = s.mode ∧ t.serai = s.serai ∧ t.mint = s.mint) ∧
      (∀ w, tget 0 s.fuse.array w &&& tget 0 t.fuse.array w = tget 0 s.fuse.array w) ∧ t.pending = s.pending) ∧
  (∀ s : State, s.pins.zeroize = true → exec .zeroize s = .next s) ∧
  (∀ (i : Fin 4) (s : State), (tb s.watch.act i.val = false ∨ s.watch.zeroAt = some s.cycle) → awake s = true →
    ∃ t, exec (.tamperInput i) s = .next t ∧ t.watch.box = s.watch.box ∧ tb t.watch.tamper i.val = true ∧
      t.tollgate.cleared = true ∧ t.tollgate.cause = 3 ∧ tget 0 t.watch.log s.watch.logNext = aonEntry s (i.val + 1) ∧
      keepsBut [.tollgate, .relay, .ledger, .ai, .watch] s t) ∧
  (∀ (p : CtlPort) (s : State), mayTake s p wtCmd 4 = true → s.mode.mode = .provision →
    ∃ t, exec (.logclear p) s = .next t ∧ t.watch = { s.watch with
        log := [], logSec := [], logNext := 0, logValid := 0, logLost := 0, logNew := 0, cmdResult := Status.done.code } ∧
      keepsBut [.watch] (tookWrite s p wtCmd 4) t)

/-! ### Register writes -/

/-- R9, R384, R450, R452, R454, R456, R458 to R461: the access types over the register map. A write of STOP fields outside Provision is
ignored, and logged as kind 1 unless they hold the written value; in Provision they take it. An RW field takes a write in every mode that
serves the port, unless its guard is closed, which is logged as kind 3. The Watchman's configuration does so under its lock. A pair takes a
whole or a half; a narrow write of a register is ignored and logged as kind 2; an offset of no register ignores every write. Of two
ports' writes of one field in one control cycle the sideband's lands, and the host's is ignored and logged as kind 3. A write that is
taken has a normal response; an unaligned one, and one that the mode does not serve (in Cleared every write but the sideband's RESET), has
an error response and no other effect. Where the spec leaves a choice, the model's is log entries 39 and 40. -/
def Obligations.RegisterWritesLand : Prop :=
  (∀ (p : CtlPort) (off : BitVec 24) (data : W64) (s : State), mayTake s p off.toNat 4 = true → s.mode.mode ≠ .provision →
    off.toNat % 4 = 0 → stopMask off.toNat ≠ 0 →
    (w32 data.toNat &&& w32 (stopMask off.toNat) = readWord s p off.toNat &&& w32 (stopMask off.toNat) →
      exec (.registerWrite p off .b4 data) s = .next (tookWrite s p off.toNat 4)) ∧
    (w32 data.toNat &&& w32 (stopMask off.toNat) ≠ readWord s p off.toNat &&& w32 (stopMask off.toNat) →
      ∃ t, exec (.registerWrite p off .b4 data) s = .next t ∧
        recordOffered s t (producerOf off.toNat) 0x001 Status.accessFault.code
          [w32 (off.toNat + 2 ^ 24 * portBit p + 2 ^ 25), w32 data.toNat] ∧ keepsBut [.ledger] (tookWrite s p off.toNat 4) t)) ∧
  (∀ (p : CtlPort) (off : BitVec 24) (data : W64) (s : State), mayTake s p off.toNat 4 = true → s.mode.mode = .provision →
    off.toNat % 4 = 0 → stopMask off.toNat ≠ 0 → stopActs off.toNat = false → boundGuards s off.toNat = false →
    ∃ t, exec (.registerWrite p off .b4 data) s = .next t ∧
      readWord t p off.toNat = w32 data.toNat &&& w32 (stopMask off.toNat) ∧
      keepsBut [regPart off.toNat] (tookWrite s p off.toNat 4) t) ∧
  (∀ (p : CtlPort) (off : BitVec 24) (data : W64) (s : State), mayTake s p off.toNat 4 = true → off.toNat % 4 = 0 →
    rwMask off.toNat ≠ 0 → ∃ t, exec (.registerWrite p off .b4 data) s = .next t ∧
      (rwClosed s off.toNat = false →
        readWord t p off.toNat &&& w32 (rwMask off.toNat) = w32 data.toNat &&& w32 (rwMask off.toNat) ∧
        keepsBut [regPart off.toNat] (tookWrite s p off.toNat 4) t) ∧
      (rwClosed s off.toNat = true →
        recordOffered s t (producerOf off.toNat) 0x001 Status.accessFault.code
          [w32 (off.toNat + 2 ^ 24 * portBit p + 2 ^ 25 * 3), w32 data.toNat] ∧ keepsBut [.ledger] (tookWrite s p off.toNat 4) t)) ∧
  (∀ (p : CtlPort) (data : W64) (s : State), mayTake s p 0xB00004 4 = true →
    ∃ t, exec (.registerWrite p 0xB00004 .b4 data) s = .next t ∧
      (s.watch.aon.lock = true →
        recordOffered s t 17 0x001 Status.accessFault.code
          [w32 (0xB00004 + 2 ^ 24 * portBit p + 2 ^ 25 * 3), w32 data.toNat] ∧ keepsBut [.ledger] (tookWrite s p 0xB00004 4) t) ∧
      (s.watch.aon.lock = false → s.mode.mode = .provision →
        t.watch.act = BitVec.ofNat 4 data.toNat ∧ t.watch.lock = tb data 8 ∧ keepsBut [.watch] (tookWrite s p 0xB00004 4) t) ∧
      (s.watch.aon.lock = false → s.mode.mode ≠ .provision → (data &&& 0x10F).toNat ≠ wtCfgWord s.watch.aon →
        recordOffered s t 17 0x001 Status.accessFault.code
          [w32 (0xB00004 + 2 ^ 24 * portBit p + 2 ^ 25), w32 data.toNat] ∧ keepsBut [.ledger] (tookWrite s p 0xB00004 4) t)) ∧
  (∀ (p : CtlPort) (data : W64) (s : State), mayTake s p 0x200004 4 = true → s.mode.mode = .provision →
    ∃ t, exec (.registerWrite p 0x200004 .b4 data) s = .next t ∧
      t.muster = { s.muster with reserve := BitVec.ofNat 16 data.toNat } ∧ keepsBut [.muster] (tookWrite s p 0x200004 4) t) ∧
  (∀ (p : CtlPort) (data : W64) (s : State), mayTake s p 0x200040 4 = true →
    ∃ t, exec (.registerWrite p 0x200040 .b4 data) s = .next t ∧
      t.muster = { s.muster with expSel := BitVec.ofNat 12 data.toNat } ∧ keepsBut [.muster] (tookWrite s p 0x200040 4) t) ∧
  (∀ (p : CtlPort) (r : Fin 4096) (data : W64) (s : State), mayTake s p (0x100008 + 0x100 * r.val) 8 = true → s.mode.mode = .provision →
    ∃ t, exec (.registerWrite p (BitVec.ofNat 24 (0x100008 + 0x100 * r.val)) .b8 data) s = .next t ∧
      getRing t r.val = { getRing s r.val with base := data &&& 0xFFFFFFFFFFFFF000 } ∧
      (∀ k, k ≠ r.val → getRing t k = getRing s k) ∧ keepsBut [.rings] (tookWrite s p (0x100008 + 0x100 * r.val) 8) t) ∧
  (∀ (p : CtlPort) (r : Fin 4096) (data : W64) (s : State), mayTake s p (0x100008 + 0x100 * r.val) 8 = true → s.mode.mode ≠ .provision →
    data &&& 0xFFFFFFFFFFFFF000 ≠ (getRing s r.val).base &&& 0xFFFFFFFFFFFFF000 →
    ∃ t, exec (.registerWrite p (BitVec.ofNat 24 (0x100008 + 0x100 * r.val)) .b8 data) s = .next t ∧
      recordOffered s t 1 0x001 Status.accessFault.code
        (w32 (0x100008 + 0x100 * r.val + 2 ^ 24 * portBit p + 2 ^ 25) :: loHi data) ∧
      keepsBut [.ledger] (tookWrite s p (0x100008 + 0x100 * r.val) 8) t) ∧
  (∀ (p : CtlPort) (r : Fin 4096) (data : W64) (s : State), mayTake s p (0x10000C + 0x100 * r.val) 4 = true → s.mode.mode = .provision →
    ∃ t, exec (.registerWrite p (BitVec.ofNat 24 (0x10000C + 0x100 * r.val)) .b4 data) s = .next t ∧
      getRing t r.val = { getRing s r.val with
        base := ((getRing s r.val).base &&& 0xFFFFF000) ||| (data <<< 32) } ∧
      keepsBut [.rings] (tookWrite s p (0x10000C + 0x100 * r.val) 4) t) ∧
  (∀ (p : CtlPort) (off : BitVec 24) (n : AccSize) (data : W64) (s : State), served s = true → accBytes n < 4 →
    off.toNat % accBytes n = 0 → (regWord s p (off.toNat / 4 * 4)).isSome = true → isDoorbell off.toNat = false →
    (off.toNat < 0x400000 ∨ 0x480000 ≤ off.toNat) →
    ∃ t, exec (.registerWrite p off n data) s = .next t ∧
      recordOffered s t (producerOf off.toNat) 0x001 Status.accessFault.code
        [w32 (off.toNat + 2 ^ 24 * portBit p + 2 ^ 26), w32 (data.toNat % 256 ^ accBytes n * 256 ^ (off.toNat % 4))] ∧
      keepsBut [.ledger] (respond s p false) t) ∧
  (∀ (off : BitVec 24) (data : W64) (s : State), served s = true → sideMeets s .host off.toNat 4 = true → off.toNat % 4 = 0 →
    (rwMask off.toNat ≠ 0 ∨ (stopMask off.toNat ≠ 0 ∧ stopActs off.toNat = false ∧ boundGuards s off.toNat = false)) →
    ∃ t, exec (.registerWrite .host off .b4 data) s = .next t ∧
      recordOffered s t (producerOf off.toNat) 0x001 Status.accessFault.code [w32 (off.toNat + 2 ^ 25 * 3), w32 data.toNat] ∧
      keepsBut [.ledger] (respond s .host false) t) ∧
  (∀ (p : CtlPort) (off : BitVec 24) (data : W64) (s : State), served s = true → off.toNat % 4 = 0 → regWord s p off.toNat = none →
    exec (.registerWrite p off .b4 data) s = .next (tookWrite s p off.toNat 4)) ∧
  (∀ (p : CtlPort) (off : BitVec 24) (n : AccSize) (data : W64) (s : State), portThere s = true →
    (off.toNat % accBytes n ≠ 0 ∨ (served s = false ∧
      (p = .host ∨ s.mode.mode ≠ .cleared ∨ off ≠ 0x900004 ∨ n ≠ .b4 ∨ fld data 0 4 ≠ 4))) →
    exec (.registerWrite p off n data) s = .next (respond s p true)) ∧
  (∀ (p : CtlPort) (off : BitVec 24) (n : AccSize) (data : W64) (s : State), portThere s = false →
    exec (.registerWrite p off n data) s = .next s)

/-! ### Every command, and every step -/

/-- A step runs the command at the front of the queue on the state with the queue's rest; with an empty queue a control cycle passes,
which is the model's choice (log entry 1). -/
def Obligations.StepRunsTheFrontCommand : Prop :=
  (∀ (c : Instr) (rest : List Instr) (s : State), s.pending = c :: rest → step s = exec c { s with pending := rest }) ∧
  (∀ s : State, s.pending = [] → step s = .next (tick s))

/-- R451, Table 19.7: the machine right after reset reads the reset values of the register map (MD_STATUS, whose value there is that of
Self-check, the units' read-only registers and those of the fuses apart). The tables that `State.canonical` names have their canonical form
there, and those of the ports as `State.sided` says; that form is the model's own, log entry 11. -/
def Obligations.ResetIsCanonical : Prop :=
  State.reset.canonical = true ∧ State.reset.sided = true ∧
  (∀ (p : CtlPort) (off : Nat), 0x200000 ≤ off → off < 0xD00000 → off % 4 = 0 → off ≠ 0x900000 →
    readWord State.reset p off = w32 (resetValue off)) ∧
  (∀ (p : CtlPort) (r : Fin 4096) (o : Nat), o < 0x100 → o % 4 = 0 →
    readWord State.reset p (0x100000 + 0x100 * r.val + o) = if o = 0x18 then 6 else 0) ∧
  (∀ (p : CtlPort) (u : Fin 32), readWord State.reset p (0x1000 * u.val + 0x200) = 1)

/-- Every command ends in a next state, whatever the state and the operands, and leaves the commands that wait as they are. That a command
whose condition does not hold does so too is the model's choice, log entry 2. -/
def Obligations.CommandsAnswerAndKeepTheQueue : Prop :=
  ∀ (c : Instr) (s : State), ∃ t, exec c s = .next t ∧ t.pending = s.pending

/-- R403, R409, R390: a fuse bit is never restored: no step of the block, not even a reset or a zeroize event, takes back a bit that is
blown. -/
def Obligations.FusesNeverFall : Prop := ∀ s t : State, step s = .next t → fusesStand s t

/-- A step keeps the tables that `State.canonical` names in their canonical form, so that equal contents are equal data; and of each port
the reads stand in the table of its reads and the writes in that of its writes, each table canonical. The form is the model's own, log
entry 11: no rule of the spec speaks of it. -/
def Obligations.TablesStayCanonical : Prop :=
  (∀ s t : State, s.canonical = true → step s = .next t → t.canonical = true) ∧
  (∀ s t : State, s.sided = true → step s = .next t → t.sided = true)

/-- R398, R389, R390, R461: a step leaves Cleared only by a block reset: the reset pin, the loss of the PLL's lock, or the sideband port's
RESET, commanded as such or as a 32-bit write of OP 4 to MD_CMD; a control cycle that passes without a command leaves it in Cleared too.
A block that is Cleared runs no Recovery, and no step from such a state, whatever its mode, leads to one that is Cleared with a Recovery:
the premise on the Recovery is an invariant. Where the spec leaves a choice, the model's is log entries 1 and 14. -/
def Obligations.ClearedEndsOnlyByReset : Prop :=
  (∀ s t : State, s.mode.mode = .cleared → s.mode.recov = none → step s = .next t →
    t.mode.recov = none ∧
    (t.mode.mode = .cleared ∨ ∃ c rest, s.pending = c :: rest ∧
      (c = .blockReset ∨ c = .pllLockLost ∨ c = .reset .sideband ∨
        ∃ data, c = .registerWrite .sideband 0x900004 .b4 data ∧ fld data 0 4 = 4))) ∧
  (∀ s t : State, (s.mode.mode = .cleared → s.mode.recov = none) → step s = .next t →
    t.mode.mode = .cleared → t.mode.recov = none)
end

