-- ==== Sys2Proof/Laws/Keeps.lean ====
section
/-! SUPPORT. What each shared operation leaves alone: one lemma `keeps_<operation>` for each, which names the parts of the state that
the operation may change; `step_<operation>` says the same of an operation that answers a value with a state. A goal
`keepsBut W s (op … t)` is peeled by `apply keepsBut.step (keeps_op …)`. -/

namespace Sys2Proof.Machine

theorem keepsBut.refl (W : List Part) (s : State) : keepsBut W s s := ⟨rfl, fun p _ => by cases p <;> rfl⟩

theorem keepsBut.trans {W : List Part} {s t u : State} (h : keepsBut W s t) (k : keepsBut W t u) : keepsBut W s u := by
  refine ⟨k.1.trans h.1, fun p hp => ?_⟩
  have a := h.2 p hp
  have b := k.2 p hp
  cases p <;> exact Eq.trans b a

theorem keepsBut.mono {V W : List Part} {s t : State} (h : keepsBut V s t) (hv : ∀ p ∈ V, p ∈ W) : keepsBut W s t :=
  ⟨h.1, fun p hp => h.2 p (fun hm => hp (hv p hm))⟩

/-- A further operation that changes parts of `V` only. -/
theorem keepsBut.step {V W : List Part} {s t u : State} (k : keepsBut V t u) (hv : (V.all fun p => W.contains p) = true)
    (h : keepsBut W s t) : keepsBut W s u := h.trans (k.mono (by simpa using hv))

theorem keepsBut.ite {W : List Part} {s t u : State} {c : Prop} [Decidable c] (h : keepsBut W s t) (k : keepsBut W s u) :
    keepsBut W s (if c then t else u) := by
  split
  · exact h
  · exact k

theorem keepsBut.fold {α : Type} {W : List Part} {s : State} {f : State → α → State} (k : ∀ t x, keepsBut W t (f t x)) :
    ∀ (l : List α) (t : State), keepsBut W s t → keepsBut W s (l.foldl f t)
  | [], _, h => h
  | x :: l, t, h => keepsBut.fold k l (f t x) (h.trans (k t x))

theorem keepsBut.each {W : List Part} {s t : State} {l : List Nat} {f : State → Nat → State} (k : ∀ t x, keepsBut W t (f t x))
    (h : keepsBut W s t) : keepsBut W s (forAll l f t) := keepsBut.fold k l t h

theorem keepsBut.eachFrom {W : List Part} {s : State} {f : State → Nat → State} (k : ∀ t x, keepsBut W s t → keepsBut W s (f t x)) :
    ∀ (l : List Nat) (t : State), keepsBut W s t → keepsBut W s (forAll l f t)
  | [], _, h => h
  | x :: l, t, h => keepsBut.eachFrom k l (f t x) (k t x h)

theorem keepsBut.foldFst {α β : Type} {W : List Part} {s : State} {f : State × β → α → State × β}
    (k : ∀ acc x, keepsBut W acc.1 (f acc x).1) : ∀ (l : List α) (acc : State × β), keepsBut W s acc.1 → keepsBut W s (l.foldl f acc).1
  | [], _, h => h
  | x :: l, acc, h => keepsBut.foldFst k l (f acc x) (h.trans (k acc x))

theorem keepsBut.when {W : List Part} {s t : State} {c : Bool} {f : State → State} (h : keepsBut W s t)
    (k : ∀ u, keepsBut W s u → keepsBut W s (f u)) : keepsBut W s (whenS c f t) := by
  cases c
  · exact h
  · exact k t h
theorem keeps_set_units (s : State) (v : Table UnitRec) : keepsBut [.units] s { s with units := v } :=
  ⟨rfl, fun p hp => by cases p <;> first | rfl | exact absurd (by decide) hp⟩

theorem keeps_set_rings (s : State) (v : Table RingRec) : keepsBut [.rings] s { s with rings := v } :=
  ⟨rfl, fun p hp => by cases p <;> first | rfl | exact absurd (by decide) hp⟩

theorem keeps_set_routes (s : State) (v : RouteStore) : keepsBut [.routes] s { s with routes := v } :=
  ⟨rfl, fun p hp => by cases p <;> first | rfl | exact absurd (by decide) hp⟩

theorem keeps_set_jobs (s : State) (v : Table Job) : keepsBut [.jobs] s { s with jobs := v } :=
  ⟨rfl, fun p hp => by cases p <;> first | rfl | exact absurd (by decide) hp⟩

theorem keeps_set_nextJob (s : State) (v : Nat) : keepsBut [.nextJob] s { s with nextJob := v } :=
  ⟨rfl, fun p hp => by cases p <;> first | rfl | exact absurd (by decide) hp⟩

theorem keeps_set_lanes (s : State) (v : Table LaneRec) : keepsBut [.lanes] s { s with lanes := v } :=
  ⟨rfl, fun p hp => by cases p <;> first | rfl | exact absurd (by decide) hp⟩

theorem keeps_set_muster (s : State) (v : MusterRec) : keepsBut [.muster] s { s with muster := v } :=
  ⟨rfl, fun p hp => by cases p <;> first | rfl | exact absurd (by decide) hp⟩

theorem keeps_set_serai (s : State) (v : SeraiRec) : keepsBut [.serai] s { s with serai := v } :=
  ⟨rfl, fun p hp => by cases p <;> first | rfl | exact absurd (by decide) hp⟩

theorem keeps_set_mint (s : State) (v : MintRec) : keepsBut [.mint] s { s with mint := v } :=
  ⟨rfl, fun p hp => by cases p <;> first | rfl | exact absurd (by decide) hp⟩

theorem keeps_set_house (s : State) (v : HouseRec) : keepsBut [.house] s { s with house := v } :=
  ⟨rfl, fun p hp => by cases p <;> first | rfl | exact absurd (by decide) hp⟩

theorem keeps_set_scales (s : State) (v : ScalesRec) : keepsBut [.scales] s { s with scales := v } :=
  ⟨rfl, fun p hp => by cases p <;> first | rfl | exact absurd (by decide) hp⟩

theorem keeps_set_well (s : State) (v : WellRec) : keepsBut [.well] s { s with well := v } :=
  ⟨rfl, fun p hp => by cases p <;> first | rfl | exact absurd (by decide) hp⟩

theorem keeps_set_tollgate (s : State) (v : TollgateRec) : keepsBut [.tollgate] s { s with tollgate := v } :=
  ⟨rfl, fun p hp => by cases p <;> first | rfl | exact absurd (by decide) hp⟩

theorem keeps_set_porter (s : State) (v : PorterRec) : keepsBut [.porter] s { s with porter := v } :=
  ⟨rfl, fun p hp => by cases p <;> first | rfl | exact absurd (by decide) hp⟩

theorem keeps_set_relay (s : State) (v : RelayRec) : keepsBut [.relay] s { s with relay := v } :=
  ⟨rfl, fun p hp => by cases p <;> first | rfl | exact absurd (by decide) hp⟩

theorem keeps_set_almanac (s : State) (v : AlmanacRec) : keepsBut [.almanac] s { s with almanac := v } :=
  ⟨rfl, fun p hp => by cases p <;> first | rfl | exact absurd (by decide) hp⟩

theorem keeps_set_ledger (s : State) (v : LedgerState) : keepsBut [.ledger] s { s with ledger := v } :=
  ⟨rfl, fun p hp => by cases p <;> first | rfl | exact absurd (by decide) hp⟩

theorem keeps_set_ai (s : State) (v : AdapterRec) : keepsBut [.ai] s { s with ai := v } :=
  ⟨rfl, fun p hp => by cases p <;> first | rfl | exact absurd (by decide) hp⟩

theorem keeps_set_ports (s : State) (v : PortsRec) : keepsBut [.ports] s { s with ports := v } :=
  ⟨rfl, fun p hp => by cases p <;> first | rfl | exact absurd (by decide) hp⟩

theorem keeps_set_mode (s : State) (v : ModeRec) : keepsBut [.mode] s { s with mode := v } :=
  ⟨rfl, fun p hp => by cases p <;> first | rfl | exact absurd (by decide) hp⟩

theorem keeps_set_fuse (s : State) (v : FuseRec) : keepsBut [.fuse] s { s with fuse := v } :=
  ⟨rfl, fun p hp => by cases p <;> first | rfl | exact absurd (by decide) hp⟩

theorem keeps_set_safe (s : State) (v : SafeRec) : keepsBut [.safe] s { s with safe := v } :=
  ⟨rfl, fun p hp => by cases p <;> first | rfl | exact absurd (by decide) hp⟩

theorem keeps_set_watch (s : State) (v : WatchRec) : keepsBut [.watch] s { s with watch := v } :=
  ⟨rfl, fun p hp => by cases p <;> first | rfl | exact absurd (by decide) hp⟩

theorem keeps_set_ration (s : State) (v : RationRec) : keepsBut [.ration] s { s with ration := v } :=
  ⟨rfl, fun p hp => by cases p <;> first | rfl | exact absurd (by decide) hp⟩

theorem keeps_set_pins (s : State) (v : Pins) : keepsBut [.pins] s { s with pins := v } :=
  ⟨rfl, fun p hp => by cases p <;> first | rfl | exact absurd (by decide) hp⟩

theorem keeps_set_cycle (s : State) (v : Nat) : keepsBut [.cycle] s { s with cycle := v } :=
  ⟨rfl, fun p hp => by cases p <;> first | rfl | exact absurd (by decide) hp⟩

theorem keeps_set_free (s : State) (v : Nat) : keepsBut [.free] s { s with free := v } :=
  ⟨rfl, fun p hp => by cases p <;> first | rfl | exact absurd (by decide) hp⟩

theorem keepsBut.units_eq {W : List Part} {s t : State} (h : keepsBut W s t) (hp : W.contains .units = false) : t.units = s.units :=
  h.2 .units (by simpa using hp)

theorem keepsBut.rings_eq {W : List Part} {s t : State} (h : keepsBut W s t) (hp : W.contains .rings = false) : t.rings = s.rings :=
  h.2 .rings (by simpa using hp)

theorem keepsBut.routes_eq {W : List Part} {s t : State} (h : keepsBut W s t) (hp : W.contains .routes = false) : t.routes = s.routes :=
  h.2 .routes (by simpa using hp)

theorem keepsBut.jobs_eq {W : List Part} {s t : State} (h : keepsBut W s t) (hp : W.contains .jobs = false) : t.jobs = s.jobs :=
  h.2 .jobs (by simpa using hp)

theorem keepsBut.nextJob_eq {W : List Part} {s t : State} (h : keepsBut W s t) (hp : W.contains .nextJob = false) : t.nextJob = s.nextJob :=
  h.2 .nextJob (by simpa using hp)

theorem keepsBut.lanes_eq {W : List Part} {s t : State} (h : keepsBut W s t) (hp : W.contains .lanes = false) : t.lanes = s.lanes :=
  h.2 .lanes (by simpa using hp)

theorem keepsBut.muster_eq {W : List Part} {s t : State} (h : keepsBut W s t) (hp : W.contains .muster = false) : t.muster = s.muster :=
  h.2 .muster (by simpa using hp)

theorem keepsBut.serai_eq {W : List Part} {s t : State} (h : keepsBut W s t) (hp : W.contains .serai = false) : t.serai = s.serai :=
  h.2 .serai (by simpa using hp)

theorem keepsBut.mint_eq {W : List Part} {s t : State} (h : keepsBut W s t) (hp : W.contains .mint = false) : t.mint = s.mint :=
  h.2 .mint (by simpa using hp)

theorem keepsBut.house_eq {W : List Part} {s t : State} (h : keepsBut W s t) (hp : W.contains .house = false) : t.house = s.house :=
  h.2 .house (by simpa using hp)

theorem keepsBut.scales_eq {W : List Part} {s t : State} (h : keepsBut W s t) (hp : W.contains .scales = false) : t.scales = s.scales :=
  h.2 .scales (by simpa using hp)

theorem keepsBut.well_eq {W : List Part} {s t : State} (h : keepsBut W s t) (hp : W.contains .well = false) : t.well = s.well :=
  h.2 .well (by simpa using hp)

theorem keepsBut.tollgate_eq {W : List Part} {s t : State} (h : keepsBut W s t) (hp : W.contains .tollgate = false) : t.tollgate = s.tollgate :=
  h.2 .tollgate (by simpa using hp)

theorem keepsBut.porter_eq {W : List Part} {s t : State} (h : keepsBut W s t) (hp : W.contains .porter = false) : t.porter = s.porter :=
  h.2 .porter (by simpa using hp)

theorem keepsBut.relay_eq {W : List Part} {s t : State} (h : keepsBut W s t) (hp : W.contains .relay = false) : t.relay = s.relay :=
  h.2 .relay (by simpa using hp)

theorem keepsBut.almanac_eq {W : List Part} {s t : State} (h : keepsBut W s t) (hp : W.contains .almanac = false) : t.almanac = s.almanac :=
  h.2 .almanac (by simpa using hp)

theorem keepsBut.ledger_eq {W : List Part} {s t : State} (h : keepsBut W s t) (hp : W.contains .ledger = false) : t.ledger = s.ledger :=
  h.2 .ledger (by simpa using hp)

theorem keepsBut.ai_eq {W : List Part} {s t : State} (h : keepsBut W s t) (hp : W.contains .ai = false) : t.ai = s.ai :=
  h.2 .ai (by simpa using hp)

theorem keepsBut.ports_eq {W : List Part} {s t : State} (h : keepsBut W s t) (hp : W.contains .ports = false) : t.ports = s.ports :=
  h.2 .ports (by simpa using hp)

theorem keepsBut.mode_eq {W : List Part} {s t : State} (h : keepsBut W s t) (hp : W.contains .mode = false) : t.mode = s.mode :=
  h.2 .mode (by simpa using hp)

theorem keepsBut.fuse_eq {W : List Part} {s t : State} (h : keepsBut W s t) (hp : W.contains .fuse = false) : t.fuse = s.fuse :=
  h.2 .fuse (by simpa using hp)

theorem keepsBut.safe_eq {W : List Part} {s t : State} (h : keepsBut W s t) (hp : W.contains .safe = false) : t.safe = s.safe :=
  h.2 .safe (by simpa using hp)

theorem keepsBut.watch_eq {W : List Part} {s t : State} (h : keepsBut W s t) (hp : W.contains .watch = false) : t.watch = s.watch :=
  h.2 .watch (by simpa using hp)

theorem keepsBut.ration_eq {W : List Part} {s t : State} (h : keepsBut W s t) (hp : W.contains .ration = false) : t.ration = s.ration :=
  h.2 .ration (by simpa using hp)

theorem keepsBut.pins_eq {W : List Part} {s t : State} (h : keepsBut W s t) (hp : W.contains .pins = false) : t.pins = s.pins :=
  h.2 .pins (by simpa using hp)

theorem keepsBut.cycle_eq {W : List Part} {s t : State} (h : keepsBut W s t) (hp : W.contains .cycle = false) : t.cycle = s.cycle :=
  h.2 .cycle (by simpa using hp)

theorem keepsBut.free_eq {W : List Part} {s t : State} (h : keepsBut W s t) (hp : W.contains .free = false) : t.free = s.free :=
  h.2 .free (by simpa using hp)

/-- Each state that an answer carries has kept all but `W`. -/
def WayRes.keeps (W : List Part) (s : State) : WayRes → Prop
  | .way _ t => keepsBut W s t
  | .waits _ => True
  | .none => True

/-- Each state that an answer carries has kept all but `W`. -/
def Use.keeps (W : List Part) (s : State) : Use → Prop
  | .got _ t => keepsBut W s t
  | .waits _ => True
  | .fails _ t => keepsBut W s t

/-- Each state that an answer carries has kept all but `W`. -/
def RecRes.keeps (W : List Part) (s : State) : RecRes → Prop
  | .here _ t => keepsBut W s t
  | .miss => True
  | .conflict t => keepsBut W s t

/-- Each state that an answer carries has kept all but `W`. -/
def DrawRes.keeps (W : List Part) (s : State) : DrawRes → Prop
  | .denied t => keepsBut W s t
  | .waits t => keepsBut W s t
  | .got _ t => keepsBut W s t

theorem keepsBut.sub {V W : List Part} {s t : State} (k : keepsBut V s t) (hv : (V.all fun p => W.contains p) = true) : keepsBut W s t :=
  k.mono (by simpa using hv)

theorem Use.keeps.bind {W : List Part} {s : State} {u : Use} {f : List Byte → State → Use} (h : u.keeps W s)
    (k : ∀ a t, keepsBut W s t → (f a t).keeps W s) : (bindUse u f).keeps W s := by
  cases u with
  | got a t => exact k a t h
  | waits b => trivial
  | fails st t => exact h

theorem keeps_modUnit (s : State) (k : Nat) (f : UnitRec → UnitRec) :
    keepsBut [.units] s (modUnit s k f) := by
  exact ⟨rfl, fun p hp => by cases p <;> first | rfl | exact absurd (by decide) hp⟩

theorem keeps_modRing (s : State) (k : Nat) (f : RingRec → RingRec) :
    keepsBut [.rings] s (modRing s k f) := by
  exact ⟨rfl, fun p hp => by cases p <;> first | rfl | exact absurd (by decide) hp⟩

theorem keeps_modJob (s : State) (k : Nat) (f : Job → Job) :
    keepsBut [.jobs] s (modJob s k f) := by
  exact ⟨rfl, fun p hp => by cases p <;> first | rfl | exact absurd (by decide) hp⟩

theorem keeps_modLane (s : State) (k : Nat) (f : LaneRec → LaneRec) :
    keepsBut [.lanes] s (modLane s k f) := by
  exact ⟨rfl, fun p hp => by cases p <;> first | rfl | exact absurd (by decide) hp⟩

theorem keeps_modSlot (s : State) (k : Nat) (f : SlotRec → SlotRec) :
    keepsBut [.serai] s (modSlot s k f) := by
  exact ⟨rfl, fun p hp => by cases p <;> first | rfl | exact absurd (by decide) hp⟩

theorem keeps_modFill (s : State) (k : Nat) (f : FillRec → FillRec) :
    keepsBut [.mint] s (modFill s k f) := by
  exact ⟨rfl, fun p hp => by cases p <;> first | rfl | exact absurd (by decide) hp⟩

theorem keeps_modBench (s : State) (k : Nat) (f : BenchRec → BenchRec) :
    keepsBut [.house] s (modBench s k f) := by
  exact ⟨rfl, fun p hp => by cases p <;> first | rfl | exact absurd (by decide) hp⟩

theorem keeps_modCtx (s : State) (k : Nat) (f : CtxRec → CtxRec) :
    keepsBut [.scales] s (modCtx s k f) := by
  exact ⟨rfl, fun p hp => by cases p <;> first | rfl | exact absurd (by decide) hp⟩

theorem keeps_modTg (s : State) (k : Nat) (f : TgCtx → TgCtx) :
    keepsBut [.tollgate] s (modTg s k f) := by
  exact ⟨rfl, fun p hp => by cases p <;> first | rfl | exact absurd (by decide) hp⟩

theorem keeps_modChan (s : State) (k : Nat) (f : PtChan → PtChan) :
    keepsBut [.porter] s (modChan s k f) := by
  exact ⟨rfl, fun p hp => by cases p <;> first | rfl | exact absurd (by decide) hp⟩

theorem keeps_modSink (s : State) (k : Nat) (f : SinkRec → SinkRec) :
    keepsBut [.relay] s (modSink s k f) := by
  exact ⟨rfl, fun p hp => by cases p <;> first | rfl | exact absurd (by decide) hp⟩

theorem keeps_modTimer (s : State) (k : Nat) (f : TimerRec → TimerRec) :
    keepsBut [.relay] s (modTimer s k f) := by
  exact ⟨rfl, fun p hp => by cases p <;> first | rfl | exact absurd (by decide) hp⟩

theorem keeps_modAlarm (s : State) (k : Nat) (f : AlarmRec → AlarmRec) :
    keepsBut [.almanac] s (modAlarm s k f) := by
  exact ⟨rfl, fun p hp => by cases p <;> first | rfl | exact absurd (by decide) hp⟩

theorem keeps_modPort (s : State) (k : Nat) (f : PortRec → PortRec) :
    keepsBut [.ai] s (modPort s k f) := by
  exact ⟨rfl, fun p hp => by cases p <;> first | rfl | exact absurd (by decide) hp⟩

theorem keeps_modDom (s : State) (k : Nat) (f : DomRec → DomRec) :
    keepsBut [.ration] s (modDom s k f) := by
  exact ⟨rfl, fun p hp => by cases p <;> first | rfl | exact absurd (by decide) hp⟩

theorem keeps_modRoute (s : State) (k : Nat) (f : RouteRec → RouteRec) :
    keepsBut [.routes] s (modRoute s k f) := by
  exact ⟨rfl, fun p hp => by cases p <;> first | rfl | exact absurd (by decide) hp⟩

theorem keeps_upMuster (s : State) (f : MusterRec → MusterRec) :
    keepsBut [.muster] s (upMuster s f) := by
  exact ⟨rfl, fun p hp => by cases p <;> first | rfl | exact absurd (by decide) hp⟩

theorem keeps_upSerai (s : State) (f : SeraiRec → SeraiRec) :
    keepsBut [.serai] s (upSerai s f) := by
  exact ⟨rfl, fun p hp => by cases p <;> first | rfl | exact absurd (by decide) hp⟩

theorem keeps_upMint (s : State) (f : MintRec → MintRec) :
    keepsBut [.mint] s (upMint s f) := by
  exact ⟨rfl, fun p hp => by cases p <;> first | rfl | exact absurd (by decide) hp⟩

theorem keeps_upHouse (s : State) (f : HouseRec → HouseRec) :
    keepsBut [.house] s (upHouse s f) := by
  exact ⟨rfl, fun p hp => by cases p <;> first | rfl | exact absurd (by decide) hp⟩

theorem keeps_upScales (s : State) (f : ScalesRec → ScalesRec) :
    keepsBut [.scales] s (upScales s f) := by
  exact ⟨rfl, fun p hp => by cases p <;> first | rfl | exact absurd (by decide) hp⟩

theorem keeps_upWell (s : State) (f : WellRec → WellRec) :
    keepsBut [.well] s (upWell s f) := by
  exact ⟨rfl, fun p hp => by cases p <;> first | rfl | exact absurd (by decide) hp⟩

theorem keeps_upTollgate (s : State) (f : TollgateRec → TollgateRec) :
    keepsBut [.tollgate] s (upTollgate s f) := by
  exact ⟨rfl, fun p hp => by cases p <;> first | rfl | exact absurd (by decide) hp⟩

theorem keeps_upPorter (s : State) (f : PorterRec → PorterRec) :
    keepsBut [.porter] s (upPorter s f) := by
  exact ⟨rfl, fun p hp => by cases p <;> first | rfl | exact absurd (by decide) hp⟩

theorem keeps_upRelay (s : State) (f : RelayRec → RelayRec) :
    keepsBut [.relay] s (upRelay s f) := by
  exact ⟨rfl, fun p hp => by cases p <;> first | rfl | exact absurd (by decide) hp⟩

theorem keeps_upAlmanac (s : State) (f : AlmanacRec → AlmanacRec) :
    keepsBut [.almanac] s (upAlmanac s f) := by
  exact ⟨rfl, fun p hp => by cases p <;> first | rfl | exact absurd (by decide) hp⟩

theorem keeps_upLedger (s : State) (f : LedgerState → LedgerState) :
    keepsBut [.ledger] s (upLedger s f) := by
  exact ⟨rfl, fun p hp => by cases p <;> first | rfl | exact absurd (by decide) hp⟩

theorem keeps_upAi (s : State) (f : AdapterRec → AdapterRec) :
    keepsBut [.ai] s (upAi s f) := by
  exact ⟨rfl, fun p hp => by cases p <;> first | rfl | exact absurd (by decide) hp⟩

theorem keeps_upPorts (s : State) (f : PortsRec → PortsRec) :
    keepsBut [.ports] s (upPorts s f) := by
  exact ⟨rfl, fun p hp => by cases p <;> first | rfl | exact absurd (by decide) hp⟩

theorem keeps_upMode (s : State) (f : ModeRec → ModeRec) :
    keepsBut [.mode] s (upMode s f) := by
  exact ⟨rfl, fun p hp => by cases p <;> first | rfl | exact absurd (by decide) hp⟩

theorem keeps_upFuse (s : State) (f : FuseRec → FuseRec) :
    keepsBut [.fuse] s (upFuse s f) := by
  exact ⟨rfl, fun p hp => by cases p <;> first | rfl | exact absurd (by decide) hp⟩

theorem keeps_upSafe (s : State) (f : SafeRec → SafeRec) :
    keepsBut [.safe] s (upSafe s f) := by
  exact ⟨rfl, fun p hp => by cases p <;> first | rfl | exact absurd (by decide) hp⟩

theorem keeps_upWatch (s : State) (f : WatchRec → WatchRec) :
    keepsBut [.watch] s (upWatch s f) := by
  exact ⟨rfl, fun p hp => by cases p <;> first | rfl | exact absurd (by decide) hp⟩

theorem keeps_upRation (s : State) (f : RationRec → RationRec) :
    keepsBut [.ration] s (upRation s f) := by
  exact ⟨rfl, fun p hp => by cases p <;> first | rfl | exact absurd (by decide) hp⟩

theorem keeps_upRoutes (s : State) (f : RouteStore → RouteStore) :
    keepsBut [.routes] s (upRoutes s f) := by
  exact ⟨rfl, fun p hp => by cases p <;> first | rfl | exact absurd (by decide) hp⟩

theorem keeps_upPins (s : State) (f : Pins → Pins) :
    keepsBut [.pins] s (upPins s f) := by
  exact ⟨rfl, fun p hp => by cases p <;> first | rfl | exact absurd (by decide) hp⟩

theorem keeps_drewFree (s : State) (n : Nat) :
    keepsBut [.free] s (drewFree s n) := by
  exact ⟨rfl, fun p hp => by cases p <;> first | rfl | exact absurd (by decide) hp⟩

theorem keeps_emitFor (s : State) (unit producer type : Nat) (code : W16) (body : List W32) :
    keepsBut [.ledger] s (emitFor s unit producer type code body) := by
  unfold emitFor
  repeat' first
    | with_reducible apply keepsBut.refl
    | with_reducible assumption
    | (show (_ : Bool) = true; decide)
    | with_reducible apply keepsBut.step (keeps_upLedger _ _)
    | with_reducible apply keepsBut.ite
    | (intro _)
    | extract_lets
    | split
    | dsimp +zetaDelta only

theorem keeps_emit (s : State) (producer type : Nat) (code : W16) (body : List W32) :
    keepsBut [.ledger] s (emit s producer type code body) := by
  unfold emit
  repeat' first
    | with_reducible apply keepsBut.refl
    | with_reducible assumption
    | (show (_ : Bool) = true; decide)
    | with_reducible apply keepsBut.step (keeps_emitFor _ _ _ _ _ _)
    | with_reducible apply keepsBut.ite
    | (intro _)
    | extract_lets
    | split
    | dsimp +zetaDelta only

theorem keeps_raise (s : State) (src : Nat) :
    keepsBut [.relay] s (raise s src) := by
  unfold raise
  repeat' first
    | with_reducible apply keepsBut.refl
    | with_reducible assumption
    | (show (_ : Bool) = true; decide)
    | with_reducible apply keepsBut.step (keeps_upRelay _ _)
    | with_reducible apply keepsBut.ite
    | (intro _)
    | extract_lets
    | split
    | dsimp +zetaDelta only

theorem keeps_irq (s : State) (v : Nat) :
    keepsBut [.ai] s (irq s v) := by
  unfold irq
  repeat' first
    | with_reducible apply keepsBut.refl
    | with_reducible assumption
    | (show (_ : Bool) = true; decide)
    | with_reducible apply keepsBut.step (keeps_upAi _ _)
    | with_reducible apply keepsBut.ite
    | (intro _)
    | extract_lets
    | split
    | dsimp +zetaDelta only

theorem keeps_irqBlock (s : State) (b : Nat) :
    keepsBut [.ai] s (irqBlock s b) := by
  unfold irqBlock
  repeat' first
    | with_reducible apply keepsBut.refl
    | with_reducible assumption
    | (show (_ : Bool) = true; decide)
    | with_reducible apply keepsBut.step (keeps_irq _ _)
    | with_reducible apply keepsBut.ite
    | (intro _)
    | extract_lets
    | split
    | dsimp +zetaDelta only

theorem keeps_fordFlush (s : State) (row side : Nat) (items credits : W32) :
    keepsBut [.ledger, .ai] s (fordFlush s row side items credits) := by
  unfold fordFlush
  repeat' first
    | with_reducible apply keepsBut.refl
    | with_reducible assumption
    | (show (_ : Bool) = true; decide)
    | with_reducible apply keepsBut.step (keeps_emit _ _ _ _ _)
    | with_reducible apply keepsBut.step (keeps_upAi _ _)
    | with_reducible apply keepsBut.ite
    | (intro _)
    | extract_lets
    | split
    | dsimp +zetaDelta only

theorem keeps_flushFord (s : State) (row side : Nat) :
    keepsBut [.ledger, .ai, .free] s (flushFord s row side) := by
  unfold flushFord
  repeat' first
    | with_reducible apply keepsBut.refl
    | with_reducible assumption
    | (show (_ : Bool) = true; decide)
    | with_reducible apply keepsBut.step (keeps_fordFlush _ _ _ _ _)
    | with_reducible apply keepsBut.step (keeps_drewFree _ _)
    | with_reducible apply keepsBut.ite
    | (intro _)
    | extract_lets
    | split
    | dsimp +zetaDelta only

theorem keeps_proposeLtr (s : State) (v : W16) :
    keepsBut [.ai] s (proposeLtr s v) := by
  unfold proposeLtr
  repeat' first
    | with_reducible apply keepsBut.refl
    | with_reducible assumption
    | (show (_ : Bool) = true; decide)
    | with_reducible apply keepsBut.step (keeps_upAi _ _)
    | with_reducible apply keepsBut.ite
    | (intro _)
    | extract_lets
    | split
    | dsimp +zetaDelta only

theorem keeps_drawNoise (s : State) (n : Nat) :
    keepsBut [.free] s (drawNoise s n).2 := by
  unfold drawNoise
  repeat' first
    | with_reducible apply keepsBut.refl
    | with_reducible assumption
    | (show (_ : Bool) = true; decide)
    | with_reducible apply keepsBut.step (keeps_drewFree _ _)
    | with_reducible apply keepsBut.each
    | with_reducible apply keepsBut.fold
    | with_reducible apply keepsBut.when
    | with_reducible apply keepsBut.ite
    | (intro _)
    | extract_lets
    | split
    | dsimp only
    | dsimp +zetaDelta only

theorem step_drawNoise {W : List Part} {s0 : State} {s : State} {n : Nat} {a : List Byte} {sn : State}
    (hEq : drawNoise s n = (a, sn)) (hv : (List.all [.free] fun p => W.contains p) = true) (h : keepsBut W s0 s) :
    keepsBut W s0 sn :=
  keepsBut.step (by have k := keeps_drawNoise s n; rw [hEq] at k; exact k) hv h

theorem keeps_wellDeny (s : State) :
    keepsBut [.well] s (wellDeny s) := by
  unfold wellDeny
  repeat' first
    | with_reducible apply keepsBut.refl
    | with_reducible assumption
    | (show (_ : Bool) = true; decide)
    | with_reducible apply keepsBut.step (keeps_upWell _ _)
    | with_reducible apply keepsBut.ite
    | (intro _)
    | extract_lets
    | split
    | dsimp +zetaDelta only

theorem keeps_wellTake (s : State) (n : Nat) :
    keepsBut [.well] s (wellTake s n).2 := by
  unfold wellTake
  repeat' first
    | with_reducible apply keepsBut.refl
    | with_reducible assumption
    | (show (_ : Bool) = true; decide)
    | with_reducible apply keepsBut.step (keeps_upWell _ _)
    | with_reducible apply keepsBut.each
    | with_reducible apply keepsBut.fold
    | with_reducible apply keepsBut.when
    | with_reducible apply keepsBut.ite
    | (intro _)
    | extract_lets
    | split
    | dsimp only
    | dsimp +zetaDelta only

theorem step_wellTake {W : List Part} {s0 : State} {s : State} {n : Nat} {a : List Byte} {sn : State}
    (hEq : wellTake s n = (a, sn)) (hv : (List.all [.well] fun p => W.contains p) = true) (h : keepsBut W s0 s) :
    keepsBut W s0 sn :=
  keepsBut.step (by have k := keeps_wellTake s n; rw [hEq] at k; exact k) hv h

theorem keeps_askDraw (s : State) (cls : Nat) (who : Drawer) (n : Nat) :
    keepsBut [.well] s (askDraw s cls who n) := by
  unfold askDraw
  repeat' first
    | with_reducible apply keepsBut.refl
    | with_reducible assumption
    | (show (_ : Bool) = true; decide)
    | with_reducible apply keepsBut.step (keeps_upWell _ _)
    | with_reducible apply keepsBut.ite
    | (intro _)
    | extract_lets
    | split
    | dsimp +zetaDelta only

theorem keeps_dropDraws (s : State) (p : Drawer → Bool) :
    keepsBut [.well] s (dropDraws s p) := by
  unfold dropDraws
  repeat' first
    | with_reducible apply keepsBut.refl
    | with_reducible assumption
    | (show (_ : Bool) = true; decide)
    | with_reducible apply keepsBut.step (keeps_upWell _ _)
    | with_reducible apply keepsBut.ite
    | (intro _)
    | extract_lets
    | split
    | dsimp +zetaDelta only

theorem keeps_sinkOffer (s : State) (k n : Nat) :
    keepsBut [.relay] s (sinkOffer s k n) := by
  unfold sinkOffer
  repeat' first
    | with_reducible apply keepsBut.refl
    | with_reducible assumption
    | (show (_ : Bool) = true; decide)
    | with_reducible apply keepsBut.step (keeps_modSink _ _ _)
    | with_reducible apply keepsBut.ite
    | (intro _)
    | extract_lets
    | split
    | dsimp +zetaDelta only

theorem keeps_sinkAdd (s : State) (k n : Nat) :
    keepsBut [.relay, .ledger, .ai] s (sinkAdd s k n) := by
  unfold sinkAdd
  repeat' first
    | with_reducible apply keepsBut.refl
    | with_reducible assumption
    | (show (_ : Bool) = true; decide)
    | with_reducible apply keepsBut.step (keeps_upRelay _ _)
    | with_reducible apply keepsBut.step (keeps_modSink _ _ _)
    | with_reducible apply keepsBut.step (keeps_emit _ _ _ _ _)
    | with_reducible apply keepsBut.step (keeps_irqBlock _ _)
    | with_reducible apply keepsBut.when
    | with_reducible apply keepsBut.ite
    | (intro _)
    | extract_lets
    | split
    | dsimp +zetaDelta only

theorem keeps_sinkWriteOff (s : State) (k cause : Nat) :
    keepsBut [.relay, .ledger] s (sinkWriteOff s k cause) := by
  unfold sinkWriteOff
  repeat' first
    | with_reducible apply keepsBut.refl
    | with_reducible assumption
    | (show (_ : Bool) = true; decide)
    | with_reducible apply keepsBut.step (keeps_modSink _ _ _)
    | with_reducible apply keepsBut.step (keeps_upRelay _ _)
    | with_reducible apply keepsBut.step (keeps_emit _ _ _ _ _)
    | with_reducible apply keepsBut.ite
    | (intro _)
    | extract_lets
    | split
    | dsimp +zetaDelta only

theorem keeps_sinkClear (s : State) (k : Nat) :
    keepsBut [.relay, .ledger] s (sinkClear s k) := by
  unfold sinkClear
  repeat' first
    | with_reducible apply keepsBut.refl
    | with_reducible assumption
    | (show (_ : Bool) = true; decide)
    | with_reducible apply keepsBut.step (keeps_modSink _ _ _)
    | with_reducible apply keepsBut.step (keeps_sinkWriteOff _ _ _)
    | with_reducible apply keepsBut.ite
    | (intro _)
    | extract_lets
    | split
    | dsimp +zetaDelta only

theorem keeps_sinksLand (s : State) :
    keepsBut [.relay, .ledger, .ai] s (sinksLand s) := by
  unfold sinksLand
  repeat' first
    | with_reducible apply keepsBut.refl
    | with_reducible assumption
    | (show (_ : Bool) = true; decide)
    | with_reducible apply keepsBut.step (keeps_sinkAdd _ _ _)
    | with_reducible apply keepsBut.step (keeps_modSink _ _ _)
    | with_reducible apply keepsBut.step (keeps_sinkClear _ _)
    | with_reducible apply keepsBut.each
    | with_reducible apply keepsBut.ite
    | (intro _)
    | extract_lets
    | split
    | dsimp +zetaDelta only

theorem keeps_unitEnding (s : State) (u : Nat) (st : Status) :
    keepsBut [.units] s (unitEnding s u st) := by
  unfold unitEnding
  repeat' first
    | with_reducible apply keepsBut.refl
    | with_reducible assumption
    | (show (_ : Bool) = true; decide)
    | with_reducible apply keepsBut.step (keeps_modUnit _ _ _)
    | with_reducible apply keepsBut.each
    | with_reducible apply keepsBut.ite
    | (intro _)
    | extract_lets
    | split
    | dsimp +zetaDelta only

theorem keeps_regLog (s : State) (p : CtlPort) (kind off : Nat) (code : W16) (wide : Bool) (data : W64) :
    keepsBut [.ledger] s (regLog s p kind off code wide data) := by
  unfold regLog
  repeat' first
    | with_reducible apply keepsBut.refl
    | with_reducible assumption
    | (show (_ : Bool) = true; decide)
    | with_reducible apply keepsBut.step (keeps_emit _ _ _ _ _)
    | with_reducible apply keepsBut.ite
    | (intro _)
    | extract_lets
    | split
    | dsimp +zetaDelta only

theorem keeps_regAccess (s : State) (p : CtlPort) (kind off : Nat) (wide : Bool) (data : W64) :
    keepsBut [.ledger] s (regAccess s p kind off wide data) := by
  unfold regAccess
  repeat' first
    | with_reducible apply keepsBut.refl
    | with_reducible assumption
    | (show (_ : Bool) = true; decide)
    | with_reducible apply keepsBut.step (keeps_regLog _ _ _ _ _ _ _)
    | with_reducible apply keepsBut.ite
    | (intro _)
    | extract_lets
    | split
    | dsimp +zetaDelta only

theorem keeps_refuseCmd (s : State) (p : CtlPort) (off : Nat) (st : Status) (data : Nat) :
    keepsBut [.ledger] s (refuseCmd s p off st data) := by
  unfold refuseCmd
  repeat' first
    | with_reducible apply keepsBut.refl
    | with_reducible assumption
    | (show (_ : Bool) = true; decide)
    | with_reducible apply keepsBut.step (keeps_regLog _ _ _ _ _ _ _)
    | with_reducible apply keepsBut.ite
    | (intro _)
    | extract_lets
    | split
    | dsimp +zetaDelta only

theorem keeps_answer (s : State) (p : CtlPort) (r : PortRsp) :
    keepsBut [.ports] s (answer s p r) := by
  unfold answer
  repeat' first
    | with_reducible apply keepsBut.refl
    | with_reducible assumption
    | (show (_ : Bool) = true; decide)
    | with_reducible apply keepsBut.step (keeps_upPorts _ _)
    | with_reducible apply keepsBut.ite
    | (intro _)
    | extract_lets
    | split
    | dsimp +zetaDelta only

theorem keeps_respond (s : State) (p : CtlPort) (err : Bool) :
    keepsBut [.ports] s (respond s p err) := by
  unfold respond
  repeat' first
    | with_reducible apply keepsBut.refl
    | with_reducible assumption
    | (show (_ : Bool) = true; decide)
    | with_reducible apply keepsBut.step (keeps_answer _ _ _)
    | with_reducible apply keepsBut.ite
    | (intro _)
    | extract_lets
    | split
    | dsimp +zetaDelta only

theorem keeps_noteSide (s : State) (p : CtlPort) (off n : Nat) :
    keepsBut [.ports] s (noteSide s p off n) := by
  unfold noteSide
  repeat' first
    | with_reducible apply keepsBut.refl
    | with_reducible assumption
    | (show (_ : Bool) = true; decide)
    | with_reducible apply keepsBut.step (keeps_upPorts _ _)
    | with_reducible apply keepsBut.ite
    | (intro _)
    | extract_lets
    | split
    | dsimp +zetaDelta only

theorem keeps_noteLatency (s : State) (id : Nat) :
    keepsBut [.ai] s (noteLatency s id) := by
  unfold noteLatency
  repeat' first
    | with_reducible apply keepsBut.refl
    | with_reducible assumption
    | (show (_ : Bool) = true; decide)
    | with_reducible apply keepsBut.step (keeps_upAi _ _)
    | with_reducible apply keepsBut.fold
    | with_reducible apply keepsBut.ite
    | (intro _)
    | extract_lets
    | split
    | dsimp +zetaDelta only

theorem keeps_pumpPort (fuel : Nat) (s : State) (k : Nat) :
    keepsBut [.ai, .ration] s (pumpPort fuel s k) := by
  induction fuel generalizing s with
  | zero => exact keepsBut.refl _ _
  | succ fuel ih =>
    unfold pumpPort
    repeat' first
      | with_reducible apply keepsBut.refl
      | with_reducible assumption
      | (show (_ : Bool) = true; decide)
      | with_reducible apply keepsBut.step (ih _)
      | with_reducible apply keepsBut.step (keeps_modPort _ _ _)
      | with_reducible apply keepsBut.step (keeps_upRation _ _)
      | with_reducible apply keepsBut.step (keeps_noteLatency _ _)
      | with_reducible apply keepsBut.each
      | with_reducible apply keepsBut.fold
      | with_reducible apply keepsBut.when
      | with_reducible apply keepsBut.ite
      | (intro _)
      | extract_lets
      | split
      | dsimp only
      | dsimp +zetaDelta only

theorem keeps_pump (s : State) :
    keepsBut [.ai, .ration] s (pump s) := by
  unfold pump
  repeat' first
    | with_reducible apply keepsBut.refl
    | with_reducible assumption
    | (show (_ : Bool) = true; decide)
    | with_reducible apply keepsBut.step (keeps_pumpPort _ _ _)
    | with_reducible apply keepsBut.each
    | with_reducible apply keepsBut.ite
    | (intro _)
    | extract_lets
    | split
    | dsimp +zetaDelta only

theorem keeps_queueReq (s : State) (r : Req) :
    keepsBut [.ai] s (queueReq s r) := by
  unfold queueReq
  repeat' first
    | with_reducible apply keepsBut.refl
    | with_reducible assumption
    | (show (_ : Bool) = true; decide)
    | with_reducible apply keepsBut.step (keeps_modPort _ _ _)
    | with_reducible apply keepsBut.ite
    | (intro _)
    | extract_lets
    | split
    | dsimp +zetaDelta only

theorem keeps_atsAsk (s : State) (r : Req) :
    keepsBut [.ai] s (atsAsk s r) := by
  unfold atsAsk
  repeat' first
    | with_reducible apply keepsBut.refl
    | with_reducible assumption
    | (show (_ : Bool) = true; decide)
    | with_reducible apply keepsBut.step (keeps_upAi _ _)
    | with_reducible apply keepsBut.ite
    | (intro _)
    | extract_lets
    | split
    | dsimp +zetaDelta only

theorem keeps_translate (s : State) (r : Req) :
    keepsBut [.ai] s (translate s r) := by
  unfold translate
  repeat' first
    | with_reducible apply keepsBut.refl
    | with_reducible assumption
    | (show (_ : Bool) = true; decide)
    | with_reducible apply keepsBut.step (keeps_queueReq _ _)
    | with_reducible apply keepsBut.step (keeps_upAi _ _)
    | with_reducible apply keepsBut.step (keeps_atsAsk _ _)
    | with_reducible apply keepsBut.ite
    | (intro _)
    | extract_lets
    | split
    | dsimp +zetaDelta only

theorem keeps_routeReq (s : State) (r : Req) :
    keepsBut [.ai] s (routeReq s r) := by
  unfold routeReq
  repeat' first
    | with_reducible apply keepsBut.refl
    | with_reducible assumption
    | (show (_ : Bool) = true; decide)
    | with_reducible apply keepsBut.step (keeps_queueReq _ _)
    | with_reducible apply keepsBut.step (keeps_translate _ _)
    | with_reducible apply keepsBut.ite
    | (intro _)
    | extract_lets
    | split
    | dsimp +zetaDelta only

theorem keeps_issueAccess (s : State) (who : Requester) (a : FabAttr) (addr : W64) (len : Nat) (data : Option (List Byte)) :
    keepsBut [.ai, .ration] s (issueAccess s who a addr len data) := by
  unfold issueAccess
  repeat' first
    | with_reducible apply keepsBut.refl
    | with_reducible assumption
    | (show (_ : Bool) = true; decide)
    | with_reducible apply keepsBut.step (keeps_upAi _ _)
    | with_reducible apply keepsBut.step (keeps_pump _)
    | with_reducible apply keepsBut.step (keeps_routeReq _ _)
    | with_reducible apply keepsBut.fold
    | with_reducible apply keepsBut.ite
    | (intro _)
    | extract_lets
    | split
    | dsimp +zetaDelta only

theorem keeps_partEnd (s : State) (id : Nat) (fail : Option (Nat × Status)) (cause : Nat) :
    keepsBut [.ai] s (partEnd s id fail cause).1 := by
  unfold partEnd
  repeat' first
    | with_reducible apply keepsBut.refl
    | with_reducible assumption
    | (show (_ : Bool) = true; decide)
    | with_reducible apply keepsBut.step (keeps_upAi _ _)
    | with_reducible apply keepsBut.each
    | with_reducible apply keepsBut.fold
    | with_reducible apply keepsBut.when
    | with_reducible apply keepsBut.ite
    | (intro _)
    | extract_lets
    | split
    | dsimp only
    | dsimp +zetaDelta only

theorem step_partEnd {W : List Part} {s0 : State} {s : State} {id : Nat} {fail : Option (Nat × Status)} {cause : Nat} {a : Option Access} {sn : State}
    (hEq : partEnd s id fail cause = (sn, a)) (hv : (List.all [.ai] fun p => W.contains p) = true) (h : keepsBut W s0 s) :
    keepsBut W s0 sn :=
  keepsBut.step (by have k := keeps_partEnd s id fail cause; rw [hEq] at k; exact k) hv h

theorem keeps_partData (s : State) (id : Nat) (addr : Nat) (bytes : List Byte) :
    keepsBut [.ai] s (partData s id addr bytes) := by
  unfold partData
  repeat' first
    | with_reducible apply keepsBut.refl
    | with_reducible assumption
    | (show (_ : Bool) = true; decide)
    | with_reducible apply keepsBut.step (keeps_upAi _ _)
    | with_reducible apply keepsBut.ite
    | (intro _)
    | extract_lets
    | split
    | dsimp +zetaDelta only

theorem keeps_withdraw (s : State) (p : Access → Bool) :
    keepsBut [.ai] s (withdraw s p) := by
  unfold withdraw
  repeat' first
    | with_reducible apply keepsBut.refl
    | with_reducible assumption
    | (show (_ : Bool) = true; decide)
    | with_reducible apply keepsBut.step (keeps_modPort _ _ _)
    | with_reducible apply keepsBut.step (keeps_upAi _ _)
    | (with_reducible refine step_partEnd (by assumption) ?_ ?_)
    | with_reducible apply keepsBut.step (keeps_partEnd _ _ _ _)
    | with_reducible apply keepsBut.each
    | with_reducible apply keepsBut.fold
    | with_reducible apply keepsBut.ite
    | (intro _)
    | extract_lets
    | split
    | dsimp +zetaDelta only

theorem keeps_atcCommandEnd (s : State) :
    keepsBut [.ai] s (atcCommandEnd s) := by
  unfold atcCommandEnd
  repeat' first
    | with_reducible apply keepsBut.refl
    | with_reducible assumption
    | (show (_ : Bool) = true; decide)
    | with_reducible apply keepsBut.step (keeps_upAi _ _)
    | with_reducible apply keepsBut.ite
    | (intro _)
    | extract_lets
    | split
    | dsimp +zetaDelta only

theorem keeps_endUse (s : State) (port tag : Nat) :
    keepsBut [.ai] s (endUse s port tag) := by
  unfold endUse
  repeat' first
    | with_reducible apply keepsBut.refl
    | with_reducible assumption
    | (show (_ : Bool) = true; decide)
    | with_reducible apply keepsBut.step (keeps_atcCommandEnd _)
    | with_reducible apply keepsBut.step (keeps_upAi _ _)
    | with_reducible apply keepsBut.ite
    | (intro _)
    | extract_lets
    | split
    | dsimp +zetaDelta only

theorem keeps_freeSlot (s : State) (slot : Nat) :
    keepsBut [.serai] s (freeSlot s slot) := by
  unfold freeSlot
  repeat' first
    | with_reducible apply keepsBut.refl
    | with_reducible assumption
    | (show (_ : Bool) = true; decide)
    | with_reducible apply keepsBut.step (keeps_modSlot _ _ _)
    | with_reducible apply keepsBut.ite
    | (intro _)
    | extract_lets
    | split
    | dsimp +zetaDelta only

theorem keeps_flushSlot (s : State) (slot : Nat) :
    keepsBut [.serai] s (flushSlot s slot) := by
  unfold flushSlot
  repeat' first
    | with_reducible apply keepsBut.refl
    | with_reducible assumption
    | (show (_ : Bool) = true; decide)
    | with_reducible apply keepsBut.step (keeps_freeSlot _ _)
    | with_reducible apply keepsBut.step (keeps_modSlot _ _ _)
    | with_reducible apply keepsBut.ite
    | (intro _)
    | extract_lets
    | split
    | dsimp +zetaDelta only

theorem keeps_flushWhere (s : State) (p : Nat → SlotRec → Bool) :
    keepsBut [.serai] s (flushWhere s p) := by
  unfold flushWhere
  repeat' first
    | with_reducible apply keepsBut.refl
    | with_reducible assumption
    | (show (_ : Bool) = true; decide)
    | with_reducible apply keepsBut.step (keeps_flushSlot _ _)
    | with_reducible apply keepsBut.each
    | with_reducible apply keepsBut.ite
    | (intro _)
    | extract_lets
    | split
    | dsimp +zetaDelta only

theorem keeps_takeLease (s : State) (slot : Nat) :
    keepsBut [.serai] s (takeLease s slot) := by
  unfold takeLease
  repeat' first
    | with_reducible apply keepsBut.refl
    | with_reducible assumption
    | (show (_ : Bool) = true; decide)
    | with_reducible apply keepsBut.step (keeps_upSerai _ _)
    | with_reducible apply keepsBut.step (keeps_modSlot _ _ _)
    | with_reducible apply keepsBut.ite
    | (intro _)
    | extract_lets
    | split
    | dsimp +zetaDelta only

theorem keeps_returnLease (s : State) (slot : Nat) :
    keepsBut [.serai] s (returnLease s slot) := by
  unfold returnLease
  repeat' first
    | with_reducible apply keepsBut.refl
    | with_reducible assumption
    | (show (_ : Bool) = true; decide)
    | with_reducible apply keepsBut.step (keeps_upSerai _ _)
    | with_reducible apply keepsBut.step (keeps_modSlot _ _ _)
    | with_reducible apply keepsBut.step (keeps_freeSlot _ _)
    | with_reducible apply keepsBut.ite
    | (intro _)
    | extract_lets
    | split
    | dsimp +zetaDelta only

theorem keeps_seraiWoff (s : State) (n cause : Nat) :
    keepsBut [.ledger] s (seraiWoff s n cause) := by
  unfold seraiWoff
  repeat' first
    | with_reducible apply keepsBut.refl
    | with_reducible assumption
    | (show (_ : Bool) = true; decide)
    | with_reducible apply keepsBut.step (keeps_emit _ _ _ _ _)
    | with_reducible apply keepsBut.ite
    | (intro _)
    | extract_lets
    | split
    | dsimp +zetaDelta only

theorem keeps_evictBits (s : State) {a : Nat} {sn : State} (hEq : evictBits s = some (a, sn)) :
    keepsBut [.serai, .well] s sn := by
  unfold evictBits at hEq
  repeat' split at hEq
  all_goals first
    | contradiction
    | obtain ⟨-, rfl⟩ := Prod.mk.inj (Option.some.inj hEq)
  · exact keepsBut.step (keeps_upSerai _ _) (by decide) (keepsBut.refl _ _)
  · exact keepsBut.step (keeps_wellDeny _) (by decide) (keepsBut.refl _ _)

theorem step_evictBits {W : List Part} {s0 : State} {s : State} {a : Nat} {sn : State}
    (hEq : evictBits s = some (a, sn)) (hv : (List.all [.serai, .well] fun p => W.contains p) = true) (h : keepsBut W s0 s) :
    keepsBut W s0 sn := keepsBut.step (keeps_evictBits s hEq) hv h

theorem keeps_fillWay (s : State) (set : Nat) :
    (fillWay s set).keeps [.serai, .well] s := by
  unfold fillWay
  extract_lets ev
  split
  · trivial
  · split
    · trivial
    · split
      · exact keepsBut.refl _ _
      · split
        · trivial
        · rename_i e
          refine keepsBut.step (keeps_upSerai _ _) (by decide) (keepsBut.step (keeps_freeSlot _ _) (by decide) ?_)
          exact step_evictBits e (by decide) (keepsBut.refl _ _)

theorem step_fillWay_way {W : List Part} {s0 : State} {s : State} {set : Nat} {k0 : Nat} {sn : State} (hEq : fillWay s set = .way k0 sn)
    (hv : (List.all [.serai, .well] fun p => W.contains p) = true) (h : keepsBut W s0 s) : keepsBut W s0 sn :=
  keepsBut.step (by have k := keeps_fillWay s set; rw [hEq] at k; exact k) hv h

theorem keeps_privateWay (s : State) :
    (privateWay s).keeps [.serai, .well] s := by
  unfold privateWay
  split
  · trivial
  · split
    · rename_i e
      exact keepsBut.step (keeps_upSerai _ _) (by decide) (step_fillWay_way e (by decide) (keepsBut.refl _ _))
    · rename_i w hw
      cases hx : fillWay s _ with
      | way k t => exact absurd hx (hw k t)
      | waits b => trivial
      | none => trivial

theorem step_privateWay_way {W : List Part} {s0 : State} {s : State} {k0 : Nat} {sn : State} (hEq : privateWay s = .way k0 sn)
    (hv : (List.all [.serai, .well] fun p => W.contains p) = true) (h : keepsBut W s0 s) : keepsBut W s0 sn :=
  keepsBut.step (by have k := keeps_privateWay s; rw [hEq] at k; exact k) hv h

theorem keeps_askBits (s : State) :
    keepsBut [.well] s (askBits s) := by
  unfold askBits
  repeat' first
    | with_reducible apply keepsBut.refl
    | with_reducible assumption
    | (show (_ : Bool) = true; decide)
    | with_reducible apply keepsBut.step (keeps_askDraw _ _ _ _)
    | with_reducible apply keepsBut.ite
    | (intro _)
    | extract_lets
    | split
    | dsimp +zetaDelta only

theorem keeps_waitWay (s : State) (bits : Bool) :
    keepsBut [.well] s (waitWay s bits) := by
  unfold waitWay
  repeat' first
    | with_reducible apply keepsBut.refl
    | with_reducible assumption
    | (show (_ : Bool) = true; decide)
    | with_reducible apply keepsBut.step (keeps_askBits _)
    | with_reducible apply keepsBut.ite
    | (intro _)
    | extract_lets
    | split
    | dsimp +zetaDelta only

theorem keeps_withWay {W : List Part} {s0 s : State} {w : WayRes} {no : State} {k : Nat → State → State}
    (hv : (List.all [.well] fun p => W.contains p) = true) (h : keepsBut W s0 s) (hn : keepsBut W s0 no)
    (hk : ∀ n t, w = .way n t → keepsBut W s0 (k n t)) : keepsBut W s0 (withWay s w no k) := by
  unfold withWay
  split
  · exact hk _ _ rfl
  · exact keepsBut.step (keeps_waitWay _ _) hv h
  · exact hn

theorem keeps_fillSlot (s : State) (slot : Nat) (r : SlotRec) (key : List Byte) :
    keepsBut [.serai] s (fillSlot s slot r key) := by
  unfold fillSlot
  repeat' first
    | with_reducible apply keepsBut.refl
    | with_reducible assumption
    | (show (_ : Bool) = true; decide)
    | with_reducible apply keepsBut.step (keeps_modSlot _ _ _)
    | with_reducible apply keepsBut.ite
    | (intro _)
    | extract_lets
    | split
    | dsimp +zetaDelta only

theorem keeps_seraiRecord (s : State) (slot cause : Nat) (code : W16) :
    keepsBut [.ledger] s (seraiRecord s slot cause code) := by
  unfold seraiRecord
  repeat' first
    | with_reducible apply keepsBut.refl
    | with_reducible assumption
    | (show (_ : Bool) = true; decide)
    | with_reducible apply keepsBut.step (keeps_emit _ _ _ _ _)
    | with_reducible apply keepsBut.ite
    | (intro _)
    | extract_lets
    | split
    | dsimp +zetaDelta only

theorem keeps_conflictSlots (s : State) (ms : List Nat) :
    keepsBut [.serai, .ledger] s (conflictSlots s ms) := by
  unfold conflictSlots
  repeat' first
    | with_reducible apply keepsBut.refl
    | with_reducible assumption
    | (show (_ : Bool) = true; decide)
    | with_reducible apply keepsBut.step (keeps_upSerai _ _)
    | with_reducible apply keepsBut.step (keeps_flushSlot _ _)
    | with_reducible apply keepsBut.step (keeps_seraiRecord _ _ _ _)
    | with_reducible apply keepsBut.each
    | with_reducible apply keepsBut.ite
    | (intro _)
    | extract_lets
    | split
    | dsimp +zetaDelta only

theorem keeps_briefLease (s : State) :
    keepsBut [.serai] s (briefLease s) := by
  unfold briefLease
  repeat' first
    | with_reducible apply keepsBut.refl
    | with_reducible assumption
    | (show (_ : Bool) = true; decide)
    | with_reducible apply keepsBut.step (keeps_upSerai _ _)
    | with_reducible apply keepsBut.ite
    | (intro _)
    | extract_lets
    | split
    | dsimp +zetaDelta only

theorem keeps_briefPrivate (s : State) (key : List Byte) :
    (briefPrivate s key).keeps [.serai, .well] s := by
  unfold briefPrivate
  split
  · rename_i e
    refine keepsBut.step (keeps_briefLease _) (by decide) (keepsBut.step (keeps_upSerai _ _) (by decide)
      (keepsBut.step (keeps_freeSlot _ _) (by decide) ?_))
    exact step_privateWay_way e (by decide) (keepsBut.refl _ _)
  · trivial
  · exact keepsBut.refl _ _

theorem step_briefPrivate_got {W : List Part} {s0 : State} {s : State} {key : List Byte} {ks0 : List Byte} {sn : State} (hEq : briefPrivate s key = .got ks0 sn)
    (hv : (List.all [.serai, .well] fun p => W.contains p) = true) (h : keepsBut W s0 s) : keepsBut W s0 sn :=
  keepsBut.step (by have k := keeps_briefPrivate s key; rw [hEq] at k; exact k) hv h

theorem step_briefPrivate_fails {W : List Part} {s0 : State} {s : State} {key : List Byte} {st0 : Status} {sn : State} (hEq : briefPrivate s key = .fails st0 sn)
    (hv : (List.all [.serai, .well] fun p => W.contains p) = true) (h : keepsBut W s0 s) : keepsBut W s0 sn :=
  keepsBut.step (by have k := keeps_briefPrivate s key; rw [hEq] at k; exact k) hv h

theorem keeps_useInternal (s : State) (t : BitVec 12) (index : Nat) (mk : List Byte) :
    (useInternal s t index mk).keeps [.serai, .well, .ledger] s := by
  unfold useInternal
  split
  · exact keepsBut.step (keeps_briefLease _) (by decide) (keepsBut.step (keeps_upSerai _ _) (by decide) (keepsBut.refl _ _))
  · split
    · trivial
    · extract_lets s1
      have h1 : keepsBut [.serai, .well, .ledger] s s1 := keepsBut.step (keeps_upSerai _ _) (by decide) (keepsBut.refl _ _)
      split
      · rename_i e
        refine keepsBut.step (keeps_briefLease _) (by decide) (keepsBut.step (keeps_fillSlot _ _ _ _) (by decide) ?_)
        exact step_fillWay_way e (by decide) h1
      · trivial
      · cases hx : briefPrivate s1 mk with
        | got k t => exact step_briefPrivate_got hx (by decide) h1
        | waits b => trivial
        | fails st t => exact step_briefPrivate_fails hx (by decide) h1
  · exact keepsBut.step (keeps_conflictSlots _ _) (by decide) (keepsBut.refl _ _)

theorem step_useInternal_got {W : List Part} {s0 : State} {s : State} {t : BitVec 12} {index : Nat} {mk : List Byte} {ks0 : List Byte} {sn : State} (hEq : useInternal s t index mk = .got ks0 sn)
    (hv : (List.all [.serai, .well, .ledger] fun p => W.contains p) = true) (h : keepsBut W s0 s) : keepsBut W s0 sn :=
  keepsBut.step (by have k := keeps_useInternal s t index mk; rw [hEq] at k; exact k) hv h

theorem step_useInternal_fails {W : List Part} {s0 : State} {s : State} {t : BitVec 12} {index : Nat} {mk : List Byte} {st0 : Status} {sn : State} (hEq : useInternal s t index mk = .fails st0 sn)
    (hv : (List.all [.serai, .well, .ledger] fun p => W.contains p) = true) (h : keepsBut W s0 s) : keepsBut W s0 sn :=
  keepsBut.step (by have k := keeps_useInternal s t index mk; rw [hEq] at k; exact k) hv h

theorem keeps_useKek (s : State) (t : BitVec 12) (e : W32) :
    (useKek s t e).keeps [.serai, .well, .ledger] s := by
  exact keeps_useInternal _ _ _ _

theorem step_useKek_got {W : List Part} {s0 : State} {s : State} {t : BitVec 12} {e : W32} {ks0 : List Byte} {sn : State} (hEq : useKek s t e = .got ks0 sn)
    (hv : (List.all [.serai, .well, .ledger] fun p => W.contains p) = true) (h : keepsBut W s0 s) : keepsBut W s0 sn :=
  keepsBut.step (by have k := keeps_useKek s t e; rw [hEq] at k; exact k) hv h

theorem step_useKek_fails {W : List Part} {s0 : State} {s : State} {t : BitVec 12} {e : W32} {st0 : Status} {sn : State} (hEq : useKek s t e = .fails st0 sn)
    (hv : (List.all [.serai, .well, .ledger] fun p => W.contains p) = true) (h : keepsBut W s0 s) : keepsBut W s0 sn :=
  keepsBut.step (by have k := keeps_useKek s t e; rw [hEq] at k; exact k) hv h

theorem useInternal_from {s0 s : State} (t : BitVec 12) (i : Nat) (mk : List Byte) (h : keepsBut [.serai, .well, .ledger] s0 s) :
    (useInternal s t i mk).keeps [.serai, .well, .ledger] s0 := by
  have k := keeps_useInternal s t i mk
  cases hx : useInternal s t i mk with
  | got a u => rw [hx] at k; exact h.trans k
  | waits b => trivial
  | fails st u => rw [hx] at k; exact h.trans k

theorem keeps_useCtxKeys (s : State) (t : BitVec 12) (e : W32) :
    (useCtxKeys s t e).keeps [.serai, .well, .ledger] s := by
  unfold useCtxKeys
  extract_lets have_
  refine Use.keeps.bind ?_ (fun kek s1 h1 => Use.keeps.bind (useInternal_from _ _ _ h1) (fun cke s2 h2 =>
    Use.keeps.bind (useInternal_from _ _ _ h2) (fun ckt s3 h3 => h3)))
  split
  · exact keepsBut.refl _ _
  · exact keeps_useKek _ _ _

theorem step_useCtxKeys_got {W : List Part} {s0 : State} {s : State} {t : BitVec 12} {e : W32} {ks0 : List Byte} {sn : State} (hEq : useCtxKeys s t e = .got ks0 sn)
    (hv : (List.all [.serai, .well, .ledger] fun p => W.contains p) = true) (h : keepsBut W s0 s) : keepsBut W s0 sn :=
  keepsBut.step (by have k := keeps_useCtxKeys s t e; rw [hEq] at k; exact k) hv h

theorem step_useCtxKeys_fails {W : List Part} {s0 : State} {s : State} {t : BitVec 12} {e : W32} {st0 : Status} {sn : State} (hEq : useCtxKeys s t e = .fails st0 sn)
    (hv : (List.all [.serai, .well, .ledger] fun p => W.contains p) = true) (h : keepsBut W s0 s) : keepsBut W s0 sn :=
  keepsBut.step (by have k := keeps_useCtxKeys s t e; rw [hEq] at k; exact k) hv h

theorem keeps_countBaleFail (s : State) (st : Status) :
    keepsBut [.mint] s (countBaleFail s st) := by
  unfold countBaleFail
  repeat' first
    | with_reducible apply keepsBut.refl
    | with_reducible assumption
    | (show (_ : Bool) = true; decide)
    | with_reducible apply keepsBut.step (keeps_upMint _ _)
    | with_reducible apply keepsBut.ite
    | (intro _)
    | extract_lets
    | split
    | dsimp +zetaDelta only

theorem keeps_baleReject (s : State) (st : Status) (t : BitVec 12) (index : Nat) (addr : W64) :
    keepsBut [.ledger] s (baleReject s st t index addr) := by
  unfold baleReject
  repeat' first
    | with_reducible apply keepsBut.refl
    | with_reducible assumption
    | (show (_ : Bool) = true; decide)
    | with_reducible apply keepsBut.step (keeps_emit _ _ _ _ _)
    | with_reducible apply keepsBut.ite
    | (intro _)
    | extract_lets
    | split
    | dsimp +zetaDelta only

theorem keeps_genFault (s : State) (slot : Nat) :
    keepsBut [.serai, .ledger] s (genFault s slot) := by
  unfold genFault
  repeat' first
    | with_reducible apply keepsBut.refl
    | with_reducible assumption
    | (show (_ : Bool) = true; decide)
    | with_reducible apply keepsBut.step (keeps_upSerai _ _)
    | with_reducible apply keepsBut.step (keeps_seraiRecord _ _ _ _)
    | with_reducible apply keepsBut.ite
    | (intro _)
    | extract_lets
    | split
    | dsimp +zetaDelta only

theorem keeps_lookupKey (s : State) (t : BitVec 12) (index : Nat) (epoch : W32) :
    keepsBut [.serai, .ledger] s (lookupKey s t index epoch).2 := by
  unfold lookupKey
  repeat' first
    | with_reducible apply keepsBut.refl
    | with_reducible assumption
    | (show (_ : Bool) = true; decide)
    | with_reducible apply keepsBut.step (keeps_upSerai _ _)
    | with_reducible apply keepsBut.step (keeps_flushSlot _ _)
    | with_reducible apply keepsBut.step (keeps_seraiRecord _ _ _ _)
    | with_reducible apply keepsBut.step (keeps_conflictSlots _ _)
    | with_reducible apply keepsBut.each
    | with_reducible apply keepsBut.fold
    | with_reducible apply keepsBut.when
    | with_reducible apply keepsBut.ite
    | (intro _)
    | extract_lets
    | split
    | dsimp only
    | dsimp +zetaDelta only

theorem step_lookupKey {W : List Part} {s0 : State} {s : State} {t : BitVec 12} {index : Nat} {epoch : W32} {a : Lookup} {sn : State}
    (hEq : lookupKey s t index epoch = (a, sn)) (hv : (List.all [.serai, .ledger] fun p => W.contains p) = true) (h : keepsBut W s0 s) :
    keepsBut W s0 sn :=
  keepsBut.step (by have k := keeps_lookupKey s t index epoch; rw [hEq] at k; exact k) hv h

theorem keeps_fillPrivate (s : State) (k : Nat) (t : BitVec 12) (kind : SlotKind) (len lane engine : Nat) (r : SlotRec) (key : List Byte) :
    keepsBut [.serai] s (fillPrivate s k t kind len lane engine r key) := by
  unfold fillPrivate
  repeat' first
    | with_reducible apply keepsBut.refl
    | with_reducible assumption
    | (show (_ : Bool) = true; decide)
    | with_reducible apply keepsBut.step (keeps_takeLease _ _)
    | with_reducible apply keepsBut.step (keeps_fillSlot _ _ _ _)
    | with_reducible apply keepsBut.ite
    | (intro _)
    | extract_lets
    | split
    | dsimp +zetaDelta only

theorem keeps_releaseKey (s : State) (j n : Nat) :
    keepsBut [.jobs, .serai] s (releaseKey s j n) := by
  unfold releaseKey
  repeat' first
    | with_reducible apply keepsBut.refl
    | with_reducible assumption
    | (show (_ : Bool) = true; decide)
    | with_reducible apply keepsBut.step (keeps_modJob _ _ _)
    | with_reducible apply keepsBut.step (keeps_returnLease _ _)
    | with_reducible apply keepsBut.ite
    | (intro _)
    | extract_lets
    | split
    | dsimp +zetaDelta only

theorem keeps_loadKey (s : State) (j n slot : Nat) :
    keepsBut [.jobs, .serai] s (loadKey s j n slot) := by
  unfold loadKey
  repeat' first
    | with_reducible apply keepsBut.refl
    | with_reducible assumption
    | (show (_ : Bool) = true; decide)
    | with_reducible apply keepsBut.step (keeps_releaseKey _ _ _)
    | with_reducible apply keepsBut.step (keeps_modJob _ _ _)
    | with_reducible apply keepsBut.ite
    | (intro _)
    | extract_lets
    | split
    | dsimp +zetaDelta only

theorem keeps_returnLent (s : State) (j : Nat) :
    keepsBut [.serai, .mint] s (returnLent s j) := by
  unfold returnLent
  repeat' first
    | with_reducible apply keepsBut.refl
    | with_reducible assumption
    | (show (_ : Bool) = true; decide)
    | with_reducible apply keepsBut.step (keeps_upMint _ _)
    | with_reducible apply keepsBut.step (keeps_returnLease _ _)
    | with_reducible apply keepsBut.ite
    | (intro _)
    | extract_lets
    | split
    | dsimp +zetaDelta only

theorem keeps_releaseKeys (s : State) (j : Nat) :
    keepsBut [.jobs, .serai] s (releaseKeys s j) := by
  unfold releaseKeys
  repeat' first
    | with_reducible apply keepsBut.refl
    | with_reducible assumption
    | (show (_ : Bool) = true; decide)
    | with_reducible apply keepsBut.step (keeps_releaseKey _ _ _)
    | with_reducible apply keepsBut.each
    | with_reducible apply keepsBut.ite
    | (intro _)
    | extract_lets
    | split
    | dsimp +zetaDelta only

theorem keeps_wellSetState (s : State) (st : WellState) :
    keepsBut [.well, .ai] s (wellSetState s st) := by
  unfold wellSetState
  repeat' first
    | with_reducible apply keepsBut.refl
    | with_reducible assumption
    | (show (_ : Bool) = true; decide)
    | with_reducible apply keepsBut.step (keeps_upWell _ _)
    | with_reducible apply keepsBut.step (keeps_irqBlock _ _)
    | with_reducible apply keepsBut.when
    | with_reducible apply keepsBut.ite
    | (intro _)
    | extract_lets
    | split
    | dsimp +zetaDelta only

theorem keeps_tgError (s : State) (c err : Nat) :
    keepsBut [.tollgate, .relay, .ledger, .ai] s (tgError s c err) := by
  unfold tgError
  repeat' first
    | with_reducible apply keepsBut.refl
    | with_reducible assumption
    | (show (_ : Bool) = true; decide)
    | with_reducible apply keepsBut.step (keeps_modTg _ _ _)
    | with_reducible apply keepsBut.step (keeps_upTollgate _ _)
    | with_reducible apply keepsBut.step (keeps_emit _ _ _ _ _)
    | with_reducible apply keepsBut.step (keeps_raise _ _)
    | with_reducible apply keepsBut.step (keeps_irqBlock _ _)
    | with_reducible apply keepsBut.when
    | with_reducible apply keepsBut.ite
    | (intro _)
    | extract_lets
    | split
    | dsimp +zetaDelta only

theorem keeps_tgClear (s : State) (cause : Nat) :
    keepsBut [.tollgate, .relay, .ledger, .ai] s (tgClear s cause) := by
  unfold tgClear
  repeat' first
    | with_reducible apply keepsBut.refl
    | with_reducible assumption
    | (show (_ : Bool) = true; decide)
    | with_reducible apply keepsBut.step (keeps_modTg _ _ _)
    | with_reducible apply keepsBut.step (keeps_raise _ _)
    | with_reducible apply keepsBut.step (keeps_upTollgate _ _)
    | with_reducible apply keepsBut.step (keeps_irqBlock _ _)
    | with_reducible apply keepsBut.step (keeps_emit _ _ _ _ _)
    | with_reducible apply keepsBut.each
    | with_reducible apply keepsBut.when
    | with_reducible apply keepsBut.ite
    | (intro _)
    | extract_lets
    | split
    | dsimp +zetaDelta only

theorem keeps_tgAbsorb (s : State) (c : Nat) (bs : List Byte) :
    keepsBut [.tollgate] s (tgAbsorb s c bs) := by
  unfold tgAbsorb
  repeat' first
    | with_reducible apply keepsBut.refl
    | with_reducible assumption
    | (show (_ : Bool) = true; decide)
    | with_reducible apply keepsBut.step (keeps_modTg _ _ _)
    | with_reducible apply keepsBut.step (keeps_upTollgate _ _)
    | with_reducible apply keepsBut.ite
    | (intro _)
    | extract_lets
    | split
    | dsimp +zetaDelta only

theorem keeps_tgFinish (s : State) (c : Nat) :
    keepsBut [.tollgate, .relay, .ledger, .ai] s (tgFinish s c) := by
  unfold tgFinish
  repeat' first
    | with_reducible apply keepsBut.refl
    | with_reducible assumption
    | (show (_ : Bool) = true; decide)
    | with_reducible apply keepsBut.step (keeps_tgError _ _ _)
    | with_reducible apply keepsBut.step (keeps_modTg _ _ _)
    | with_reducible apply keepsBut.ite
    | (intro _)
    | extract_lets
    | split
    | dsimp +zetaDelta only

theorem keeps_tgFeed (s : State) (c : Nat) :
    keepsBut [.tollgate, .relay, .ledger, .ai] s (tgFeed s c) := by
  unfold tgFeed
  repeat' first
    | with_reducible apply keepsBut.refl
    | with_reducible assumption
    | (show (_ : Bool) = true; decide)
    | with_reducible apply keepsBut.step (keeps_tgAbsorb _ _ _)
    | with_reducible apply keepsBut.step (keeps_modTg _ _ _)
    | with_reducible apply keepsBut.step (keeps_tgFinish _ _)
    | with_reducible apply keepsBut.ite
    | (intro _)
    | extract_lets
    | split
    | dsimp +zetaDelta only

theorem keeps_tgCycle (s : State) (c : Nat) :
    keepsBut [.tollgate, .relay, .ledger, .ai] s (tgCycle s c) := by
  unfold tgCycle
  repeat' first
    | with_reducible apply keepsBut.refl
    | with_reducible assumption
    | (show (_ : Bool) = true; decide)
    | with_reducible apply keepsBut.step (keeps_modTg _ _ _)
    | with_reducible apply keepsBut.step (keeps_tgFeed _ _)
    | with_reducible apply keepsBut.ite
    | (intro _)
    | extract_lets
    | split
    | dsimp +zetaDelta only

theorem keeps_tgWindow (addr : Nat) (bs : List Byte) (s : State) (c : Nat) :
    keepsBut [.tollgate, .relay, .ledger, .ai] s (tgWindow addr bs s c) := by
  unfold tgWindow
  repeat' first
    | with_reducible apply keepsBut.refl
    | with_reducible assumption
    | (show (_ : Bool) = true; decide)
    | with_reducible apply keepsBut.step (keeps_tgError _ _ _)
    | with_reducible apply keepsBut.step (keeps_tgFeed _ _)
    | with_reducible apply keepsBut.step (keeps_modTg _ _ _)
    | with_reducible apply keepsBut.ite
    | (intro _)
    | extract_lets
    | split
    | dsimp +zetaDelta only

theorem keeps_tgSnoopRead (s : State) (addr : Nat) (bs : List Byte) :
    keepsBut [.tollgate, .relay, .ledger, .ai] s (tgSnoopRead s addr bs) := by
  unfold tgSnoopRead
  repeat' first
    | with_reducible apply keepsBut.refl
    | with_reducible assumption
    | (show (_ : Bool) = true; decide)
    | with_reducible apply keepsBut.step (keeps_tgWindow _ _ _ _)
    | with_reducible apply keepsBut.each
    | with_reducible apply keepsBut.ite
    | (intro _)
    | extract_lets
    | split
    | dsimp +zetaDelta only

theorem keeps_tgSnoopPorter (s : State) (n : Nat) (bs : List Byte) :
    keepsBut [.tollgate, .relay, .ledger, .ai] s (tgSnoopPorter s n bs) := by
  unfold tgSnoopPorter
  repeat' first
    | with_reducible apply keepsBut.refl
    | with_reducible assumption
    | (show (_ : Bool) = true; decide)
    | with_reducible apply keepsBut.step (keeps_tgFeed _ _)
    | with_reducible apply keepsBut.step (keeps_modTg _ _ _)
    | with_reducible apply keepsBut.each
    | with_reducible apply keepsBut.ite
    | (intro _)
    | extract_lets
    | split
    | dsimp +zetaDelta only

theorem keeps_tgRequest (s : State) (c : Nat) :
    keepsBut [.tollgate, .relay, .ledger, .ai] s (tgRequest s c) := by
  unfold tgRequest
  repeat' first
    | with_reducible apply keepsBut.refl
    | with_reducible assumption
    | (show (_ : Bool) = true; decide)
    | with_reducible apply keepsBut.step (keeps_tgFinish _ _)
    | with_reducible apply keepsBut.step (keeps_refuseCmd _ _ _ _ _)
    | with_reducible apply keepsBut.ite
    | (intro _)
    | extract_lets
    | split
    | dsimp +zetaDelta only

theorem keeps_tgPorterStart (s : State) (n : Nat) :
    keepsBut [.tollgate] s (tgPorterStart s n) := by
  unfold tgPorterStart
  repeat' first
    | with_reducible apply keepsBut.refl
    | with_reducible assumption
    | (show (_ : Bool) = true; decide)
    | with_reducible apply keepsBut.step (keeps_modTg _ _ _)
    | with_reducible apply keepsBut.each
    | with_reducible apply keepsBut.ite
    | (intro _)
    | extract_lets
    | split
    | dsimp +zetaDelta only

theorem keeps_tgPorterDone (s : State) (n : Nat) :
    keepsBut [.tollgate, .relay, .ledger, .ai] s (tgPorterDone s n) := by
  unfold tgPorterDone
  repeat' first
    | with_reducible apply keepsBut.refl
    | with_reducible assumption
    | (show (_ : Bool) = true; decide)
    | with_reducible apply keepsBut.step (keeps_modTg _ _ _)
    | with_reducible apply keepsBut.step (keeps_tgRequest _ _)
    | with_reducible apply keepsBut.each
    | with_reducible apply keepsBut.when
    | with_reducible apply keepsBut.ite
    | (intro _)
    | extract_lets
    | split
    | dsimp +zetaDelta only

theorem keeps_benchWoffRecord (s : State) (b i ring cause : Nat) :
    keepsBut [.ledger] s (benchWoffRecord s b i ring cause) := by
  unfold benchWoffRecord
  repeat' first
    | with_reducible apply keepsBut.refl
    | with_reducible assumption
    | (show (_ : Bool) = true; decide)
    | with_reducible apply keepsBut.step (keeps_emit _ _ _ _ _)
    | with_reducible apply keepsBut.ite
    | (intro _)
    | extract_lets
    | split
    | dsimp +zetaDelta only

theorem keeps_revokeLease (s : State) (b i cause : Nat) :
    keepsBut [.house, .ledger] s (revokeLease s b i cause) := by
  unfold revokeLease
  repeat' first
    | with_reducible apply keepsBut.refl
    | with_reducible assumption
    | (show (_ : Bool) = true; decide)
    | with_reducible apply keepsBut.step (keeps_modBench _ _ _)
    | with_reducible apply keepsBut.step (keeps_upHouse _ _)
    | with_reducible apply keepsBut.step (keeps_benchWoffRecord _ _ _ _ _)
    | with_reducible apply keepsBut.ite
    | (intro _)
    | extract_lets
    | split
    | dsimp +zetaDelta only

theorem keeps_freeHolding (s : State) (e : Nat) :
    keepsBut [.jobs, .serai] s (freeHolding s e) := by
  unfold freeHolding
  repeat' first
    | with_reducible apply keepsBut.refl
    | with_reducible assumption
    | (show (_ : Bool) = true; decide)
    | with_reducible apply keepsBut.step (keeps_releaseKey _ _ _)
    | with_reducible apply keepsBut.step (keeps_flushWhere _ _)
    | with_reducible apply keepsBut.each
    | with_reducible apply keepsBut.ite
    | (intro _)
    | extract_lets
    | split
    | dsimp +zetaDelta only

theorem keeps_wipeBench (s : State) (b cause : Nat) :
    keepsBut [.jobs, .serai, .house, .relay, .ledger] s (wipeBench s b cause) := by
  unfold wipeBench
  repeat' first
    | with_reducible apply keepsBut.refl
    | with_reducible assumption
    | (show (_ : Bool) = true; decide)
    | with_reducible apply keepsBut.step (keeps_revokeLease _ _ _ _)
    | with_reducible apply keepsBut.step (keeps_modBench _ _ _)
    | with_reducible apply keepsBut.step (keeps_freeHolding _ _)
    | with_reducible apply keepsBut.step (keeps_raise _ _)
    | with_reducible apply keepsBut.step (keeps_upHouse _ _)
    | with_reducible apply keepsBut.each
    | with_reducible apply keepsBut.fold
    | with_reducible apply keepsBut.ite
    | (intro _)
    | extract_lets
    | split
    | dsimp +zetaDelta only

theorem keeps_benchEnded (s : State) (b : Nat) (direct : Bool) (st : Status) :
    keepsBut [.units, .house, .relay, .ai] s (benchEnded s b direct st) := by
  unfold benchEnded
  repeat' first
    | with_reducible apply keepsBut.refl
    | with_reducible assumption
    | (show (_ : Bool) = true; decide)
    | with_reducible apply keepsBut.step (keeps_modBench _ _ _)
    | with_reducible apply keepsBut.step (keeps_unitEnding _ _ _)
    | with_reducible apply keepsBut.step (keeps_upHouse _ _)
    | with_reducible apply keepsBut.step (keeps_raise _ _)
    | with_reducible apply keepsBut.step (keeps_irqBlock _ _)
    | with_reducible apply keepsBut.when
    | with_reducible apply keepsBut.ite
    | (intro _)
    | extract_lets
    | split
    | dsimp +zetaDelta only

theorem keeps_stopBench (s : State) (b row : Nat) :
    keepsBut [.units, .house, .well, .relay, .ledger, .ai] s (stopBench s b row) := by
  unfold stopBench
  repeat' first
    | with_reducible apply keepsBut.refl
    | with_reducible assumption
    | (show (_ : Bool) = true; decide)
    | with_reducible apply keepsBut.step (keeps_modBench _ _ _)
    | with_reducible apply keepsBut.step (keeps_dropDraws _ _)
    | with_reducible apply keepsBut.step (keeps_modUnit _ _ _)
    | with_reducible apply keepsBut.step (keeps_emit _ _ _ _ _)
    | with_reducible apply keepsBut.step (keeps_benchEnded _ _ _ _)
    | with_reducible apply keepsBut.ite
    | (intro _)
    | extract_lets
    | split
    | dsimp +zetaDelta only

theorem keeps_abortBench (s : State) (b row : Nat) :
    keepsBut [.units, .jobs, .serai, .house, .well, .relay, .ledger, .ai] s (abortBench s b row) := by
  unfold abortBench
  repeat' first
    | with_reducible apply keepsBut.refl
    | with_reducible assumption
    | (show (_ : Bool) = true; decide)
    | with_reducible apply keepsBut.step (keeps_wipeBench _ _ _)
    | with_reducible apply keepsBut.step (keeps_stopBench _ _ _)
    | with_reducible apply keepsBut.ite
    | (intro _)
    | extract_lets
    | split
    | dsimp +zetaDelta only

theorem keeps_wipeEnded (s : State) (j row : Nat) :
    keepsBut [.jobs, .serai, .house, .relay, .ledger] s (wipeEnded s j row) := by
  unfold wipeEnded
  repeat' first
    | with_reducible apply keepsBut.refl
    | with_reducible assumption
    | (show (_ : Bool) = true; decide)
    | with_reducible apply keepsBut.step (keeps_wipeBench _ _ _)
    | with_reducible apply keepsBut.step (keeps_modBench _ _ _)
    | with_reducible apply keepsBut.each
    | with_reducible apply keepsBut.ite
    | (intro _)
    | extract_lets
    | split
    | dsimp +zetaDelta only

theorem keeps_benchOwn (s : State) (b : Nat) (w : Owner) :
    keepsBut [.jobs, .serai, .house, .relay, .ledger] s (benchOwn s b w) := by
  unfold benchOwn
  repeat' first
    | with_reducible apply keepsBut.refl
    | with_reducible assumption
    | (show (_ : Bool) = true; decide)
    | with_reducible apply keepsBut.step (keeps_wipeBench _ _ _)
    | with_reducible apply keepsBut.step (keeps_modBench _ _ _)
    | with_reducible apply keepsBut.ite
    | (intro _)
    | extract_lets
    | split
    | dsimp +zetaDelta only

theorem keeps_benchStart (s : State) (b : Nat) (r : PkReq) :
    keepsBut [.units, .jobs, .serai, .house, .well, .relay, .ledger] s (benchStart s b r) := by
  unfold benchStart
  repeat' first
    | with_reducible apply keepsBut.refl
    | with_reducible assumption
    | (show (_ : Bool) = true; decide)
    | with_reducible apply keepsBut.step (keeps_askDraw _ _ _ _)
    | with_reducible apply keepsBut.step (keeps_benchOwn _ _ _)
    | with_reducible apply keepsBut.step (keeps_modUnit _ _ _)
    | with_reducible apply keepsBut.step (keeps_modBench _ _ _)
    | with_reducible apply keepsBut.when
    | with_reducible apply keepsBut.ite
    | (intro _)
    | extract_lets
    | split
    | dsimp +zetaDelta only

theorem keeps_queuePk (s : State) (r : PkReq) :
    keepsBut [.house] s (queuePk s r) := by
  unfold queuePk
  repeat' first
    | with_reducible apply keepsBut.refl
    | with_reducible assumption
    | (show (_ : Bool) = true; decide)
    | with_reducible apply keepsBut.step (keeps_upHouse _ _)
    | with_reducible apply keepsBut.ite
    | (intro _)
    | extract_lets
    | split
    | dsimp +zetaDelta only

theorem keeps_mintRefuse (s : State) (st : Status) (reason index : Nat) :
    keepsBut [.mint] s (mintRefuse s st reason index) := by
  unfold mintRefuse
  repeat' first
    | with_reducible apply keepsBut.refl
    | with_reducible assumption
    | (show (_ : Bool) = true; decide)
    | with_reducible apply keepsBut.step (keeps_upMint _ _)
    | with_reducible apply keepsBut.ite
    | (intro _)
    | extract_lets
    | split
    | dsimp +zetaDelta only

theorem keeps_internalFails (s : State) (who : ScWho) (n : Nat) (st : Status) :
    keepsBut [.mint, .safe] s (internalFails s who n st) := by
  unfold internalFails
  repeat' first
    | with_reducible apply keepsBut.refl
    | with_reducible assumption
    | (show (_ : Bool) = true; decide)
    | with_reducible apply keepsBut.step (keeps_mintRefuse _ _ _ _)
    | with_reducible apply keepsBut.step (keeps_upSafe _ _)
    | with_reducible apply keepsBut.ite
    | (intro _)
    | extract_lets
    | split
    | dsimp +zetaDelta only

theorem keeps_internalGives (s : State) (who : ScWho) (n part : Nat) (bs : List Byte) :
    keepsBut [.mint, .safe] s (internalGives s who n part bs) := by
  unfold internalGives
  repeat' first
    | with_reducible apply keepsBut.refl
    | with_reducible assumption
    | (show (_ : Bool) = true; decide)
    | with_reducible apply keepsBut.step (keeps_mintRefuse _ _ _ _)
    | with_reducible apply keepsBut.step (keeps_upMint _ _)
    | with_reducible apply keepsBut.step (keeps_upSafe _ _)
    | with_reducible apply keepsBut.ite
    | (intro _)
    | extract_lets
    | split
    | dsimp +zetaDelta only

theorem keeps_queueLat (s : State) (r : LatReq) :
    keepsBut [.scales] s (queueLat s r) := by
  unfold queueLat
  repeat' first
    | with_reducible apply keepsBut.refl
    | with_reducible assumption
    | (show (_ : Bool) = true; decide)
    | with_reducible apply keepsBut.step (keeps_upScales _ _)
    | with_reducible apply keepsBut.ite
    | (intro _)
    | extract_lets
    | split
    | dsimp +zetaDelta only

theorem keeps_scrubCtx (s : State) (c : Nat) :
    keepsBut [.scales] s (scrubCtx s c) := by
  unfold scrubCtx
  repeat' first
    | with_reducible apply keepsBut.refl
    | with_reducible assumption
    | (show (_ : Bool) = true; decide)
    | with_reducible apply keepsBut.step (keeps_modCtx _ _ _)
    | with_reducible apply keepsBut.step (keeps_upScales _ _)
    | with_reducible apply keepsBut.ite
    | (intro _)
    | extract_lets
    | split
    | dsimp +zetaDelta only

theorem keeps_dropCtxHolding (s : State) (c : Nat) :
    keepsBut [.jobs, .serai, .scales, .relay] s (dropCtxHolding s c) := by
  unfold dropCtxHolding
  repeat' first
    | with_reducible apply keepsBut.refl
    | with_reducible assumption
    | (show (_ : Bool) = true; decide)
    | with_reducible apply keepsBut.step (keeps_modCtx _ _ _)
    | with_reducible apply keepsBut.step (keeps_freeHolding _ _)
    | with_reducible apply keepsBut.step (keeps_raise _ _)
    | with_reducible apply keepsBut.step (keeps_upScales _ _)
    | with_reducible apply keepsBut.ite
    | (intro _)
    | extract_lets
    | split
    | dsimp +zetaDelta only

theorem keeps_ctxEnded (s : State) (c : Nat) (st : Status) :
    keepsBut [.scales, .relay] s (ctxEnded s c st) := by
  unfold ctxEnded
  repeat' first
    | with_reducible apply keepsBut.refl
    | with_reducible assumption
    | (show (_ : Bool) = true; decide)
    | with_reducible apply keepsBut.step (keeps_modCtx _ _ _)
    | with_reducible apply keepsBut.step (keeps_raise _ _)
    | with_reducible apply keepsBut.step (keeps_upScales _ _)
    | with_reducible apply keepsBut.ite
    | (intro _)
    | extract_lets
    | split
    | dsimp +zetaDelta only

theorem keeps_stopCtx (s : State) (c : Nat) :
    keepsBut [.scales, .well, .relay] s (stopCtx s c) := by
  unfold stopCtx
  repeat' first
    | with_reducible apply keepsBut.refl
    | with_reducible assumption
    | (show (_ : Bool) = true; decide)
    | with_reducible apply keepsBut.step (keeps_modCtx _ _ _)
    | with_reducible apply keepsBut.step (keeps_dropDraws _ _)
    | with_reducible apply keepsBut.step (keeps_ctxEnded _ _ _)
    | with_reducible apply keepsBut.step (keeps_upScales _ _)
    | with_reducible apply keepsBut.ite
    | (intro _)
    | extract_lets
    | split
    | dsimp +zetaDelta only

theorem keeps_abortCtx (s : State) (c : Nat) :
    keepsBut [.jobs, .serai, .scales, .well, .relay] s (abortCtx s c) := by
  unfold abortCtx
  repeat' first
    | with_reducible apply keepsBut.refl
    | with_reducible assumption
    | (show (_ : Bool) = true; decide)
    | with_reducible apply keepsBut.step (keeps_stopCtx _ _)
    | with_reducible apply keepsBut.step (keeps_dropCtxHolding _ _)
    | with_reducible apply keepsBut.step (keeps_upScales _ _)
    | with_reducible apply keepsBut.ite
    | (intro _)
    | extract_lets
    | split
    | dsimp +zetaDelta only

theorem keeps_ledgerRead (s : State) :
    keepsBut [.relay, .ledger] s (ledgerRead s).2 := by
  unfold ledgerRead
  repeat' first
    | with_reducible apply keepsBut.refl
    | with_reducible assumption
    | (show (_ : Bool) = true; decide)
    | with_reducible apply keepsBut.step (keeps_upLedger _ _)
    | with_reducible apply keepsBut.step (keeps_emit _ _ _ _ _)
    | with_reducible apply keepsBut.step (keeps_raise _ _)
    | with_reducible apply keepsBut.each
    | with_reducible apply keepsBut.fold
    | with_reducible apply keepsBut.when
    | with_reducible apply keepsBut.ite
    | (intro _)
    | extract_lets
    | split
    | dsimp only
    | dsimp +zetaDelta only

theorem step_ledgerRead {W : List Part} {s0 : State} {s : State} {a : Nat} {sn : State}
    (hEq : ledgerRead s = (a, sn)) (hv : (List.all [.relay, .ledger] fun p => W.contains p) = true) (h : keepsBut W s0 s) :
    keepsBut W s0 sn :=
  keepsBut.step (by have k := keeps_ledgerRead s; rw [hEq] at k; exact k) hv h

theorem keeps_ptWriteOut (s : State) (n : Nat) (dst : W64) (bs : List Byte) :
    keepsBut [.tollgate, .relay, .ledger, .ai, .ration] s (ptWriteOut s n dst bs) := by
  unfold ptWriteOut
  repeat' first
    | with_reducible apply keepsBut.refl
    | with_reducible assumption
    | (show (_ : Bool) = true; decide)
    | with_reducible apply keepsBut.step (keeps_issueAccess _ _ _ _ _ _)
    | with_reducible apply keepsBut.step (keeps_tgSnoopPorter _ _ _)
    | with_reducible apply keepsBut.ite
    | (intro _)
    | extract_lets
    | split
    | dsimp +zetaDelta only

theorem keeps_ptReadOne (s : State) (n : Nat) {sn : State} (hEq : ptReadOne s n = some sn) :
    keepsBut [.porter, .relay, .ledger, .ai, .ration] s sn := by
  unfold ptReadOne at hEq
  extract_lets c p at hEq
  repeat' (first | split at hEq | extract_lets at hEq)
  all_goals first
    | contradiction
    | obtain rfl : _ = sn := Option.some.inj hEq
  all_goals repeat' first
    | with_reducible apply keepsBut.refl
    | (show (_ : Bool) = true; decide)
    | with_reducible apply keepsBut.step (keeps_issueAccess _ _ _ _ _ _)
    | with_reducible apply keepsBut.step (keeps_modChan _ _ _)
    | (with_reducible refine step_ledgerRead (by assumption) ?_ ?_)

theorem step_ptReadOne {W : List Part} {s0 : State} {s : State} {n : Nat} {sn : State}
    (hEq : ptReadOne s n = some sn) (hv : (List.all [.porter, .relay, .ledger, .ai, .ration] fun p => W.contains p) = true) (h : keepsBut W s0 s) :
    keepsBut W s0 sn := keepsBut.step (keeps_ptReadOne s n hEq) hv h

theorem keeps_ptWriteOne (s : State) (n : Nat) {sn : State} (hEq : ptWriteOne s n = some sn) :
    keepsBut [.tollgate, .porter, .relay, .ledger, .ai, .ration] s sn := by
  unfold ptWriteOne at hEq
  repeat' (first | split at hEq | extract_lets at hEq)
  all_goals first
    | contradiction
    | obtain rfl : _ = sn := Option.some.inj hEq
  all_goals repeat' first
    | with_reducible apply keepsBut.refl
    | (show (_ : Bool) = true; decide)
    | with_reducible apply keepsBut.step (keeps_ptWriteOut _ _ _ _)
    | with_reducible apply keepsBut.step (keeps_modChan _ _ _)

theorem step_ptWriteOne {W : List Part} {s0 : State} {s : State} {n : Nat} {sn : State}
    (hEq : ptWriteOne s n = some sn) (hv : (List.all [.tollgate, .porter, .relay, .ledger, .ai, .ration] fun p => W.contains p) = true) (h : keepsBut W s0 s) :
    keepsBut W s0 sn := keepsBut.step (keeps_ptWriteOne s n hEq) hv h

theorem keeps_ptRotate {W : List Part} {s : State} {f : Nat → Option State} {last : Nat} {a : Nat} {t : State}
    (hf : ∀ n u, f n = some u → keepsBut W s u) (e : ptRotate f last = some (a, t)) : keepsBut W s t := by
  unfold ptRotate at e
  obtain ⟨n, -, hn⟩ := List.exists_of_findSome?_eq_some e
  cases hx : f n with
  | none => rw [hx] at hn; cases hn
  | some u => rw [hx] at hn; have hk := hf n u hx; cases hn; exact hk

theorem keeps_ptCycle (s : State) :
    keepsBut [.tollgate, .porter, .relay, .ledger, .ai, .ration] s (ptCycle s) := by
  unfold ptCycle
  extract_lets s1
  have h1 : keepsBut [.tollgate, .porter, .relay, .ledger, .ai, .ration] s s1 := by
    show keepsBut _ _ (match ptRotate (ptWriteOne s) s.porter.lastWr with | some (n, s) => _ | none => s)
    split
    · rename_i e
      exact keepsBut.step (keeps_upPorter _ _) (by decide) (keeps_ptRotate (fun n u hu => step_ptWriteOne hu (by decide) (keepsBut.refl _ _)) e)
    · exact keepsBut.refl _ _
  split
  · rename_i e
    exact keepsBut.step (keeps_upPorter _ _) (by decide) (keeps_ptRotate (fun n u hu => step_ptReadOne hu (by decide) h1) e)
  · exact h1

theorem keeps_ptIndexHere (s : State) (n e block : Nat) (bs : List Byte) :
    keepsBut [.porter] s (ptIndexHere s n e block bs) := by
  unfold ptIndexHere
  repeat' first
    | with_reducible apply keepsBut.refl
    | with_reducible assumption
    | (show (_ : Bool) = true; decide)
    | with_reducible apply keepsBut.step (keeps_modChan _ _ _)
    | with_reducible apply keepsBut.fold
    | with_reducible apply keepsBut.ite
    | (intro _)
    | extract_lets
    | split
    | dsimp +zetaDelta only

theorem keeps_ptDataHere (s : State) (n e pos : Nat) (dst : W64) (bs : List Byte) :
    keepsBut [.porter] s (ptDataHere s n e pos dst bs) := by
  unfold ptDataHere
  repeat' first
    | with_reducible apply keepsBut.refl
    | with_reducible assumption
    | (show (_ : Bool) = true; decide)
    | with_reducible apply keepsBut.step (keeps_modChan _ _ _)
    | with_reducible apply keepsBut.ite
    | (intro _)
    | extract_lets
    | split
    | dsimp +zetaDelta only

theorem keeps_ptComplete (s : State) (n : Nat) :
    keepsBut [.tollgate, .porter, .relay, .ledger, .ai] s (ptComplete s n) := by
  unfold ptComplete
  repeat' first
    | with_reducible apply keepsBut.refl
    | with_reducible assumption
    | (show (_ : Bool) = true; decide)
    | with_reducible apply keepsBut.step (keeps_modChan _ _ _)
    | with_reducible apply keepsBut.step (keeps_tgPorterDone _ _)
    | with_reducible apply keepsBut.step (keeps_raise _ _)
    | with_reducible apply keepsBut.ite
    | (intro _)
    | extract_lets
    | split
    | dsimp +zetaDelta only

theorem keeps_ptSettle (s : State) (own : Option Nat) :
    keepsBut [.tollgate, .porter, .relay, .ledger, .ai] s (ptSettle s own) := by
  unfold ptSettle
  repeat' first
    | with_reducible apply keepsBut.refl
    | with_reducible assumption
    | (show (_ : Bool) = true; decide)
    | with_reducible apply keepsBut.step (keeps_ptComplete _ _)
    | with_reducible apply keepsBut.each
    | with_reducible apply keepsBut.ite
    | (intro _)
    | extract_lets
    | split
    | dsimp +zetaDelta only

theorem keeps_ptAbandon (s : State) (own : Option Nat) :
    keepsBut [.tollgate, .porter, .relay, .ledger, .ai] s (ptAbandon s own).2 := by
  unfold ptAbandon
  repeat' first
    | with_reducible apply keepsBut.refl
    | with_reducible assumption
    | (show (_ : Bool) = true; decide)
    | with_reducible apply keepsBut.step (keeps_upPorter _ _)
    | with_reducible apply keepsBut.step (keeps_modChan _ _ _)
    | with_reducible apply keepsBut.step (keeps_withdraw _ _)
    | with_reducible apply keepsBut.step (keeps_ptSettle _ _)
    | with_reducible apply keepsBut.each
    | with_reducible apply keepsBut.fold
    | with_reducible apply keepsBut.when
    | with_reducible apply keepsBut.ite
    | (intro _)
    | extract_lets
    | split
    | dsimp only
    | dsimp +zetaDelta only

theorem step_ptAbandon {W : List Part} {s0 : State} {s : State} {own : Option Nat} {a : Nat} {sn : State}
    (hEq : ptAbandon s own = (a, sn)) (hv : (List.all [.tollgate, .porter, .relay, .ledger, .ai] fun p => W.contains p) = true) (h : keepsBut W s0 s) :
    keepsBut W s0 sn :=
  keepsBut.step (by have k := keeps_ptAbandon s own; rw [hEq] at k; exact k) hv h

theorem keeps_ptStop (s : State) (own : Option Nat) (dir : Bool) (cause : Nat) (addr : W64) :
    keepsBut [.tollgate, .porter, .relay, .ledger, .ai] s (ptStop s own dir cause addr) := by
  unfold ptStop
  repeat' first
    | with_reducible apply keepsBut.refl
    | with_reducible assumption
    | (show (_ : Bool) = true; decide)
    | with_reducible apply keepsBut.step (keeps_upPorter _ _)
    | (with_reducible refine step_ptAbandon (by assumption) ?_ ?_)
    | with_reducible apply keepsBut.step (keeps_ptAbandon _ _)
    | with_reducible apply keepsBut.step (keeps_emit _ _ _ _ _)
    | with_reducible apply keepsBut.step (keeps_irqBlock _ _)
    | with_reducible apply keepsBut.when
    | with_reducible apply keepsBut.ite
    | (intro _)
    | extract_lets
    | split
    | dsimp +zetaDelta only

theorem keeps_ptLeaveService (s : State) :
    keepsBut [.tollgate, .porter, .relay, .ledger, .ai] s (ptLeaveService s) := by
  unfold ptLeaveService
  repeat' first
    | with_reducible apply keepsBut.refl
    | with_reducible assumption
    | (show (_ : Bool) = true; decide)
    | (with_reducible refine step_ptAbandon (by assumption) ?_ ?_)
    | with_reducible apply keepsBut.step (keeps_ptAbandon _ _)
    | with_reducible apply keepsBut.step (keeps_emit _ _ _ _ _)
    | with_reducible apply keepsBut.ite
    | (intro _)
    | extract_lets
    | split
    | dsimp +zetaDelta only

theorem keeps_ptStart (s : State) (n : Nat) :
    keepsBut [.tollgate, .porter, .ledger] s (ptStart s n) := by
  unfold ptStart
  repeat' first
    | with_reducible apply keepsBut.refl
    | with_reducible assumption
    | (show (_ : Bool) = true; decide)
    | with_reducible apply keepsBut.step (keeps_modChan _ _ _)
    | with_reducible apply keepsBut.step (keeps_emit _ _ _ _ _)
    | with_reducible apply keepsBut.step (keeps_upPorter _ _)
    | with_reducible apply keepsBut.step (keeps_tgPorterStart _ _)
    | with_reducible apply keepsBut.ite
    | (intro _)
    | extract_lets
    | split
    | dsimp +zetaDelta only

theorem keeps_askStream (s : State) (j : Nat) (w : Need) :
    keepsBut [.jobs, .ai, .ration] s (askStream s j w) := by
  unfold askStream
  repeat' first
    | with_reducible apply keepsBut.refl
    | with_reducible assumption
    | (show (_ : Bool) = true; decide)
    | with_reducible apply keepsBut.step (keeps_modJob _ _ _)
    | with_reducible apply keepsBut.step (keeps_issueAccess _ _ _ _ _ _)
    | with_reducible apply keepsBut.fold
    | with_reducible apply keepsBut.ite
    | (intro _)
    | extract_lets
    | split
    | dsimp +zetaDelta only

theorem keeps_askWithin (s : State) (j room : Nat) (l : List Need) :
    keepsBut [.jobs, .ai, .ration] s (askWithin s j room l) := by
  induction l generalizing s room with
  | nil => exact keepsBut.refl _ _
  | cons w ws ih => exact keepsBut.step (ih _ _) (by decide) (keepsBut.step (keeps_askStream _ _ _) (by decide) (keepsBut.refl _ _))

theorem keeps_askNeeds (s : State) (j : Nat) (l : List Need) :
    keepsBut [.jobs, .ai, .ration] s (askNeeds s j l) := by
  unfold askNeeds
  repeat' first
    | with_reducible apply keepsBut.refl
    | with_reducible assumption
    | (show (_ : Bool) = true; decide)
    | with_reducible apply keepsBut.step (keeps_askWithin _ _ _ _)
    | with_reducible apply keepsBut.ite
    | (intro _)
    | extract_lets
    | split
    | dsimp +zetaDelta only

theorem keeps_askManifest (s : State) (j : Nat) :
    keepsBut [.jobs, .ai, .ration] s (askManifest s j) := by
  unfold askManifest
  repeat' first
    | with_reducible apply keepsBut.refl
    | with_reducible assumption
    | (show (_ : Bool) = true; decide)
    | with_reducible apply keepsBut.step (keeps_modJob _ _ _)
    | with_reducible apply keepsBut.step (keeps_issueAccess _ _ _ _ _ _)
    | with_reducible apply keepsBut.ite
    | (intro _)
    | extract_lets
    | split
    | dsimp +zetaDelta only

theorem keeps_askBlock (s : State) (j : Nat) :
    keepsBut [.jobs, .ai, .ration] s (askBlock s j) := by
  unfold askBlock
  repeat' first
    | with_reducible apply keepsBut.refl
    | with_reducible assumption
    | (show (_ : Bool) = true; decide)
    | with_reducible apply keepsBut.step (keeps_askManifest _ _)
    | with_reducible apply keepsBut.ite
    | (intro _)
    | extract_lets
    | split
    | dsimp +zetaDelta only

theorem keeps_writeStream (s : State) (j st off : Nat) (bs : List Byte) :
    keepsBut [.ai, .ration] s (writeStream s j st off bs) := by
  unfold writeStream
  repeat' first
    | with_reducible apply keepsBut.refl
    | with_reducible assumption
    | (show (_ : Bool) = true; decide)
    | with_reducible apply keepsBut.step (keeps_issueAccess _ _ _ _ _ _)
    | with_reducible apply keepsBut.fold
    | with_reducible apply keepsBut.ite
    | (intro _)
    | extract_lets
    | split
    | dsimp +zetaDelta only

theorem keeps_issueOut (s : State) (j : Nat) (y : Job) (from_ to_ : Nat) (o : OutW) :
    keepsBut [.ai, .ration, .free] s (issueOut s j y from_ to_ o) := by
  unfold issueOut
  repeat' first
    | with_reducible apply keepsBut.refl
    | with_reducible assumption
    | (show (_ : Bool) = true; decide)
    | (with_reducible refine step_drawNoise (by assumption) ?_ ?_)
    | with_reducible apply keepsBut.step (keeps_drawNoise _ _)
    | with_reducible apply keepsBut.step (keeps_writeStream _ _ _ _ _)
    | with_reducible apply keepsBut.ite
    | (intro _)
    | extract_lets
    | split
    | dsimp +zetaDelta only

theorem keeps_issueOuts (s : State) (j : Nat) (y : Job) (outs : List OutW) :
    keepsBut [.ai, .ration, .free] s (issueOuts s j y outs) := by
  unfold issueOuts
  repeat' first
    | with_reducible apply keepsBut.refl
    | with_reducible assumption
    | (show (_ : Bool) = true; decide)
    | with_reducible apply keepsBut.step (keeps_issueOut _ _ _ _ _ _)
    | with_reducible apply keepsBut.fold
    | with_reducible apply keepsBut.ite
    | (intro _)
    | extract_lets
    | split
    | dsimp +zetaDelta only

theorem keeps_readAhead (j : Nat) (a : Ahead) (st : Nat) (n : Option Nat) :
    keepsBut [.jobs, .ai, .ration] a.s (readAhead j a st n).s := by
  unfold readAhead
  extract_lets x
  split
  · exact keepsBut.refl _ _
  · exact keepsBut.step (keeps_askStream _ _ _) (by decide) (keepsBut.refl _ _)

theorem keeps_useAhead (j : Nat) (a : Ahead) (u : StreamUse) :
    keepsBut [.jobs, .ai, .ration] a.s (useAhead j a u).s := by
  have w : ∀ st n, keepsBut [.jobs, .ai, .ration] a.s (writeAhead j a st n).s := by
    intro st n
    unfold writeAhead
    split <;> exact keepsBut.refl _ _
  unfold useAhead
  repeat' split
  all_goals first
    | exact keeps_readAhead _ _ _ _
    | exact w _ _
    | exact keepsBut.refl _ _

theorem keeps_prefetch (s : State) (j : Nat) :
    keepsBut [.jobs, .ai, .ration] s (prefetch s j) := by
  unfold prefetch
  generalize (aheadOf s (getJob s j)).flatMap streamUses = us
  have : ∀ (us : List StreamUse) (a : Ahead), keepsBut [.jobs, .ai, .ration] s a.s → keepsBut [.jobs, .ai, .ration] s (us.foldl (useAhead j) a).s := by
    intro us
    induction us with
    | nil => exact fun a h => h
    | cons u us ih => exact fun a h => ih _ (h.trans (keeps_useAhead j a u))
  exact this us _ (keepsBut.refl _ _)

theorem keeps_startReads (s : State) (j : Nat) :
    keepsBut [.jobs, .ai, .ration] s (startReads s j) := by
  unfold startReads
  repeat' first
    | with_reducible apply keepsBut.refl
    | with_reducible assumption
    | (show (_ : Bool) = true; decide)
    | with_reducible apply keepsBut.step (keeps_askBlock _ _)
    | with_reducible apply keepsBut.step (keeps_prefetch _ _)
    | with_reducible apply keepsBut.ite
    | (intro _)
    | extract_lets
    | split
    | dsimp +zetaDelta only

theorem keeps_laneReads (s : State) (l : Nat) :
    keepsBut [.jobs, .ai, .ration] s (laneReads s l) := by
  unfold laneReads
  repeat' first
    | with_reducible apply keepsBut.refl
    | with_reducible assumption
    | (show (_ : Bool) = true; decide)
    | with_reducible apply keepsBut.step (keeps_startReads _ _)
    | with_reducible apply keepsBut.step (keeps_prefetch _ _)
    | with_reducible apply keepsBut.each
    | with_reducible apply keepsBut.ite
    | (intro _)
    | extract_lets
    | split
    | dsimp +zetaDelta only

theorem keeps_unseat (s : State) (j : Nat) :
    keepsBut [.lanes] s (unseat s j) := by
  unfold unseat
  repeat' first
    | with_reducible apply keepsBut.refl
    | with_reducible assumption
    | with_reducible apply keepsBut.step (keeps_set_lanes _ _)
    | (show (_ : Bool) = true; decide)
    | with_reducible apply keepsBut.ite
    | (intro _)
    | extract_lets
    | split
    | dsimp +zetaDelta only

theorem keeps_unqueue (s : State) (j : Nat) :
    keepsBut [.muster] s (unqueue s j) := by
  unfold unqueue
  repeat' first
    | with_reducible apply keepsBut.refl
    | with_reducible assumption
    | (show (_ : Bool) = true; decide)
    | with_reducible apply keepsBut.step (keeps_upMuster _ _)
    | with_reducible apply keepsBut.ite
    | (intro _)
    | extract_lets
    | split
    | dsimp +zetaDelta only

theorem keeps_queueFront (s : State) (js : List Nat) :
    keepsBut [.jobs, .muster] s (queueFront s js) := by
  unfold queueFront
  repeat' first
    | with_reducible apply keepsBut.refl
    | with_reducible assumption
    | (show (_ : Bool) = true; decide)
    | with_reducible apply keepsBut.step (keeps_modJob _ _ _)
    | with_reducible apply keepsBut.step (keeps_upMuster _ _)
    | with_reducible apply keepsBut.each
    | with_reducible apply keepsBut.ite
    | (intro _)
    | extract_lets
    | split
    | dsimp +zetaDelta only

theorem keeps_orphanReads (s : State) (j : Nat) :
    keepsBut [.ai] s (orphanReads s j) := by
  unfold orphanReads
  repeat' first
    | with_reducible apply keepsBut.refl
    | with_reducible assumption
    | (show (_ : Bool) = true; decide)
    | with_reducible apply keepsBut.step (keeps_withdraw _ _)
    | with_reducible apply keepsBut.step (keeps_upAi _ _)
    | with_reducible apply keepsBut.ite
    | (intro _)
    | extract_lets
    | split
    | dsimp +zetaDelta only

theorem keeps_unprepare (s : State) (j : Nat) :
    keepsBut [.jobs, .serai] s (unprepare s j) := by
  unfold unprepare
  repeat' first
    | with_reducible apply keepsBut.refl
    | with_reducible assumption
    | (show (_ : Bool) = true; decide)
    | with_reducible apply keepsBut.step (keeps_releaseKeys _ _)
    | with_reducible apply keepsBut.step (keeps_modJob _ _ _)
    | with_reducible apply keepsBut.ite
    | (intro _)
    | extract_lets
    | split
    | dsimp +zetaDelta only

theorem keeps_returnJob (s : State) (j : Nat) :
    keepsBut [.jobs, .lanes, .serai, .ai] s (returnJob s j) := by
  unfold returnJob
  repeat' first
    | with_reducible apply keepsBut.refl
    | with_reducible assumption
    | (show (_ : Bool) = true; decide)
    | with_reducible apply keepsBut.step (keeps_orphanReads _ _)
    | with_reducible apply keepsBut.step (keeps_unprepare _ _)
    | with_reducible apply keepsBut.step (keeps_unseat _ _)
    | with_reducible apply keepsBut.step (keeps_modJob _ _ _)
    | with_reducible apply keepsBut.ite
    | (intro _)
    | extract_lets
    | split
    | dsimp +zetaDelta only

theorem keeps_returnLanes (s : State) (lanes : List Nat) :
    keepsBut [.jobs, .lanes, .muster, .serai, .ai] s (returnLanes s lanes) := by
  unfold returnLanes
  repeat' first
    | with_reducible apply keepsBut.refl
    | with_reducible assumption
    | (show (_ : Bool) = true; decide)
    | with_reducible apply keepsBut.step (keeps_queueFront _ _)
    | with_reducible apply keepsBut.step (keeps_returnJob _ _)
    | with_reducible apply keepsBut.each
    | with_reducible apply keepsBut.ite
    | (intro _)
    | extract_lets
    | split
    | dsimp +zetaDelta only

theorem keeps_returnStaged (s : State) (lane : Nat) :
    keepsBut [.jobs, .lanes, .muster, .serai, .ai] s (returnStaged s lane) := by
  unfold returnStaged
  repeat' first
    | with_reducible apply keepsBut.refl
    | with_reducible assumption
    | (show (_ : Bool) = true; decide)
    | with_reducible apply keepsBut.step (keeps_returnLanes _ _)
    | with_reducible apply keepsBut.ite
    | (intro _)
    | extract_lets
    | split
    | dsimp +zetaDelta only

theorem keeps_unlag (s : State) (lane : Nat) :
    keepsBut [.lanes] s (unlag s lane) := by
  unfold unlag
  repeat' first
    | with_reducible apply keepsBut.refl
    | with_reducible assumption
    | (show (_ : Bool) = true; decide)
    | with_reducible apply keepsBut.step (keeps_modLane _ _ _)
    | with_reducible apply keepsBut.ite
    | (intro _)
    | extract_lets
    | split
    | dsimp +zetaDelta only

theorem keeps_dropWork (s : State) (j row : Nat) :
    keepsBut [.units, .jobs, .serai, .mint, .house, .scales, .well, .relay, .ledger, .ai] s (dropWork s j row) := by
  unfold dropWork
  repeat' first
    | with_reducible apply keepsBut.refl
    | with_reducible assumption
    | (show (_ : Bool) = true; decide)
    | with_reducible apply keepsBut.step (keeps_upSerai _ _)
    | with_reducible apply keepsBut.step (keeps_returnLent _ _)
    | with_reducible apply keepsBut.step (keeps_upHouse _ _)
    | with_reducible apply keepsBut.step (keeps_upScales _ _)
    | with_reducible apply keepsBut.step (keeps_upWell _ _)
    | with_reducible apply keepsBut.step (keeps_upMint _ _)
    | with_reducible apply keepsBut.step (keeps_wipeEnded _ _ _)
    | with_reducible apply keepsBut.step (keeps_abortBench _ _ _)
    | with_reducible apply keepsBut.step (keeps_abortCtx _ _)
    | with_reducible apply keepsBut.each
    | with_reducible apply keepsBut.when
    | with_reducible apply keepsBut.ite
    | (intro _)
    | extract_lets
    | split
    | dsimp +zetaDelta only

theorem keeps_clearJob (s : State) (j : Nat) :
    keepsBut [.jobs, .serai, .house, .scales, .relay, .ledger, .ai] s (clearJob s j) := by
  unfold clearJob
  repeat' first
    | with_reducible apply keepsBut.refl
    | with_reducible assumption
    | (show (_ : Bool) = true; decide)
    | with_reducible apply keepsBut.step (keeps_releaseKeys _ _)
    | with_reducible apply keepsBut.step (keeps_wipeBench _ _ _)
    | with_reducible apply keepsBut.step (keeps_dropCtxHolding _ _)
    | with_reducible apply keepsBut.step (keeps_orphanReads _ _)
    | with_reducible apply keepsBut.step (keeps_modJob _ _ _)
    | with_reducible apply keepsBut.each
    | with_reducible apply keepsBut.ite
    | (intro _)
    | extract_lets
    | split
    | dsimp +zetaDelta only

theorem keeps_settle (s : State) (j : Nat) :
    keepsBut [.jobs, .muster] s (settle s j) := by
  unfold settle
  repeat' first
    | with_reducible apply keepsBut.refl
    | with_reducible assumption
    | (show (_ : Bool) = true; decide)
    | with_reducible apply keepsBut.step (keeps_modJob _ _ _)
    | with_reducible apply keepsBut.step (keeps_upMuster _ _)
    | with_reducible apply keepsBut.ite
    | (intro _)
    | extract_lets
    | split
    | dsimp +zetaDelta only

theorem keeps_finishJob (s : State) (j : Nat) (lane : Option Nat) :
    keepsBut [.units, .rings, .jobs, .lanes, .muster, .serai, .mint, .house, .scales, .well, .relay, .ledger, .ai] s (finishJob s j lane) := by
  unfold finishJob
  repeat' first
    | with_reducible apply keepsBut.refl
    | with_reducible assumption
    | (show (_ : Bool) = true; decide)
    | with_reducible apply keepsBut.step (keeps_unqueue _ _)
    | with_reducible apply keepsBut.step (keeps_unseat _ _)
    | with_reducible apply keepsBut.step (keeps_dropWork _ _ _)
    | with_reducible apply keepsBut.step (keeps_settle _ _)
    | with_reducible apply keepsBut.step (keeps_clearJob _ _)
    | with_reducible apply keepsBut.step (keeps_modJob _ _ _)
    | with_reducible apply keepsBut.step (keeps_unitEnding _ _ _)
    | with_reducible apply keepsBut.step (keeps_modRing _ _ _)
    | with_reducible apply keepsBut.step (keeps_unlag _ _)
    | with_reducible apply keepsBut.when
    | with_reducible apply keepsBut.ite
    | (intro _)
    | extract_lets
    | split
    | dsimp +zetaDelta only

theorem keeps_endAside (s : State) (j : Nat) (st : Status) (lane : Option Nat) :
    keepsBut [.units, .rings, .jobs, .lanes, .muster, .serai, .mint, .house, .scales, .well, .relay, .ledger, .ai] s (endAside s j st lane) := by
  unfold endAside
  repeat' first
    | with_reducible apply keepsBut.refl
    | with_reducible assumption
    | (show (_ : Bool) = true; decide)
    | with_reducible apply keepsBut.step (keeps_finishJob _ _ _)
    | with_reducible apply keepsBut.step (keeps_modJob _ _ _)
    | with_reducible apply keepsBut.ite
    | (intro _)
    | extract_lets
    | split
    | dsimp +zetaDelta only

theorem keeps_endHard (s : State) (j : Nat) (st : Status) :
    keepsBut [.units, .jobs, .serai, .mint, .house, .scales, .well, .relay, .ledger, .ai] s (endHard s j st) := by
  unfold endHard
  repeat' first
    | with_reducible apply keepsBut.refl
    | with_reducible assumption
    | (show (_ : Bool) = true; decide)
    | with_reducible apply keepsBut.step (keeps_dropWork _ _ _)
    | with_reducible apply keepsBut.step (keeps_modJob _ _ _)
    | with_reducible apply keepsBut.ite
    | (intro _)
    | extract_lets
    | split
    | dsimp +zetaDelta only

theorem keeps_lateStatus (s : State) (j : Nat) (st : Status) :
    keepsBut [.units, .jobs] s (lateStatus s j st) := by
  unfold lateStatus
  repeat' first
    | with_reducible apply keepsBut.refl
    | with_reducible assumption
    | (show (_ : Bool) = true; decide)
    | with_reducible apply keepsBut.step (keeps_modJob _ _ _)
    | with_reducible apply keepsBut.step (keeps_modUnit _ _ _)
    | with_reducible apply keepsBut.each
    | with_reducible apply keepsBut.ite
    | (intro _)
    | extract_lets
    | split
    | dsimp +zetaDelta only

theorem keeps_failJob (s : State) (j : Nat) (st : Status) :
    keepsBut [.units, .jobs, .serai, .mint, .house, .scales, .well, .relay, .ledger, .ai] s (failJob s j st) := by
  unfold failJob
  repeat' first
    | with_reducible apply keepsBut.refl
    | with_reducible assumption
    | (show (_ : Bool) = true; decide)
    | with_reducible apply keepsBut.step (keeps_modJob _ _ _)
    | with_reducible apply keepsBut.step (keeps_endHard _ _ _)
    | with_reducible apply keepsBut.step (keeps_lateStatus _ _ _)
    | with_reducible apply keepsBut.ite
    | (intro _)
    | extract_lets
    | split
    | dsimp +zetaDelta only

theorem keeps_requestFails (s : State) (who : ScWho) (n : Nat) (st : Status) :
    keepsBut [.units, .jobs, .serai, .mint, .house, .scales, .well, .relay, .ledger, .ai, .safe] s (requestFails s who n st) := by
  unfold requestFails
  repeat' first
    | with_reducible apply keepsBut.refl
    | with_reducible assumption
    | (show (_ : Bool) = true; decide)
    | with_reducible apply keepsBut.step (keeps_failJob _ _ _)
    | with_reducible apply keepsBut.step (keeps_internalFails _ _ _ _)
    | with_reducible apply keepsBut.ite
    | (intro _)
    | extract_lets
    | split
    | dsimp +zetaDelta only

theorem keeps_laneDraw (s : State) (cls l j n : Nat) :
    (laneDraw s cls l j n).keeps [.jobs, .well] s := by
  unfold laneDraw
  split
  · exact keepsBut.refl _ _
  · split
    · exact (keeps_wellDeny _).sub (by decide)
    · exact keepsBut.step (keeps_modJob _ _ _) (by decide) (keepsBut.step (keeps_askDraw _ _ _ _) (by decide) (keepsBut.refl _ _))

theorem step_laneDraw_denied {W : List Part} {s0 : State} {s : State} {cls l j n : Nat} {sn : State} (hEq : laneDraw s cls l j n = .denied sn)
    (hv : (List.all [.jobs, .well] fun p => W.contains p) = true) (h : keepsBut W s0 s) : keepsBut W s0 sn :=
  keepsBut.step (by have k := keeps_laneDraw s cls l j n; rw [hEq] at k; exact k) hv h

theorem step_laneDraw_waits {W : List Part} {s0 : State} {s : State} {cls l j n : Nat} {sn : State} (hEq : laneDraw s cls l j n = .waits sn)
    (hv : (List.all [.jobs, .well] fun p => W.contains p) = true) (h : keepsBut W s0 s) : keepsBut W s0 sn :=
  keepsBut.step (by have k := keeps_laneDraw s cls l j n; rw [hEq] at k; exact k) hv h

theorem step_laneDraw_got {W : List Part} {s0 : State} {s : State} {cls l j n : Nat} {bs0 : List Byte} {sn : State} (hEq : laneDraw s cls l j n = .got bs0 sn)
    (hv : (List.all [.jobs, .well] fun p => W.contains p) = true) (h : keepsBut W s0 s) : keepsBut W s0 sn :=
  keepsBut.step (by have k := keeps_laneDraw s cls l j n; rw [hEq] at k; exact k) hv h

theorem keeps_withDraw {W : List Part} {s0 s : State} (l j n : Nat) (k : List Byte → State → State)
    (hv : (List.all [.units, .jobs, .serai, .mint, .house, .scales, .well, .relay, .ledger, .ai] fun p => W.contains p) = true) (h : keepsBut W s0 s) (hk : ∀ bs t, keepsBut W s0 t → keepsBut W s0 (k bs t)) :
    keepsBut W s0 (withDraw s l j n k) := by
  have sub : ∀ V : List Part, (V.all fun p => ([.units, .jobs, .serai, .mint, .house, .scales, .well, .relay, .ledger, .ai] : List Part).contains p) = true → (V.all fun p => W.contains p) = true := by
    intro V hV
    simp only [List.all_eq_true, List.contains_iff_mem] at *
    exact fun p hp => hv p (hV p hp)
  unfold withDraw
  split
  · rename_i e
    exact keepsBut.step (keeps_endHard _ _ _) (sub _ (by decide)) (step_laneDraw_denied e (sub _ (by decide)) h)
  · rename_i e
    exact step_laneDraw_waits e (sub _ (by decide)) h
  · rename_i e
    exact hk _ _ (step_laneDraw_got e (sub _ (by decide)) h)

theorem keeps_goOn {α : Type} {W : List Part} {s0 s : State} (j : Nat) (r : Res α) (f : α → State)
    (hv : (List.all [.units, .jobs, .serai, .mint, .house, .scales, .well, .relay, .ledger, .ai, .ration] fun p => W.contains p) = true) (h : keepsBut W s0 s) (k : ∀ a, keepsBut W s0 (f a)) :
    keepsBut W s0 (goOn s j r f) := by
  unfold goOn
  repeat' first
    | with_reducible assumption
    | (with_reducible exact k _)
    | with_reducible apply keepsBut.step (keeps_endHard _ _ _)
    | with_reducible apply keepsBut.step (keeps_askManifest _ _)
    | with_reducible apply keepsBut.step (keeps_askBlock _ _)
    | with_reducible apply keepsBut.step (keeps_askNeeds _ _ _)
    | with_reducible apply keepsBut.refl
    | split
    | (refine List.all_eq_true.mpr (fun p hp => List.all_eq_true.mp hv p ?_); revert p; decide)
    | (show (_ : Bool) = true; decide)

theorem keeps_ltrRefresh (s : State) :
    keepsBut [.ai] s (ltrRefresh s) := by
  unfold ltrRefresh
  repeat' first
    | with_reducible apply keepsBut.refl
    | with_reducible assumption
    | (show (_ : Bool) = true; decide)
    | with_reducible apply keepsBut.step (keeps_proposeLtr _ _)
    | with_reducible apply keepsBut.ite
    | (intro _)
    | extract_lets
    | split
    | dsimp +zetaDelta only

theorem keeps_scanEnd (s : State) (r : Nat) (why : ScanStop) :
    keepsBut [.rings, .ai] s (scanEnd s r why) := by
  unfold scanEnd
  repeat' first
    | with_reducible apply keepsBut.refl
    | with_reducible assumption
    | (show (_ : Bool) = true; decide)
    | with_reducible apply keepsBut.step (keeps_withdraw _ _)
    | with_reducible apply keepsBut.step (keeps_upAi _ _)
    | with_reducible apply keepsBut.step (keeps_modRing _ _ _)
    | with_reducible apply keepsBut.ite
    | (intro _)
    | extract_lets
    | split
    | dsimp +zetaDelta only

theorem keeps_scanIssue (fuel : Nat) (s : State) (r : Nat) :
    keepsBut [.rings, .ai, .ration] s (scanIssue fuel s r) := by
  induction fuel generalizing s with
  | zero => exact keepsBut.refl _ _
  | succ fuel ih =>
    unfold scanIssue
    repeat' first
      | with_reducible apply keepsBut.refl
      | with_reducible assumption
      | (show (_ : Bool) = true; decide)
      | with_reducible apply keepsBut.step (ih _)
      | with_reducible apply keepsBut.step (keeps_modRing _ _ _)
      | with_reducible apply keepsBut.step (keeps_issueAccess _ _ _ _ _ _)
      | with_reducible apply keepsBut.each
      | with_reducible apply keepsBut.fold
      | with_reducible apply keepsBut.when
      | with_reducible apply keepsBut.ite
      | (intro _)
      | extract_lets
      | split
      | dsimp only
      | dsimp +zetaDelta only

theorem keeps_scanPump (s : State) (r : Nat) :
    keepsBut [.rings, .ai, .ration] s (scanPump s r) := by
  unfold scanPump
  repeat' first
    | with_reducible apply keepsBut.refl
    | with_reducible assumption
    | (show (_ : Bool) = true; decide)
    | with_reducible apply keepsBut.step (keeps_scanIssue _ _ _)
    | with_reducible apply keepsBut.ite
    | (intro _)
    | extract_lets
    | split
    | dsimp +zetaDelta only

theorem keeps_takeEntry (s : State) (r : Nat) (ws : List W64) :
    keepsBut [.rings, .jobs, .nextJob, .muster] s (takeEntry s r ws) :=
  ⟨rfl, fun p hp => by cases p <;> first | rfl | exact absurd (by decide) hp⟩

theorem keeps_scanDecide (fuel : Nat) (s : State) (r : Nat) :
    keepsBut [.rings, .jobs, .nextJob, .muster, .ai, .ration] s (scanDecide fuel s r) := by
  induction fuel generalizing s with
  | zero => exact keepsBut.refl _ _
  | succ fuel ih =>
    unfold scanDecide
    repeat' first
      | with_reducible apply keepsBut.refl
      | with_reducible assumption
      | (show (_ : Bool) = true; decide)
      | with_reducible apply keepsBut.step (ih _)
      | with_reducible apply keepsBut.step (keeps_modRing _ _ _)
      | with_reducible apply keepsBut.step (keeps_scanEnd _ _ _)
      | with_reducible apply keepsBut.step (keeps_scanPump _ _)
      | with_reducible apply keepsBut.step (keeps_takeEntry _ _ _)
      | with_reducible apply keepsBut.each
      | with_reducible apply keepsBut.fold
      | with_reducible apply keepsBut.when
      | with_reducible apply keepsBut.ite
      | (intro _)
      | extract_lets
      | split
      | dsimp only
      | dsimp +zetaDelta only

theorem keeps_scanHere (s : State) (r first : Nat) (bs : List Byte) :
    keepsBut [.rings, .jobs, .nextJob, .muster, .ai, .ration] s (scanHere s r first bs) := by
  unfold scanHere
  repeat' first
    | with_reducible apply keepsBut.refl
    | with_reducible assumption
    | (show (_ : Bool) = true; decide)
    | with_reducible apply keepsBut.step (keeps_modRing _ _ _)
    | with_reducible apply keepsBut.step (keeps_ltrRefresh _)
    | with_reducible apply keepsBut.step (keeps_scanDecide _ _ _)
    | with_reducible apply keepsBut.ite
    | (intro _)
    | extract_lets
    | split
    | dsimp +zetaDelta only

theorem keeps_scanBegin (s : State) (r : Nat) :
    keepsBut [.rings, .ai, .ration] s (scanBegin s r) := by
  unfold scanBegin
  repeat' first
    | with_reducible apply keepsBut.refl
    | with_reducible assumption
    | (show (_ : Bool) = true; decide)
    | with_reducible apply keepsBut.step (keeps_modRing _ _ _)
    | with_reducible apply keepsBut.step (keeps_scanEnd _ _ _)
    | with_reducible apply keepsBut.step (keeps_scanPump _ _)
    | with_reducible apply keepsBut.ite
    | (intro _)
    | extract_lets
    | split
    | dsimp +zetaDelta only

theorem keeps_scanGoesOn (s : State) (r : Nat) :
    keepsBut [.rings, .ai, .ration] s (scanGoesOn s r) := by
  unfold scanGoesOn
  repeat' first
    | with_reducible apply keepsBut.refl
    | with_reducible assumption
    | (show (_ : Bool) = true; decide)
    | with_reducible apply keepsBut.step (keeps_ltrRefresh _)
    | with_reducible apply keepsBut.step (keeps_scanBegin _ _)
    | with_reducible apply keepsBut.ite
    | (intro _)
    | extract_lets
    | split
    | dsimp +zetaDelta only

theorem keeps_ringBell (s : State) (r : Nat) :
    keepsBut [.rings, .ai] s (ringBell s r) := by
  unfold ringBell
  repeat' first
    | with_reducible apply keepsBut.refl
    | with_reducible assumption
    | (show (_ : Bool) = true; decide)
    | with_reducible apply keepsBut.step (keeps_ltrRefresh _)
    | with_reducible apply keepsBut.step (keeps_modRing _ _ _)
    | with_reducible apply keepsBut.ite
    | (intro _)
    | extract_lets
    | split
    | dsimp +zetaDelta only

theorem keeps_dropJobs (s : State) (js : List Nat) :
    keepsBut [.jobs, .muster] s (dropJobs s js) :=
  ⟨rfl, fun p hp => by cases p <;> first | rfl | exact absurd (by decide) hp⟩

theorem keeps_stopCheck (s : State) (r : Nat) :
    keepsBut [.rings] s (stopCheck s r) := by
  unfold stopCheck
  repeat' first
    | with_reducible apply keepsBut.refl
    | with_reducible assumption
    | (show (_ : Bool) = true; decide)
    | with_reducible apply keepsBut.step (keeps_modRing _ _ _)
    | with_reducible apply keepsBut.ite
    | (intro _)
    | extract_lets
    | split
    | dsimp +zetaDelta only

theorem keeps_tryPublish (s : State) (r : Nat) :
    keepsBut [.rings, .jobs, .muster, .ai, .ration] s (tryPublish s r) := by
  unfold tryPublish
  repeat' first
    | with_reducible apply keepsBut.refl
    | with_reducible assumption
    | (show (_ : Bool) = true; decide)
    | with_reducible apply keepsBut.step (keeps_modRing _ _ _)
    | with_reducible apply keepsBut.step (keeps_dropJobs _ _)
    | with_reducible apply keepsBut.step (keeps_issueAccess _ _ _ _ _ _)
    | with_reducible apply keepsBut.ite
    | (intro _)
    | extract_lets
    | split
    | dsimp +zetaDelta only

theorem keeps_ringMessage (s : State) (r : Nat) :
    keepsBut [.rings, .ai] s (ringMessage s r) := by
  unfold ringMessage
  repeat' first
    | with_reducible apply keepsBut.refl
    | with_reducible assumption
    | (show (_ : Bool) = true; decide)
    | with_reducible apply keepsBut.step (keeps_irq _ _)
    | with_reducible apply keepsBut.step (keeps_modRing _ _ _)
    | with_reducible apply keepsBut.ite
    | (intro _)
    | extract_lets
    | split
    | dsimp +zetaDelta only

theorem keeps_countAck (s : State) (r : Nat) :
    keepsBut [.rings, .jobs, .muster, .relay, .ai, .ration] s (countAck s r) := by
  unfold countAck
  repeat' first
    | with_reducible apply keepsBut.refl
    | with_reducible assumption
    | (show (_ : Bool) = true; decide)
    | with_reducible apply keepsBut.step (keeps_modRing _ _ _)
    | with_reducible apply keepsBut.step (keeps_ringMessage _ _)
    | with_reducible apply keepsBut.step (keeps_raise _ _)
    | with_reducible apply keepsBut.step (keeps_stopCheck _ _)
    | with_reducible apply keepsBut.step (keeps_tryPublish _ _)
    | with_reducible apply keepsBut.ite
    | (intro _)
    | extract_lets
    | split
    | dsimp +zetaDelta only

theorem keeps_ringFault (s : State) (r : Nat) (st : Status) (addr : W64) :
    keepsBut [.rings, .ledger, .ai] s (ringFault s r st addr) := by
  unfold ringFault
  repeat' first
    | with_reducible apply keepsBut.refl
    | with_reducible assumption
    | (show (_ : Bool) = true; decide)
    | with_reducible apply keepsBut.step (keeps_modRing _ _ _)
    | with_reducible apply keepsBut.step (keeps_scanEnd _ _ _)
    | with_reducible apply keepsBut.step (keeps_emit _ _ _ _ _)
    | with_reducible apply keepsBut.ite
    | (intro _)
    | extract_lets
    | split
    | dsimp +zetaDelta only

theorem keeps_manifestHere (s : State) (j b : Nat) (bs : List Byte) :
    keepsBut [.units, .jobs, .serai, .mint, .house, .scales, .well, .relay, .ledger, .ai, .ration] s (manifestHere s j b bs) := by
  unfold manifestHere
  repeat' first
    | with_reducible apply keepsBut.refl
    | with_reducible assumption
    | (show (_ : Bool) = true; decide)
    | with_reducible apply keepsBut.step (keeps_modJob _ _ _)
    | with_reducible apply keepsBut.step (keeps_failJob _ _ _)
    | with_reducible apply keepsBut.step (keeps_prefetch _ _)
    | with_reducible apply keepsBut.fold
    | with_reducible apply keepsBut.ite
    | (intro _)
    | extract_lets
    | split
    | dsimp +zetaDelta only

theorem keeps_jobDataHere (s : State) (j st off : Nat) (bs : List Byte) :
    keepsBut [.jobs] s (jobDataHere s j st off bs) := by
  unfold jobDataHere
  repeat' first
    | with_reducible apply keepsBut.refl
    | with_reducible assumption
    | (show (_ : Bool) = true; decide)
    | with_reducible apply keepsBut.step (keeps_modJob _ _ _)
    | with_reducible apply keepsBut.ite
    | (intro _)
    | extract_lets
    | split
    | dsimp +zetaDelta only

theorem keeps_requestHere (s : State) (r : Req) :
    keepsBut [.jobs] s (requestHere s r) := by
  unfold requestHere
  repeat' first
    | with_reducible apply keepsBut.refl
    | with_reducible assumption
    | (show (_ : Bool) = true; decide)
    | with_reducible apply keepsBut.step (keeps_jobDataHere _ _ _ _ _)
    | with_reducible apply keepsBut.ite
    | (intro _)
    | extract_lets
    | split
    | dsimp +zetaDelta only

theorem keeps_statusEnd (s : State) (j : Nat) (fail : Option Status) (addr : W64) :
    keepsBut [.rings, .jobs, .muster, .ledger, .ai, .ration] s (statusEnd s j fail addr) := by
  unfold statusEnd
  repeat' first
    | with_reducible apply keepsBut.refl
    | with_reducible assumption
    | (show (_ : Bool) = true; decide)
    | with_reducible apply keepsBut.step (keeps_stopCheck _ _)
    | with_reducible apply keepsBut.step (keeps_tryPublish _ _)
    | with_reducible apply keepsBut.step (keeps_modJob _ _ _)
    | with_reducible apply keepsBut.step (keeps_ringFault _ _ _ _)
    | with_reducible apply keepsBut.step (keeps_modRing _ _ _)
    | with_reducible apply keepsBut.ite
    | (intro _)
    | extract_lets
    | split
    | dsimp +zetaDelta only

theorem keeps_countEnd (s : State) (r : Nat) (bells : List Nat) (fail : Option Status) (addr : W64) :
    keepsBut [.rings, .jobs, .muster, .relay, .ledger, .ai, .ration] s (countEnd s r bells fail addr) := by
  unfold countEnd
  repeat' first
    | with_reducible apply keepsBut.refl
    | with_reducible assumption
    | (show (_ : Bool) = true; decide)
    | with_reducible apply keepsBut.step (keeps_countAck _ _)
    | with_reducible apply keepsBut.step (keeps_modRing _ _ _)
    | with_reducible apply keepsBut.step (keeps_ringFault _ _ _ _)
    | with_reducible apply keepsBut.ite
    | (intro _)
    | extract_lets
    | split
    | dsimp +zetaDelta only

theorem keeps_fillHere (s : State) (f : Nat) (bs : List Byte) (fail : Option Status) :
    keepsBut [.mint] s (fillHere s f bs fail) := by
  unfold fillHere
  repeat' first
    | with_reducible apply keepsBut.refl
    | with_reducible assumption
    | (show (_ : Bool) = true; decide)
    | with_reducible apply keepsBut.step (keeps_modFill _ _ _)
    | with_reducible apply keepsBut.ite
    | (intro _)
    | extract_lets
    | split
    | dsimp +zetaDelta only

theorem keeps_charterHere (s : State) (bs : List Byte) (fail : Option Status) :
    keepsBut [.mint, .scales] s (charterHere s bs fail) := by
  unfold charterHere
  repeat' first
    | with_reducible apply keepsBut.refl
    | with_reducible assumption
    | (show (_ : Bool) = true; decide)
    | with_reducible apply keepsBut.step (keeps_mintRefuse _ _ _ _)
    | with_reducible apply keepsBut.step (keeps_modCtx _ _ _)
    | with_reducible apply keepsBut.step (keeps_upMint _ _)
    | with_reducible apply keepsBut.ite
    | (intro _)
    | extract_lets
    | split
    | dsimp +zetaDelta only

theorem keeps_tallyHere (s : State) (bs : List Byte) (fail : Option Status) :
    keepsBut [.mint] s (tallyHere s bs fail) := by
  unfold tallyHere
  repeat' first
    | with_reducible apply keepsBut.refl
    | with_reducible assumption
    | (show (_ : Bool) = true; decide)
    | with_reducible apply keepsBut.step (keeps_upMint _ _)
    | with_reducible apply keepsBut.ite
    | (intro _)
    | extract_lets
    | split
    | dsimp +zetaDelta only

theorem keeps_tallyWritten (s : State) (fail : Option Status) :
    keepsBut [.mint] s (tallyWritten s fail) := by
  unfold tallyWritten
  repeat' first
    | with_reducible apply keepsBut.refl
    | with_reducible assumption
    | (show (_ : Bool) = true; decide)
    | with_reducible apply keepsBut.step (keeps_mintRefuse _ _ _ _)
    | with_reducible apply keepsBut.step (keeps_upMint _ _)
    | with_reducible apply keepsBut.ite
    | (intro _)
    | extract_lets
    | split
    | dsimp +zetaDelta only

theorem keeps_safeWritten (s : State) (fail : Option Status) :
    keepsBut [.safe] s (safeWritten s fail) := by
  unfold safeWritten
  repeat' first
    | with_reducible apply keepsBut.refl
    | with_reducible assumption
    | (show (_ : Bool) = true; decide)
    | with_reducible apply keepsBut.step (keeps_upSafe _ _)
    | with_reducible apply keepsBut.ite
    | (intro _)
    | extract_lets
    | split
    | dsimp +zetaDelta only

theorem keeps_putHere (s : State) (t : BitVec 12) (idx : BitVec 24) :
    keepsBut [.serai, .mint] s (putHere s t idx) := by
  unfold putHere
  repeat' first
    | with_reducible apply keepsBut.refl
    | with_reducible assumption
    | (show (_ : Bool) = true; decide)
    | with_reducible apply keepsBut.step (keeps_flushWhere _ _)
    | with_reducible apply keepsBut.step (keeps_upMint _ _)
    | with_reducible apply keepsBut.ite
    | (intro _)
    | extract_lets
    | split
    | dsimp +zetaDelta only

theorem keeps_deliver (s : State) (a : Access) :
    keepsBut [.units, .rings, .jobs, .nextJob, .muster, .serai, .mint, .house, .scales, .well, .tollgate, .porter, .relay, .ledger, .ai, .safe, .ration] s (deliver s a) := by
  unfold deliver
  repeat' first
    | with_reducible apply keepsBut.refl
    | with_reducible assumption
    | (show (_ : Bool) = true; decide)
    | with_reducible apply keepsBut.step (keeps_scanHere _ _ _ _)
    | with_reducible apply keepsBut.step (keeps_ringFault _ _ _ _)
    | with_reducible apply keepsBut.step (keeps_scanPump _ _)
    | with_reducible apply keepsBut.step (keeps_manifestHere _ _ _ _)
    | with_reducible apply keepsBut.step (keeps_failJob _ _ _)
    | with_reducible apply keepsBut.step (keeps_putHere _ _ _)
    | with_reducible apply keepsBut.step (keeps_upMint _ _)
    | with_reducible apply keepsBut.step (keeps_statusEnd _ _ _ _)
    | with_reducible apply keepsBut.step (keeps_countEnd _ _ _ _ _)
    | with_reducible apply keepsBut.step (keeps_fillHere _ _ _ _)
    | with_reducible apply keepsBut.step (keeps_charterHere _ _ _)
    | with_reducible apply keepsBut.step (keeps_tallyHere _ _ _)
    | with_reducible apply keepsBut.step (keeps_tallyWritten _ _)
    | with_reducible apply keepsBut.step (keeps_safeWritten _ _)
    | with_reducible apply keepsBut.step (keeps_ptIndexHere _ _ _ _ _)
    | with_reducible apply keepsBut.step (keeps_ptStop _ _ _ _ _)
    | with_reducible apply keepsBut.step (keeps_ptDataHere _ _ _ _ _ _)
    | with_reducible apply keepsBut.step (keeps_emit _ _ _ _ _)
    | with_reducible apply keepsBut.when
    | with_reducible apply keepsBut.ite
    | (intro _)
    | extract_lets
    | split
    | dsimp +zetaDelta only

theorem keeps_endPart (s : State) (id : Nat) (fail : Option (Nat × Status)) (cause : Nat) :
    keepsBut [.units, .rings, .jobs, .nextJob, .muster, .serai, .mint, .house, .scales, .well, .tollgate, .porter, .relay, .ledger, .ai, .safe, .ration] s (endPart s id fail cause) := by
  unfold endPart
  repeat' first
    | with_reducible apply keepsBut.refl
    | with_reducible assumption
    | (show (_ : Bool) = true; decide)
    | (with_reducible refine step_partEnd (by assumption) ?_ ?_)
    | with_reducible apply keepsBut.step (keeps_partEnd _ _ _ _)
    | with_reducible apply keepsBut.step (keeps_deliver _ _)
    | with_reducible apply keepsBut.ite
    | (intro _)
    | extract_lets
    | split
    | dsimp +zetaDelta only

theorem keeps_failQueued (s : State) (p : Req → Bool) (st : Status) :
    keepsBut [.units, .rings, .jobs, .nextJob, .muster, .serai, .mint, .house, .scales, .well, .tollgate, .porter, .relay, .ledger, .ai, .safe, .ration] s (failQueued s p st) := by
  unfold failQueued
  repeat' first
    | with_reducible apply keepsBut.refl
    | with_reducible assumption
    | (show (_ : Bool) = true; decide)
    | with_reducible apply keepsBut.step (keeps_modPort _ _ _)
    | with_reducible apply keepsBut.step (keeps_upAi _ _)
    | with_reducible apply keepsBut.step (keeps_endPart _ _ _ _)
    | with_reducible apply keepsBut.each
    | with_reducible apply keepsBut.fold
    | with_reducible apply keepsBut.ite
    | (intro _)
    | extract_lets
    | split
    | dsimp +zetaDelta only

theorem keeps_writeOff (s : State) (k tag : Nat) (r : Req) (cause : Nat) :
    keepsBut [.units, .rings, .jobs, .nextJob, .muster, .serai, .mint, .house, .scales, .well, .tollgate, .porter, .relay, .ledger, .ai, .safe, .ration] s (writeOff s k tag r cause) := by
  unfold writeOff
  repeat' first
    | with_reducible apply keepsBut.refl
    | with_reducible assumption
    | (show (_ : Bool) = true; decide)
    | with_reducible apply keepsBut.step (keeps_modPort _ _ _)
    | with_reducible apply keepsBut.step (keeps_emit _ _ _ _ _)
    | with_reducible apply keepsBut.step (keeps_endUse _ _ _)
    | with_reducible apply keepsBut.step (keeps_tgClear _ _)
    | with_reducible apply keepsBut.step (keeps_endPart _ _ _ _)
    | with_reducible apply keepsBut.ite
    | (intro _)
    | extract_lets
    | split
    | dsimp +zetaDelta only

theorem keeps_blowBit (s : State) (wb : Nat × Nat) :
    keepsBut [.fuse] s (blowBit s wb) := by
  unfold blowBit
  repeat' first
    | with_reducible apply keepsBut.refl
    | with_reducible assumption
    | (show (_ : Bool) = true; decide)
    | with_reducible apply keepsBut.step (keeps_upFuse _ _)
    | with_reducible apply keepsBut.ite
    | (intro _)
    | extract_lets
    | split
    | dsimp +zetaDelta only

theorem keeps_fuseRecord (s : State) (j : FuseJob) (result : W16) (blown : Nat) :
    keepsBut [.ledger] s (fuseRecord s j result blown) := by
  unfold fuseRecord
  repeat' first
    | with_reducible apply keepsBut.refl
    | with_reducible assumption
    | (show (_ : Bool) = true; decide)
    | with_reducible apply keepsBut.step (keeps_emit _ _ _ _ _)
    | with_reducible apply keepsBut.ite
    | (intro _)
    | extract_lets
    | split
    | dsimp +zetaDelta only

theorem keeps_genrootFails (s : State) :
    keepsBut [.ledger, .fuse] s (genrootFails s) := by
  unfold genrootFails
  repeat' first
    | with_reducible apply keepsBut.refl
    | with_reducible assumption
    | (show (_ : Bool) = true; decide)
    | with_reducible apply keepsBut.step (keeps_upFuse _ _)
    | with_reducible apply keepsBut.step (keeps_fuseRecord _ _ _ _)
    | with_reducible apply keepsBut.ite
    | (intro _)
    | extract_lets
    | split
    | dsimp +zetaDelta only

theorem keeps_fuseCut (s : State) :
    keepsBut [.fuse, .free] s (fuseCut s).2 := by
  unfold fuseCut
  repeat' first
    | with_reducible apply keepsBut.refl
    | with_reducible assumption
    | (show (_ : Bool) = true; decide)
    | with_reducible apply keepsBut.step (keeps_blowBit _ _)
    | with_reducible apply keepsBut.step (keeps_drewFree _ _)
    | with_reducible apply keepsBut.fold
    | with_reducible apply keepsBut.each
    | with_reducible apply keepsBut.fold
    | with_reducible apply keepsBut.when
    | with_reducible apply keepsBut.ite
    | (intro _)
    | extract_lets
    | split
    | dsimp only
    | dsimp +zetaDelta only

theorem step_fuseCut {W : List Part} {s0 : State} {s : State} {a : Nat} {sn : State}
    (hEq : fuseCut s = (a, sn)) (hv : (List.all [.fuse, .free] fun p => W.contains p) = true) (h : keepsBut W s0 s) :
    keepsBut W s0 sn :=
  keepsBut.step (by have k := keeps_fuseCut s; rw [hEq] at k; exact k) hv h

theorem keeps_fuseSensed (s : State) :
    keepsBut [.ledger, .fuse] s (fuseSensed s) := by
  unfold fuseSensed
  repeat' first
    | with_reducible apply keepsBut.refl
    | with_reducible assumption
    | (show (_ : Bool) = true; decide)
    | with_reducible apply keepsBut.step (keeps_upFuse _ _)
    | with_reducible apply keepsBut.step (keeps_emit _ _ _ _ _)
    | with_reducible apply keepsBut.when
    | with_reducible apply keepsBut.ite
    | (intro _)
    | extract_lets
    | split
    | dsimp +zetaDelta only

theorem keeps_watchRaise (s : State) (src : Nat) :
    keepsBut [.relay, .ai] s (watchRaise s src) := by
  unfold watchRaise
  repeat' first
    | with_reducible apply keepsBut.refl
    | with_reducible assumption
    | (show (_ : Bool) = true; decide)
    | with_reducible apply keepsBut.step (keeps_irqBlock _ _)
    | with_reducible apply keepsBut.step (keeps_raise _ _)
    | with_reducible apply keepsBut.when
    | with_reducible apply keepsBut.ite
    | (intro _)
    | extract_lets
    | split
    | dsimp +zetaDelta only

theorem keeps_aonLog (s : State) (cause : Nat) :
    keepsBut [.relay, .ai, .watch, .free] s (aonLog s cause) := by
  unfold aonLog
  repeat' first
    | with_reducible apply keepsBut.refl
    | with_reducible assumption
    | (show (_ : Bool) = true; decide)
    | with_reducible apply keepsBut.step (keeps_upWatch _ _)
    | with_reducible apply keepsBut.step (keeps_drewFree _ _)
    | with_reducible apply keepsBut.step (keeps_watchRaise _ _)
    | with_reducible apply keepsBut.ite
    | (intro _)
    | extract_lets
    | split
    | dsimp +zetaDelta only

theorem keeps_aonCopy (s : State) :
    keepsBut [.relay, .ledger, .ai, .watch] s (aonCopy s) := by
  unfold aonCopy
  repeat' first
    | with_reducible apply keepsBut.refl
    | with_reducible assumption
    | (show (_ : Bool) = true; decide)
    | with_reducible apply keepsBut.step (keeps_emit _ _ _ _ _)
    | with_reducible apply keepsBut.step (keeps_watchRaise _ _)
    | with_reducible apply keepsBut.step (keeps_upWatch _ _)
    | with_reducible apply keepsBut.fold
    | with_reducible apply keepsBut.when
    | with_reducible apply keepsBut.ite
    | (intro _)
    | extract_lets
    | split
    | dsimp +zetaDelta only

theorem keeps_modeSet (s : State) (new : Mode) (trigger : Nat) (port : Option CtlPort) :
    keepsBut [.relay, .ledger, .ai, .mode] s (modeSet s new trigger port) := by
  unfold modeSet
  extract_lets old s1 s2 s3
  have h2 : keepsBut [.relay, .ledger, .ai, .mode] s s2 :=
    keepsBut.step (keeps_emit _ _ _ _ _) (by decide) (keepsBut.step (keeps_upMode _ _) (by decide) (keepsBut.refl _ _))
  have h3 : keepsBut [.relay, .ledger, .ai, .mode] s s3 := by
    show keepsBut _ _ (match modeSource new with | some k => raise s2 k | none => s2)
    split
    · exact keepsBut.step (keeps_raise _ _) (by decide) h2
    · exact h2
  exact keepsBut.when h3 (fun _ h => keepsBut.step (keeps_irqBlock _ _) (by decide) h)

theorem keeps_scansEnd (s : State) :
    keepsBut [.rings, .ai] s (scansEnd s) := by
  unfold scansEnd
  repeat' first
    | with_reducible apply keepsBut.refl
    | with_reducible assumption
    | (show (_ : Bool) = true; decide)
    | with_reducible apply keepsBut.step (keeps_scanEnd _ _ _)
    | with_reducible apply keepsBut.each
    | with_reducible apply keepsBut.ite
    | (intro _)
    | extract_lets
    | split
    | dsimp +zetaDelta only

theorem keeps_leaveService (s : State) :
    keepsBut [.rings, .tollgate, .porter, .relay, .almanac, .ledger, .ai, .mode] s (leaveService s) := by
  unfold leaveService
  repeat' first
    | with_reducible apply keepsBut.refl
    | with_reducible assumption
    | (show (_ : Bool) = true; decide)
    | with_reducible apply keepsBut.step (keeps_withdraw _ _)
    | with_reducible apply keepsBut.step (keeps_scansEnd _)
    | with_reducible apply keepsBut.step (keeps_ptLeaveService _)
    | with_reducible apply keepsBut.step (keeps_upAlmanac _ _)
    | with_reducible apply keepsBut.step (keeps_upMode _ _)
    | with_reducible apply keepsBut.ite
    | (intro _)
    | extract_lets
    | split
    | dsimp +zetaDelta only

theorem keeps_endYokeless (s : State) :
    keepsBut [.units, .rings, .jobs, .lanes, .muster, .serai, .mint, .house, .scales, .well, .relay, .ledger, .ai] s (endYokeless s) := by
  unfold endYokeless
  repeat' first
    | with_reducible apply keepsBut.refl
    | with_reducible assumption
    | (show (_ : Bool) = true; decide)
    | with_reducible apply keepsBut.step (keeps_endAside _ _ _ _)
    | with_reducible apply keepsBut.each
    | with_reducible apply keepsBut.ite
    | (intro _)
    | extract_lets
    | split
    | dsimp +zetaDelta only

theorem keeps_enterService (s : State) :
    keepsBut [.units, .rings, .jobs, .lanes, .muster, .serai, .mint, .house, .scales, .well, .relay, .ledger, .ai, .safe, .ration] s (enterService s) := by
  unfold enterService
  repeat' first
    | with_reducible apply keepsBut.refl
    | with_reducible assumption
    | (show (_ : Bool) = true; decide)
    | with_reducible apply keepsBut.step (keeps_upRelay _ _)
    | with_reducible apply keepsBut.step (keeps_upSafe _ _)
    | with_reducible apply keepsBut.step (keeps_endYokeless _)
    | with_reducible apply keepsBut.step (keeps_scanBegin _ _)
    | with_reducible apply keepsBut.step (keeps_modRing _ _ _)
    | with_reducible apply keepsBut.step (keeps_ltrRefresh _)
    | with_reducible apply keepsBut.step (keeps_upMuster _ _)
    | with_reducible apply keepsBut.each
    | with_reducible apply keepsBut.ite
    | (intro _)
    | extract_lets
    | split
    | dsimp +zetaDelta only

theorem keeps_modeTo (s : State) (new : Mode) (trigger : Nat) (port : Option CtlPort) :
    keepsBut [.units, .rings, .jobs, .lanes, .muster, .serai, .mint, .house, .scales, .well, .tollgate, .porter, .relay, .almanac, .ledger, .ai, .mode, .safe, .watch, .ration] s (modeTo s new trigger port) := by
  unfold modeTo
  repeat' first
    | with_reducible apply keepsBut.refl
    | with_reducible assumption
    | (show (_ : Bool) = true; decide)
    | with_reducible apply keepsBut.step (keeps_modeSet _ _ _ _)
    | with_reducible apply keepsBut.step (keeps_leaveService _)
    | with_reducible apply keepsBut.step (keeps_tgClear _ _)
    | with_reducible apply keepsBut.step (keeps_aonCopy _)
    | with_reducible apply keepsBut.step (keeps_enterService _)
    | with_reducible apply keepsBut.step (keeps_ltrRefresh _)
    | with_reducible apply keepsBut.when
    | with_reducible apply keepsBut.ite
    | (intro _)
    | extract_lets
    | split
    | dsimp +zetaDelta only

theorem keeps_containRecord (s : State) (scope string trigger : Nat) :
    keepsBut [.ledger] s (containRecord s scope string trigger) := by
  unfold containRecord
  repeat' first
    | with_reducible apply keepsBut.refl
    | with_reducible assumption
    | (show (_ : Bool) = true; decide)
    | with_reducible apply keepsBut.step (keeps_emit _ _ _ _ _)
    | with_reducible apply keepsBut.ite
    | (intro _)
    | extract_lets
    | split
    | dsimp +zetaDelta only

theorem keeps_containBlock (s : State) (trigger : Nat) :
    keepsBut [.units, .rings, .jobs, .lanes, .muster, .serai, .mint, .house, .scales, .well, .tollgate, .porter, .relay, .almanac, .ledger, .ai, .mode, .safe, .watch, .ration] s (containBlock s trigger) := by
  unfold containBlock
  repeat' first
    | with_reducible apply keepsBut.refl
    | with_reducible assumption
    | (show (_ : Bool) = true; decide)
    | with_reducible apply keepsBut.step (keeps_modeTo _ _ _ _)
    | with_reducible apply keepsBut.step (keeps_containRecord _ _ _ _)
    | with_reducible apply keepsBut.step (keeps_upAi _ _)
    | with_reducible apply keepsBut.step (keeps_upMode _ _)
    | with_reducible apply keepsBut.ite
    | (intro _)
    | extract_lets
    | split
    | dsimp +zetaDelta only

theorem keeps_containString (s : State) (n trigger : Nat) :
    keepsBut [.rings, .relay, .ledger, .ai, .mode] s (containString s n trigger) := by
  unfold containString
  repeat' first
    | with_reducible apply keepsBut.refl
    | with_reducible assumption
    | (show (_ : Bool) = true; decide)
    | with_reducible apply keepsBut.step (keeps_upMode _ _)
    | with_reducible apply keepsBut.step (keeps_scanEnd _ _ _)
    | with_reducible apply keepsBut.step (keeps_containRecord _ _ _ _)
    | with_reducible apply keepsBut.step (keeps_irqBlock _ _)
    | with_reducible apply keepsBut.step (keeps_raise _ _)
    | with_reducible apply keepsBut.each
    | with_reducible apply keepsBut.when
    | with_reducible apply keepsBut.ite
    | (intro _)
    | extract_lets
    | split
    | dsimp +zetaDelta only

theorem keeps_recovStart (s : State) (v : Recov) :
    keepsBut [.rings, .relay, .ledger, .ai, .mode] s (recovStart s v) := by
  unfold recovStart
  repeat' first
    | with_reducible apply keepsBut.refl
    | with_reducible assumption
    | (show (_ : Bool) = true; decide)
    | with_reducible apply keepsBut.step (keeps_upMode _ _)
    | with_reducible apply keepsBut.step (keeps_emit _ _ _ _ _)
    | with_reducible apply keepsBut.step (keeps_raise _ _)
    | with_reducible apply keepsBut.step (keeps_scanEnd _ _ _)
    | with_reducible apply keepsBut.each
    | with_reducible apply keepsBut.ite
    | (intro _)
    | extract_lets
    | split
    | dsimp +zetaDelta only

theorem keeps_zeroizeJobs (s : State) :
    keepsBut [.jobs, .lanes, .muster, .ai] s (zeroizeJobs s) := by
  unfold zeroizeJobs
  extract_lets s1 s2
  refine keepsBut.step (keeps_upMuster _ _) (by decide) ?_
  have h1 : keepsBut [.jobs, .lanes, .muster, .ai] s s1 := keepsBut.step (keeps_withdraw _ _) (by decide) (keepsBut.refl _ _)
  exact h1.trans (keepsBut.mono (V := [.jobs, .lanes]) ⟨rfl, fun p hp => by cases p <;> first | rfl | exact absurd (by decide) hp⟩
    (by decide))

theorem keeps_zeroizeKeys (s : State) :
    keepsBut [.serai, .mint, .ledger] s (zeroizeKeys s) := by
  unfold zeroizeKeys
  repeat' first
    | with_reducible apply keepsBut.refl
    | with_reducible assumption
    | (show (_ : Bool) = true; decide)
    | with_reducible apply keepsBut.step (keeps_upSerai _ _)
    | with_reducible apply keepsBut.step (keeps_seraiWoff _ _ _)
    | with_reducible apply keepsBut.step (keeps_upMint _ _)
    | with_reducible apply keepsBut.ite
    | (intro _)
    | extract_lets
    | split
    | dsimp +zetaDelta only

theorem keeps_zeroizeBenches (s : State) :
    keepsBut [.units, .house, .well, .relay, .ledger, .ai] s (zeroizeBenches s) := by
  unfold zeroizeBenches
  repeat' first
    | with_reducible apply keepsBut.refl
    | with_reducible assumption
    | (show (_ : Bool) = true; decide)
    | with_reducible apply keepsBut.step (keeps_stopBench _ _ _)
    | with_reducible apply keepsBut.step (keeps_revokeLease _ _ _ _)
    | with_reducible apply keepsBut.step (keeps_modBench _ _ _)
    | with_reducible apply keepsBut.step (keeps_upHouse _ _)
    | with_reducible apply keepsBut.step (keeps_raise _ _)
    | with_reducible apply keepsBut.step (keeps_emit _ _ _ _ _)
    | with_reducible apply keepsBut.each
    | with_reducible apply keepsBut.fold
    | with_reducible apply keepsBut.when
    | with_reducible apply keepsBut.ite
    | (intro _)
    | extract_lets
    | split
    | dsimp +zetaDelta only

theorem keeps_zeroizeCtxs (s : State) :
    keepsBut [.scales, .well, .relay] s (zeroizeCtxs s) := by
  unfold zeroizeCtxs
  repeat' first
    | with_reducible apply keepsBut.refl
    | with_reducible assumption
    | (show (_ : Bool) = true; decide)
    | with_reducible apply keepsBut.step (keeps_stopCtx _ _)
    | with_reducible apply keepsBut.step (keeps_modCtx _ _ _)
    | with_reducible apply keepsBut.step (keeps_raise _ _)
    | with_reducible apply keepsBut.step (keeps_upScales _ _)
    | with_reducible apply keepsBut.each
    | with_reducible apply keepsBut.ite
    | (intro _)
    | extract_lets
    | split
    | dsimp +zetaDelta only

theorem keeps_zeroizeEngines (s : State) :
    keepsBut [.units, .house, .scales, .well, .relay, .ledger, .ai] s (zeroizeEngines s) := by
  unfold zeroizeEngines
  repeat' first
    | with_reducible apply keepsBut.refl
    | with_reducible assumption
    | (show (_ : Bool) = true; decide)
    | with_reducible apply keepsBut.step (keeps_upWell _ _)
    | with_reducible apply keepsBut.step (keeps_zeroizeCtxs _)
    | with_reducible apply keepsBut.step (keeps_zeroizeBenches _)
    | with_reducible apply keepsBut.ite
    | (intro _)
    | extract_lets
    | split
    | dsimp +zetaDelta only

theorem keeps_zeroizeFuse (s : State) :
    keepsBut [.ledger, .fuse, .free] s (zeroizeFuse s) := by
  unfold zeroizeFuse
  split
  · exact keepsBut.refl _ _
  · split
    rename_i e
    refine keepsBut.step (keeps_fuseSensed _) (by decide) (keepsBut.step (keeps_fuseRecord _ _ _ _) (by decide)
      (keepsBut.step (keeps_upFuse _ _) (by decide) ?_))
    exact step_fuseCut e (by decide) (keepsBut.refl _ _)

theorem keeps_safeEnd (s : State) (c : SafeCmd) (st : Status) :
    keepsBut [.house, .scales, .ledger, .safe] s (safeEnd s c st) := by
  unfold safeEnd
  repeat' first
    | with_reducible apply keepsBut.refl
    | with_reducible assumption
    | (show (_ : Bool) = true; decide)
    | with_reducible apply keepsBut.step (keeps_upHouse _ _)
    | with_reducible apply keepsBut.step (keeps_upScales _ _)
    | with_reducible apply keepsBut.step (keeps_upSafe _ _)
    | with_reducible apply keepsBut.step (keeps_emit _ _ _ _ _)
    | with_reducible apply keepsBut.ite
    | (intro _)
    | extract_lets
    | split
    | dsimp +zetaDelta only

theorem keeps_zeroizeSafe (s : State) :
    keepsBut [.house, .scales, .ledger, .safe] s (zeroizeSafe s) := by
  unfold zeroizeSafe
  repeat' first
    | with_reducible apply keepsBut.refl
    | with_reducible assumption
    | (show (_ : Bool) = true; decide)
    | with_reducible apply keepsBut.step (keeps_safeEnd _ _ _)
    | with_reducible apply keepsBut.ite
    | (intro _)
    | extract_lets
    | split
    | dsimp +zetaDelta only

theorem keeps_zeroizeAll (s : State) (causes : List Nat) :
    keepsBut [.units, .rings, .jobs, .lanes, .muster, .serai, .mint, .house, .scales, .well, .tollgate, .porter, .relay, .almanac, .ledger, .ai, .mode, .fuse, .safe, .watch, .free] s (zeroizeAll s causes) := by
  unfold zeroizeAll
  repeat' first
    | with_reducible apply keepsBut.refl
    | with_reducible assumption
    | (show (_ : Bool) = true; decide)
    | with_reducible apply keepsBut.step (keeps_aonLog _ _)
    | with_reducible apply keepsBut.step (keeps_upWatch _ _)
    | with_reducible apply keepsBut.step (keeps_watchRaise _ _)
    | with_reducible apply keepsBut.step (keeps_emit _ _ _ _ _)
    | with_reducible apply keepsBut.step (keeps_zeroizeSafe _)
    | with_reducible apply keepsBut.step (keeps_zeroizeFuse _)
    | with_reducible apply keepsBut.step (keeps_zeroizeEngines _)
    | with_reducible apply keepsBut.step (keeps_zeroizeKeys _)
    | with_reducible apply keepsBut.step (keeps_zeroizeJobs _)
    | with_reducible apply keepsBut.step (keeps_modeSet _ _ _ _)
    | with_reducible apply keepsBut.step (keeps_leaveService _)
    | with_reducible apply keepsBut.step (keeps_upMode _ _)
    | with_reducible apply keepsBut.step (keeps_ltrRefresh _)
    | with_reducible apply keepsBut.step (keeps_tgClear _ _)
    | with_reducible apply keepsBut.step (keeps_upAi _ _)
    | with_reducible apply keepsBut.fold
    | with_reducible apply keepsBut.when
    | with_reducible apply keepsBut.ite
    | (intro _)
    | extract_lets
    | split
    | dsimp +zetaDelta only

theorem keeps_holdSelfCheck (s : State) (b : Nat) :
    keepsBut [.relay, .ledger, .mode] s (holdSelfCheck s b) := by
  unfold holdSelfCheck
  repeat' first
    | with_reducible apply keepsBut.refl
    | with_reducible assumption
    | (show (_ : Bool) = true; decide)
    | with_reducible apply keepsBut.step (keeps_upMode _ _)
    | with_reducible apply keepsBut.step (keeps_raise _ _)
    | with_reducible apply keepsBut.step (keeps_emit _ _ _ _ _)
    | with_reducible apply keepsBut.ite
    | (intro _)
    | extract_lets
    | split
    | dsimp +zetaDelta only

theorem keeps_ownerKeys (s : State) :
    keepsBut [.mint] s (ownerKeys s) := by
  unfold ownerKeys
  repeat' first
    | with_reducible apply keepsBut.refl
    | with_reducible assumption
    | (show (_ : Bool) = true; decide)
    | with_reducible apply keepsBut.step (keeps_upMint _ _)
    | with_reducible apply keepsBut.ite
    | (intro _)
    | extract_lets
    | split
    | dsimp +zetaDelta only

theorem keeps_certUnit (sigs : Table (List Byte)) (s : State) (u : Nat) :
    keepsBut [.units, .safe] s (certUnit sigs s u) := by
  unfold certUnit
  repeat' first
    | with_reducible apply keepsBut.refl
    | with_reducible assumption
    | (show (_ : Bool) = true; decide)
    | with_reducible apply keepsBut.step (keeps_upSafe _ _)
    | with_reducible apply keepsBut.step (keeps_modUnit _ _ _)
    | with_reducible apply keepsBut.ite
    | (intro _)
    | extract_lets
    | split
    | dsimp +zetaDelta only

theorem keeps_buildStore (sigs : Table (List Byte)) (s : State) :
    keepsBut [.units, .safe] s (buildStore sigs s) := by
  unfold buildStore
  repeat' first
    | with_reducible apply keepsBut.refl
    | with_reducible assumption
    | (show (_ : Bool) = true; decide)
    | with_reducible apply keepsBut.step (keeps_certUnit _ _ _)
    | with_reducible apply keepsBut.step (keeps_upSafe _ _)
    | with_reducible apply keepsBut.each
    | with_reducible apply keepsBut.ite
    | (intro _)
    | extract_lets
    | split
    | dsimp +zetaDelta only

theorem keeps_selfSign (b c : Nat) (s : State) (u : Nat) :
    keepsBut [.units, .house, .scales, .well, .relay, .ai, .safe] s (selfSign b c s u) := by
  unfold selfSign
  repeat' first
    | with_reducible apply keepsBut.refl
    | with_reducible assumption
    | (show (_ : Bool) = true; decide)
    | (with_reducible refine step_wellTake (by assumption) ?_ ?_)
    | with_reducible apply keepsBut.step (keeps_wellTake _ _)
    | with_reducible apply keepsBut.step (keeps_benchEnded _ _ _ _)
    | with_reducible apply keepsBut.step (keeps_modBench _ _ _)
    | with_reducible apply keepsBut.step (keeps_modUnit _ _ _)
    | with_reducible apply keepsBut.step (keeps_modCtx _ _ _)
    | with_reducible apply keepsBut.step (keeps_ctxEnded _ _ _)
    | with_reducible apply keepsBut.step (keeps_upScales _ _)
    | with_reducible apply keepsBut.step (keeps_upSafe _ _)
    | with_reducible apply keepsBut.ite
    | (intro _)
    | extract_lets
    | split
    | dsimp +zetaDelta only

theorem keeps_selfSigns (s : State) :
    keepsBut [.units, .house, .scales, .well, .relay, .ai, .safe] s (selfSigns s) := by
  unfold selfSigns
  repeat' first
    | with_reducible apply keepsBut.refl
    | with_reducible assumption
    | (show (_ : Bool) = true; decide)
    | with_reducible apply keepsBut.step (keeps_selfSign _ _ _ _)
    | with_reducible apply keepsBut.each
    | with_reducible apply keepsBut.ite
    | (intro _)
    | extract_lets
    | split
    | dsimp +zetaDelta only

theorem keeps_selfStore (s : State) :
    keepsBut [.units, .safe] s (selfStore s) := by
  unfold selfStore
  repeat' first
    | with_reducible apply keepsBut.refl
    | with_reducible assumption
    | (show (_ : Bool) = true; decide)
    | with_reducible apply keepsBut.step (keeps_upSafe _ _)
    | with_reducible apply keepsBut.step (keeps_buildStore _ _)
    | with_reducible apply keepsBut.ite
    | (intro _)
    | extract_lets
    | split
    | dsimp +zetaDelta only

theorem keeps_fillUnitSlot (s : State) (slot : Nat) (r : SlotRec) (key : List Byte) :
    keepsBut [.serai] s (fillUnitSlot s slot r key) := by
  unfold fillUnitSlot
  repeat' first
    | with_reducible apply keepsBut.refl
    | with_reducible assumption
    | (show (_ : Bool) = true; decide)
    | with_reducible apply keepsBut.step (keeps_fillSlot _ _ _ _)
    | with_reducible apply keepsBut.ite
    | (intro _)
    | extract_lets
    | split
    | dsimp +zetaDelta only

theorem keeps_unitSlots (seeds : List (List Byte)) (s : State) :
    keepsBut [.serai] s (unitSlots seeds s) := by
  unfold unitSlots
  repeat' first
    | with_reducible apply keepsBut.refl
    | with_reducible assumption
    | (show (_ : Bool) = true; decide)
    | with_reducible apply keepsBut.step (keeps_fillUnitSlot _ _ _ _)
    | with_reducible apply keepsBut.each
    | with_reducible apply keepsBut.ite
    | (intro _)
    | extract_lets
    | split
    | dsimp +zetaDelta only

theorem keeps_unitKeys (s : State) :
    keepsBut [.serai, .mint] s (unitKeys s) := by
  unfold unitKeys
  repeat' first
    | with_reducible apply keepsBut.refl
    | with_reducible assumption
    | (show (_ : Bool) = true; decide)
    | with_reducible apply keepsBut.step (keeps_upMint _ _)
    | with_reducible apply keepsBut.step (keeps_unitSlots _ _)
    | with_reducible apply keepsBut.ite
    | (intro _)
    | extract_lets
    | split
    | dsimp +zetaDelta only

theorem keeps_boxCheck (s : State) :
    keepsBut [.ledger, .watch] s (boxCheck s) := by
  unfold boxCheck
  repeat' first
    | with_reducible apply keepsBut.refl
    | with_reducible assumption
    | (show (_ : Bool) = true; decide)
    | with_reducible apply keepsBut.step (keeps_emit _ _ _ _ _)
    | with_reducible apply keepsBut.step (keeps_upWatch _ _)
    | with_reducible apply keepsBut.ite
    | (intro _)
    | extract_lets
    | split
    | dsimp +zetaDelta only

theorem keeps_enterCold (s : State) :
    keepsBut [.tollgate, .relay, .ledger, .ai, .mode] s (enterCold s) := by
  unfold enterCold
  extract_lets s1
  have h1 : keepsBut [.tollgate, .relay, .ledger, .ai, .mode] s s1 := keepsBut.step (keeps_proposeLtr _ _) (by decide) (keepsBut.step (keeps_upMode _ _) (by decide) (keepsBut.refl _ _))
  exact keepsBut.ite (keepsBut.step (keeps_tgClear _ _) (by decide) (keepsBut.step (keeps_modeSet _ _ _ _) (by decide) h1)) h1

theorem keeps_senseSecret (s : State) (which : Nat) (t : List (Option (List Byte)) × Option (List Byte) × Nat) :
    keepsBut [.ledger] s (senseSecret s which t) := by
  unfold senseSecret
  refine keepsBut.ite ?_ (keepsBut.refl _ _)
  exact keepsBut.step (keeps_emit _ _ _ _ _) (by decide) (keepsBut.refl _ _)

theorem keeps_selfSteps (s : State) :
    keepsBut [.mint, .relay, .ledger, .mode, .watch] s (selfSteps s) := by
  unfold selfSteps
  repeat' first
    | with_reducible apply keepsBut.refl
    | with_reducible assumption
    | (show (_ : Bool) = true; decide)
    | with_reducible apply keepsBut.step (keeps_holdSelfCheck _ _)
    | with_reducible apply keepsBut.step (keeps_ownerKeys _)
    | with_reducible apply keepsBut.step (keeps_boxCheck _)
    | with_reducible apply keepsBut.when
    | with_reducible apply keepsBut.ite
    | (intro _)
    | extract_lets
    | split
    | dsimp +zetaDelta only

theorem keeps_seraiDraws (s : State) :
    keepsBut [.serai, .well] s (seraiDraws s) := by
  unfold seraiDraws
  repeat' first
    | with_reducible apply keepsBut.refl
    | with_reducible assumption
    | (show (_ : Bool) = true; decide)
    | (with_reducible refine step_wellTake (by assumption) ?_ ?_)
    | with_reducible apply keepsBut.step (keeps_wellTake _ _)
    | with_reducible apply keepsBut.step (keeps_upSerai _ _)
    | with_reducible apply keepsBut.ite
    | (intro _)
    | extract_lets
    | split
    | dsimp +zetaDelta only

theorem keeps_reconcile (s : State) (resource port start woff now : Nat) :
    keepsBut [.ledger] s (reconcile s resource port start woff now) := by
  unfold reconcile
  repeat' first
    | with_reducible apply keepsBut.refl
    | with_reducible assumption
    | (show (_ : Bool) = true; decide)
    | with_reducible apply keepsBut.step (keeps_emit _ _ _ _ _)
    | with_reducible apply keepsBut.ite
    | (intro _)
    | extract_lets
    | split
    | dsimp +zetaDelta only

theorem keeps_conserveFail (s : State) (resource port : Nat) (vals : List W32) :
    keepsBut [.ledger, .mode] s (conserveFail s resource port vals) := by
  unfold conserveFail
  repeat' first
    | with_reducible apply keepsBut.refl
    | with_reducible assumption
    | (show (_ : Bool) = true; decide)
    | with_reducible apply keepsBut.step (keeps_emit _ _ _ _ _)
    | with_reducible apply keepsBut.step (keeps_upMode _ _)
    | with_reducible apply keepsBut.ite
    | (intro _)
    | extract_lets
    | split
    | dsimp +zetaDelta only

theorem keeps_conserve (s : State) (resource port : Nat) (issued returned woff out : W32) :
    keepsBut [.ledger, .mode] s (conserve s resource port issued returned woff out) := by
  unfold conserve
  repeat' first
    | with_reducible apply keepsBut.refl
    | with_reducible assumption
    | (show (_ : Bool) = true; decide)
    | with_reducible apply keepsBut.step (keeps_conserveFail _ _ _ _)
    | with_reducible apply keepsBut.ite
    | (intro _)
    | extract_lets
    | split
    | dsimp +zetaDelta only

theorem keeps_checkPort (v : Recov) (s : State) (k : Nat) :
    keepsBut [.ledger, .mode] s (checkPort v s k) := by
  unfold checkPort
  repeat' first
    | with_reducible apply keepsBut.refl
    | with_reducible assumption
    | (show (_ : Bool) = true; decide)
    | with_reducible apply keepsBut.step (keeps_conserve _ _ _ _ _ _ _)
    | with_reducible apply keepsBut.step (keeps_reconcile _ _ _ _ _ _)
    | with_reducible apply keepsBut.ite
    | (intro _)
    | extract_lets
    | split
    | dsimp +zetaDelta only

theorem keeps_flushJob (s : State) (j : Nat) :
    keepsBut [.units, .rings, .jobs, .lanes, .muster, .serai, .mint, .house, .scales, .well, .relay, .ledger, .ai, .mode] s (flushJob s j) := by
  unfold flushJob
  repeat' first
    | with_reducible apply keepsBut.refl
    | with_reducible assumption
    | (show (_ : Bool) = true; decide)
    | with_reducible apply keepsBut.step (keeps_upMode _ _)
    | with_reducible apply keepsBut.step (keeps_endHard _ _ _)
    | with_reducible apply keepsBut.step (keeps_dropWork _ _ _)
    | with_reducible apply keepsBut.step (keeps_endAside _ _ _ _)
    | with_reducible apply keepsBut.ite
    | (intro _)
    | extract_lets
    | split
    | dsimp +zetaDelta only

theorem keeps_stepJobs (s : State) (v : Recov) :
    keepsBut [.units, .rings, .jobs, .lanes, .muster, .serai, .mint, .house, .scales, .well, .relay, .ledger, .ai, .mode] s (stepJobs s v) := by
  unfold stepJobs
  repeat' first
    | with_reducible apply keepsBut.refl
    | with_reducible assumption
    | (show (_ : Bool) = true; decide)
    | with_reducible apply keepsBut.step (keeps_flushJob _ _)
    | with_reducible apply keepsBut.each
    | with_reducible apply keepsBut.ite
    | (intro _)
    | extract_lets
    | split
    | dsimp +zetaDelta only

theorem keeps_ringWriteOff (s : State) (r : Nat) :
    keepsBut [.rings, .jobs, .muster] s (ringWriteOff s r) := by
  unfold ringWriteOff
  repeat' first
    | with_reducible apply keepsBut.refl
    | with_reducible assumption
    | (show (_ : Bool) = true; decide)
    | with_reducible apply keepsBut.step (keeps_dropJobs _ _)
    | with_reducible apply keepsBut.step (keeps_settle _ _)
    | with_reducible apply keepsBut.step (keeps_modRing _ _ _)
    | with_reducible apply keepsBut.each
    | with_reducible apply keepsBut.ite
    | (intro _)
    | extract_lets
    | split
    | dsimp +zetaDelta only

theorem keeps_endRing (v : Recov) (s : State) (ir : Nat × Nat) :
    keepsBut [.rings, .jobs, .muster, .ledger, .mode] s (endRing v s ir) := by
  unfold endRing
  repeat' first
    | with_reducible apply keepsBut.refl
    | with_reducible assumption
    | (show (_ : Bool) = true; decide)
    | with_reducible apply keepsBut.step (keeps_ringWriteOff _ _)
    | with_reducible apply keepsBut.step (keeps_conserve _ _ _ _ _ _ _)
    | with_reducible apply keepsBut.step (keeps_reconcile _ _ _ _ _ _)
    | with_reducible apply keepsBut.step (keeps_upMode _ _)
    | with_reducible apply keepsBut.ite
    | (intro _)
    | extract_lets
    | split
    | dsimp +zetaDelta only

theorem keeps_stepEntriesEnd (s : State) (v : Recov) :
    keepsBut [.rings, .jobs, .muster, .ledger, .mode] s (stepEntriesEnd s v) := by
  unfold stepEntriesEnd
  repeat' first
    | with_reducible apply keepsBut.refl
    | with_reducible assumption
    | (show (_ : Bool) = true; decide)
    | with_reducible apply keepsBut.step (keeps_endRing _ _ _)
    | with_reducible apply keepsBut.step (keeps_conserveFail _ _ _ _)
    | with_reducible apply keepsBut.step (keeps_conserve _ _ _ _ _ _ _)
    | with_reducible apply keepsBut.step (keeps_reconcile _ _ _ _ _ _)
    | with_reducible apply keepsBut.fold
    | with_reducible apply keepsBut.ite
    | (intro _)
    | extract_lets
    | split
    | dsimp +zetaDelta only

theorem keeps_leaseStep (s : State) (v : Recov) :
    keepsBut [.serai, .ledger] s (leaseStep s v).2 := by
  unfold leaseStep
  repeat' first
    | with_reducible apply keepsBut.refl
    | with_reducible assumption
    | (show (_ : Bool) = true; decide)
    | with_reducible apply keepsBut.step (keeps_upSerai _ _)
    | with_reducible apply keepsBut.step (keeps_modSlot _ _ _)
    | with_reducible apply keepsBut.step (keeps_seraiWoff _ _ _)
    | with_reducible apply keepsBut.fold
    | with_reducible apply keepsBut.each
    | with_reducible apply keepsBut.fold
    | with_reducible apply keepsBut.when
    | with_reducible apply keepsBut.ite
    | (intro _)
    | extract_lets
    | split
    | dsimp only
    | dsimp +zetaDelta only

theorem step_leaseStep {W : List Part} {s0 : State} {s : State} {v : Recov} {a : Nat} {sn : State}
    (hEq : leaseStep s v = (a, sn)) (hv : (List.all [.serai, .ledger] fun p => W.contains p) = true) (h : keepsBut W s0 s) :
    keepsBut W s0 sn :=
  keepsBut.step (by have k := keeps_leaseStep s v; rw [hEq] at k; exact k) hv h

theorem keeps_benchStep (s : State) (v : Recov) :
    keepsBut [.house, .ledger] s (benchStep s v).2 := by
  unfold benchStep
  repeat' first
    | with_reducible apply keepsBut.refl
    | with_reducible assumption
    | (show (_ : Bool) = true; decide)
    | with_reducible apply keepsBut.step (keeps_revokeLease _ _ _ _)
    | with_reducible apply keepsBut.each
    | with_reducible apply keepsBut.fold
    | with_reducible apply keepsBut.when
    | with_reducible apply keepsBut.ite
    | (intro _)
    | extract_lets
    | split
    | dsimp only
    | dsimp +zetaDelta only

theorem step_benchStep {W : List Part} {s0 : State} {s : State} {v : Recov} {a : Nat} {sn : State}
    (hEq : benchStep s v = (a, sn)) (hv : (List.all [.house, .ledger] fun p => W.contains p) = true) (h : keepsBut W s0 s) :
    keepsBut W s0 sn :=
  keepsBut.step (by have k := keeps_benchStep s v; rw [hEq] at k; exact k) hv h

theorem keeps_relayStep (s : State) (v : Recov) :
    keepsBut [.relay, .ledger] s (relayStep s v).2 := by
  unfold relayStep
  repeat' first
    | with_reducible apply keepsBut.refl
    | with_reducible assumption
    | (show (_ : Bool) = true; decide)
    | with_reducible apply keepsBut.step (keeps_sinkWriteOff _ _ _)
    | with_reducible apply keepsBut.each
    | with_reducible apply keepsBut.fold
    | with_reducible apply keepsBut.when
    | with_reducible apply keepsBut.ite
    | (intro _)
    | extract_lets
    | split
    | dsimp only
    | dsimp +zetaDelta only

theorem step_relayStep {W : List Part} {s0 : State} {s : State} {v : Recov} {a : Nat} {sn : State}
    (hEq : relayStep s v = (a, sn)) (hv : (List.all [.relay, .ledger] fun p => W.contains p) = true) (h : keepsBut W s0 s) :
    keepsBut W s0 sn :=
  keepsBut.step (by have k := keeps_relayStep s v; rw [hEq] at k; exact k) hv h

theorem keeps_setStart (s : State) (l : List Nat) :
    keepsBut [.mode] s (setStart s l) := by
  unfold setStart
  repeat' first
    | with_reducible apply keepsBut.refl
    | with_reducible assumption
    | (show (_ : Bool) = true; decide)
    | with_reducible apply keepsBut.step (keeps_upMode _ _)
    | with_reducible apply keepsBut.ite
    | (intro _)
    | extract_lets
    | split
    | dsimp +zetaDelta only

theorem keeps_stepBegin (s : State) (v : Recov) (n : Nat) :
    keepsBut [.units, .rings, .jobs, .lanes, .muster, .serai, .mint, .house, .scales, .well, .relay, .ledger, .ai, .mode, .ration] s (stepBegin s v n) := by
  unfold stepBegin
  repeat' first
    | with_reducible apply keepsBut.refl
    | with_reducible assumption
    | (show (_ : Bool) = true; decide)
    | with_reducible apply keepsBut.step (keeps_upMode _ _)
    | with_reducible apply keepsBut.step (keeps_setStart _ _)
    | with_reducible apply keepsBut.step (keeps_stepJobs _ _)
    | with_reducible apply keepsBut.step (keeps_tryPublish _ _)
    | (with_reducible refine step_leaseStep (by assumption) ?_ ?_)
    | with_reducible apply keepsBut.step (keeps_leaseStep _ _)
    | (with_reducible refine step_benchStep (by assumption) ?_ ?_)
    | with_reducible apply keepsBut.step (keeps_benchStep _ _)
    | (with_reducible refine step_relayStep (by assumption) ?_ ?_)
    | with_reducible apply keepsBut.step (keeps_relayStep _ _)
    | with_reducible apply keepsBut.each
    | with_reducible apply keepsBut.ite
    | (intro _)
    | extract_lets
    | split
    | dsimp +zetaDelta only

theorem keeps_creditWait (s : State) :
    keepsBut [.mode] s (creditWait s) := by
  unfold creditWait
  repeat' first
    | with_reducible apply keepsBut.refl
    | with_reducible assumption
    | (show (_ : Bool) = true; decide)
    | with_reducible apply keepsBut.step (keeps_upMode _ _)
    | with_reducible apply keepsBut.when
    | with_reducible apply keepsBut.ite
    | (intro _)
    | extract_lets
    | split
    | dsimp +zetaDelta only

theorem keeps_stepEnd (s : State) (v : Recov) :
    keepsBut [.rings, .jobs, .muster, .ledger, .mode] s (stepEnd s v) := by
  unfold stepEnd
  repeat' first
    | with_reducible apply keepsBut.refl
    | with_reducible assumption
    | (show (_ : Bool) = true; decide)
    | with_reducible apply keepsBut.step (keeps_checkPort _ _ _)
    | with_reducible apply keepsBut.step (keeps_stepEntriesEnd _ _)
    | with_reducible apply keepsBut.step (keeps_conserve _ _ _ _ _ _ _)
    | with_reducible apply keepsBut.step (keeps_reconcile _ _ _ _ _ _)
    | with_reducible apply keepsBut.step (keeps_upMode _ _)
    | with_reducible apply keepsBut.fold
    | with_reducible apply keepsBut.ite
    | (intro _)
    | extract_lets
    | split
    | dsimp +zetaDelta only

theorem keeps_thawRing (s : State) (r : Nat) :
    keepsBut [.rings] s (thawRing s r) := by
  unfold thawRing
  repeat' first
    | with_reducible apply keepsBut.refl
    | with_reducible assumption
    | (show (_ : Bool) = true; decide)
    | with_reducible apply keepsBut.step (keeps_modRing _ _ _)
    | with_reducible apply keepsBut.ite
    | (intro _)
    | extract_lets
    | split
    | dsimp +zetaDelta only

theorem keeps_recovEnd (s : State) (v : Recov) :
    keepsBut [.units, .rings, .jobs, .lanes, .muster, .serai, .mint, .house, .scales, .well, .tollgate, .porter, .relay, .almanac, .ledger, .ai, .mode, .safe, .watch, .ration] s (recovEnd s v) := by
  unfold recovEnd
  repeat' first
    | with_reducible apply keepsBut.refl
    | with_reducible assumption
    | (show (_ : Bool) = true; decide)
    | with_reducible apply keepsBut.step (keeps_upMode _ _)
    | with_reducible apply keepsBut.step (keeps_thawRing _ _)
    | with_reducible apply keepsBut.step (keeps_emit _ _ _ _ _)
    | with_reducible apply keepsBut.step (keeps_raise _ _)
    | with_reducible apply keepsBut.step (keeps_upAi _ _)
    | with_reducible apply keepsBut.step (keeps_modeTo _ _ _ _)
    | with_reducible apply keepsBut.step (keeps_ltrRefresh _)
    | with_reducible apply keepsBut.step (keeps_scanGoesOn _ _)
    | with_reducible apply keepsBut.each
    | with_reducible apply keepsBut.when
    | with_reducible apply keepsBut.ite
    | (intro _)
    | extract_lets
    | split
    | dsimp +zetaDelta only

theorem keeps_drainRecover (s : State) :
    keepsBut [.units, .rings, .jobs, .lanes, .muster, .serai, .mint, .house, .scales, .well, .tollgate, .porter, .relay, .almanac, .ledger, .ai, .mode, .safe, .watch, .ration] s (drainRecover s) := by
  unfold drainRecover
  repeat' first
    | with_reducible apply keepsBut.refl
    | with_reducible assumption
    | (show (_ : Bool) = true; decide)
    | with_reducible apply keepsBut.step (keeps_recovStart _ _)
    | with_reducible apply keepsBut.step (keeps_modeTo _ _ _ _)
    | with_reducible apply keepsBut.ite
    | (intro _)
    | extract_lets
    | split
    | dsimp +zetaDelta only

theorem keeps_reinsRecord (s : State) (p : CtlPort) (event : Nat) (nonce : W32) :
    keepsBut [.ledger] s (reinsRecord s p event nonce) := by
  unfold reinsRecord
  repeat' first
    | with_reducible apply keepsBut.refl
    | with_reducible assumption
    | (show (_ : Bool) = true; decide)
    | with_reducible apply keepsBut.step (keeps_emit _ _ _ _ _)
    | with_reducible apply keepsBut.ite
    | (intro _)
    | extract_lets
    | split
    | dsimp +zetaDelta only

theorem keeps_mdRefuse (s : State) (p : CtlPort) (st : Status) (data : Nat) :
    keepsBut [.relay, .ledger, .mode] s (mdRefuse s p st data) := by
  unfold mdRefuse
  repeat' first
    | with_reducible apply keepsBut.refl
    | with_reducible assumption
    | (show (_ : Bool) = true; decide)
    | with_reducible apply keepsBut.step (keeps_upMode _ _)
    | with_reducible apply keepsBut.step (keeps_raise _ _)
    | with_reducible apply keepsBut.step (keeps_reinsRecord _ _ _ _)
    | with_reducible apply keepsBut.step (keeps_refuseCmd _ _ _ _ _)
    | with_reducible apply keepsBut.when
    | with_reducible apply keepsBut.ite
    | (intro _)
    | extract_lets
    | split
    | dsimp +zetaDelta only

theorem keeps_mdAccept (s : State) :
    keepsBut [.mode] s (mdAccept s) := by
  unfold mdAccept
  repeat' first
    | with_reducible apply keepsBut.refl
    | with_reducible assumption
    | (show (_ : Bool) = true; decide)
    | with_reducible apply keepsBut.step (keeps_upMode _ _)
    | with_reducible apply keepsBut.ite
    | (intro _)
    | extract_lets
    | split
    | dsimp +zetaDelta only

theorem keeps_recovNext (s : State) (v : Recov) :
    keepsBut [.units, .rings, .jobs, .lanes, .muster, .serai, .mint, .house, .scales, .well, .tollgate, .porter, .relay, .almanac, .ledger, .ai, .mode, .safe, .watch, .ration] s (recovNext s v) := by
  unfold recovNext
  repeat' first
    | with_reducible apply keepsBut.refl
    | with_reducible assumption
    | (show (_ : Bool) = true; decide)
    | with_reducible apply keepsBut.step (keeps_stepEnd _ _)
    | with_reducible apply keepsBut.step (keeps_upMode _ _)
    | with_reducible apply keepsBut.step (keeps_upAi _ _)
    | with_reducible apply keepsBut.step (keeps_containRecord _ _ _ _)
    | with_reducible apply keepsBut.step (keeps_modeTo _ _ _ _)
    | with_reducible apply keepsBut.step (keeps_drainRecover _)
    | with_reducible apply keepsBut.step (keeps_recovEnd _ _)
    | with_reducible apply keepsBut.step (keeps_stepBegin _ _ _)
    | with_reducible apply keepsBut.ite
    | (intro _)
    | extract_lets
    | split
    | dsimp +zetaDelta only

theorem keeps_ringRefuse (s : State) (p : CtlPort) (r : Nat) (st : Status) (op : Nat) :
    keepsBut [.rings, .ledger] s (ringRefuse s p r st op) := by
  unfold ringRefuse
  repeat' first
    | with_reducible apply keepsBut.refl
    | with_reducible assumption
    | (show (_ : Bool) = true; decide)
    | with_reducible apply keepsBut.step (keeps_refuseCmd _ _ _ _ _)
    | with_reducible apply keepsBut.step (keeps_modRing _ _ _)
    | with_reducible apply keepsBut.ite
    | (intro _)
    | extract_lets
    | split
    | dsimp +zetaDelta only

theorem keeps_freezeRing (s : State) (r : Nat) :
    keepsBut [.rings, .ai] s (freezeRing s r) := by
  unfold freezeRing
  repeat' first
    | with_reducible apply keepsBut.refl
    | with_reducible assumption
    | (show (_ : Bool) = true; decide)
    | with_reducible apply keepsBut.step (keeps_modRing _ _ _)
    | with_reducible apply keepsBut.step (keeps_scanEnd _ _ _)
    | with_reducible apply keepsBut.ite
    | (intro _)
    | extract_lets
    | split
    | dsimp +zetaDelta only

theorem keeps_resetJob (s : State) (j : Nat) :
    keepsBut [.units, .rings, .jobs, .lanes, .muster, .serai, .mint, .house, .scales, .well, .relay, .ledger, .ai] s (resetJob s j) := by
  unfold resetJob
  repeat' first
    | with_reducible apply keepsBut.refl
    | with_reducible assumption
    | (show (_ : Bool) = true; decide)
    | with_reducible apply keepsBut.step (keeps_modJob _ _ _)
    | with_reducible apply keepsBut.step (keeps_orphanReads _ _)
    | with_reducible apply keepsBut.step (keeps_dropWork _ _ _)
    | with_reducible apply keepsBut.step (keeps_finishJob _ _ _)
    | with_reducible apply keepsBut.step (keeps_settle _ _)
    | with_reducible apply keepsBut.ite
    | (intro _)
    | extract_lets
    | split
    | dsimp +zetaDelta only

theorem keeps_resetBenches (s : State) (r : Nat) :
    keepsBut [.jobs, .serai, .house, .relay, .ledger] s (resetBenches s r) := by
  unfold resetBenches
  repeat' first
    | with_reducible apply keepsBut.refl
    | with_reducible assumption
    | (show (_ : Bool) = true; decide)
    | with_reducible apply keepsBut.step (keeps_wipeBench _ _ _)
    | with_reducible apply keepsBut.each
    | with_reducible apply keepsBut.ite
    | (intro _)
    | extract_lets
    | split
    | dsimp +zetaDelta only

theorem keeps_ringResetBegin (s : State) (r : Nat) :
    keepsBut [.units, .rings, .jobs, .lanes, .muster, .serai, .mint, .house, .scales, .well, .relay, .ledger, .ai] s (ringResetBegin s r) := by
  unfold ringResetBegin
  repeat' first
    | with_reducible apply keepsBut.refl
    | with_reducible assumption
    | (show (_ : Bool) = true; decide)
    | with_reducible apply keepsBut.step (keeps_scanEnd _ _ _)
    | with_reducible apply keepsBut.step (keeps_modRing _ _ _)
    | with_reducible apply keepsBut.step (keeps_resetJob _ _)
    | with_reducible apply keepsBut.step (keeps_withdraw _ _)
    | with_reducible apply keepsBut.step (keeps_ltrRefresh _)
    | with_reducible apply keepsBut.step (keeps_resetBenches _ _)
    | with_reducible apply keepsBut.each
    | with_reducible apply keepsBut.ite
    | (intro _)
    | extract_lets
    | split
    | dsimp +zetaDelta only

theorem keeps_flrCheck (s : State) (func : W16) :
    keepsBut [.ai] s (flrCheck s func) := by
  unfold flrCheck
  repeat' first
    | with_reducible apply keepsBut.refl
    | with_reducible assumption
    | (show (_ : Bool) = true; decide)
    | with_reducible apply keepsBut.step (keeps_upAi _ _)
    | with_reducible apply keepsBut.ite
    | (intro _)
    | extract_lets
    | split
    | dsimp +zetaDelta only

theorem keeps_linkState (s : State) (cause : Nat) :
    keepsBut [.ledger, .ai] s (linkState s cause) := by
  unfold linkState
  repeat' first
    | with_reducible apply keepsBut.refl
    | with_reducible assumption
    | (show (_ : Bool) = true; decide)
    | with_reducible apply keepsBut.step (keeps_irqBlock _ _)
    | with_reducible apply keepsBut.step (keeps_emit _ _ _ _ _)
    | with_reducible apply keepsBut.when
    | with_reducible apply keepsBut.ite
    | (intro _)
    | extract_lets
    | split
    | dsimp +zetaDelta only

theorem keeps_markLost (s : State) :
    keepsBut [.ai] s (markLost s) := by
  unfold markLost
  repeat' first
    | with_reducible apply keepsBut.refl
    | with_reducible assumption
    | (show (_ : Bool) = true; decide)
    | with_reducible apply keepsBut.step (keeps_modPort _ _ _)
    | with_reducible apply keepsBut.each
    | with_reducible apply keepsBut.ite
    | (intro _)
    | extract_lets
    | split
    | dsimp +zetaDelta only

theorem keeps_containHost (s : State) :
    keepsBut [.relay, .ledger, .ai, .mode] s (containHost s) := by
  unfold containHost
  repeat' first
    | with_reducible apply keepsBut.refl
    | with_reducible assumption
    | (show (_ : Bool) = true; decide)
    | with_reducible apply keepsBut.step (keeps_upMode _ _)
    | with_reducible apply keepsBut.step (keeps_irqBlock _ _)
    | with_reducible apply keepsBut.step (keeps_raise _ _)
    | with_reducible apply keepsBut.step (keeps_containRecord _ _ _ _)
    | with_reducible apply keepsBut.when
    | with_reducible apply keepsBut.ite
    | (intro _)
    | extract_lets
    | split
    | dsimp +zetaDelta only

theorem keeps_flrRing (s : State) (r : Nat) :
    keepsBut [.units, .rings, .jobs, .lanes, .muster, .serai, .mint, .house, .scales, .well, .relay, .ledger, .ai] s (flrRing s r) := by
  unfold flrRing
  repeat' first
    | with_reducible apply keepsBut.refl
    | with_reducible assumption
    | (show (_ : Bool) = true; decide)
    | with_reducible apply keepsBut.step (keeps_modRing _ _ _)
    | with_reducible apply keepsBut.step (keeps_ringResetBegin _ _)
    | with_reducible apply keepsBut.ite
    | (intro _)
    | extract_lets
    | split
    | dsimp +zetaDelta only

theorem keeps_askRest (s : State) (func : W16) :
    keepsBut [.ai] s (askRest s func) := by
  unfold askRest
  repeat' first
    | with_reducible apply keepsBut.refl
    | with_reducible assumption
    | (show (_ : Bool) = true; decide)
    | with_reducible apply keepsBut.step (keeps_atsAsk _ _)
    | with_reducible apply keepsBut.fold
    | with_reducible apply keepsBut.ite
    | (intro _)
    | extract_lets
    | split
    | dsimp +zetaDelta only

theorem keeps_invalidate (s : State) (itag : Option (BitVec 5)) (v : InvScope) :
    keepsBut [.ai] s (invalidate s itag v) := by
  unfold invalidate
  repeat' first
    | with_reducible apply keepsBut.refl
    | with_reducible assumption
    | (show (_ : Bool) = true; decide)
    | with_reducible apply keepsBut.step (keeps_upAi _ _)
    | with_reducible apply keepsBut.step (keeps_modPort _ _ _)
    | with_reducible apply keepsBut.step (keeps_translate _ _)
    | with_reducible apply keepsBut.each
    | with_reducible apply keepsBut.fold
    | with_reducible apply keepsBut.ite
    | (intro _)
    | extract_lets
    | split
    | dsimp +zetaDelta only

theorem keeps_atcCommand (s : State) (p : CtlPort) (word : Nat) (func : Option W16) :
    keepsBut [.ledger, .ai] s (atcCommand s p word func) := by
  unfold atcCommand
  repeat' first
    | with_reducible apply keepsBut.refl
    | with_reducible assumption
    | (show (_ : Bool) = true; decide)
    | with_reducible apply keepsBut.step (keeps_refuseCmd _ _ _ _ _)
    | with_reducible apply keepsBut.step (keeps_atcCommandEnd _)
    | with_reducible apply keepsBut.step (keeps_invalidate _ _ _)
    | with_reducible apply keepsBut.step (keeps_upAi _ _)
    | with_reducible apply keepsBut.ite
    | (intro _)
    | extract_lets
    | split
    | dsimp +zetaDelta only

theorem keeps_askNext (s : State) :
    keepsBut [.ai] s (askNext s) := by
  unfold askNext
  repeat' first
    | with_reducible apply keepsBut.refl
    | with_reducible assumption
    | (show (_ : Bool) = true; decide)
    | with_reducible apply keepsBut.step (keeps_atsAsk _ _)
    | with_reducible apply keepsBut.ite
    | (intro _)
    | extract_lets
    | split
    | dsimp +zetaDelta only

theorem keeps_askAgain (s : State) (q : AtsReq) :
    keepsBut [.ai] s (askAgain s q) := by
  unfold askAgain
  repeat' first
    | with_reducible apply keepsBut.refl
    | with_reducible assumption
    | (show (_ : Bool) = true; decide)
    | with_reducible apply keepsBut.step (keeps_upAi _ _)
    | with_reducible apply keepsBut.ite
    | (intro _)
    | extract_lets
    | split
    | dsimp +zetaDelta only

theorem keeps_atsDeny (s : State) (q : AtsReq) (p : Req → Bool) :
    keepsBut [.units, .rings, .jobs, .nextJob, .muster, .serai, .mint, .house, .scales, .well, .tollgate, .porter, .relay, .ledger, .ai, .safe, .ration] s (atsDeny s q p) := by
  unfold atsDeny
  repeat' first
    | with_reducible apply keepsBut.refl
    | with_reducible assumption
    | (show (_ : Bool) = true; decide)
    | with_reducible apply keepsBut.step (keeps_upAi _ _)
    | with_reducible apply keepsBut.step (keeps_emit _ _ _ _ _)
    | with_reducible apply keepsBut.step (keeps_failQueued _ _ _)
    | with_reducible apply keepsBut.ite
    | (intro _)
    | extract_lets
    | split
    | dsimp +zetaDelta only

theorem keeps_responseEnd (s : State) (k : Nat) (r : Req) :
    keepsBut [.units, .rings, .jobs, .nextJob, .muster, .serai, .mint, .house, .scales, .well, .tollgate, .porter, .relay, .ledger, .ai, .safe, .ration] s (responseEnd s k r) := by
  unfold responseEnd
  repeat' first
    | with_reducible apply keepsBut.refl
    | with_reducible assumption
    | (show (_ : Bool) = true; decide)
    | with_reducible apply keepsBut.step (keeps_modPort _ _ _)
    | with_reducible apply keepsBut.step (keeps_endPart _ _ _ _)
    | with_reducible apply keepsBut.step (keeps_requestHere _ _)
    | with_reducible apply keepsBut.step (keeps_pump _)
    | with_reducible apply keepsBut.step (keeps_tgClear _ _)
    | with_reducible apply keepsBut.ite
    | (intro _)
    | extract_lets
    | split
    | dsimp +zetaDelta only

theorem keeps_rtRefuse (s : State) (p : CtlPort) (keep : Bool) (st : Status) (word : Nat) :
    keepsBut [.routes, .ledger] s (rtRefuse s p keep st word) := by
  unfold rtRefuse
  repeat' first
    | with_reducible apply keepsBut.refl
    | with_reducible assumption
    | (show (_ : Bool) = true; decide)
    | with_reducible apply keepsBut.step (keeps_refuseCmd _ _ _ _ _)
    | with_reducible apply keepsBut.step (keeps_upRoutes _ _)
    | with_reducible apply keepsBut.ite
    | (intro _)
    | extract_lets
    | split
    | dsimp +zetaDelta only

theorem keeps_routeClear (s : State) (n : Nat) :
    keepsBut [.routes] s (routeClear s n) := by
  unfold routeClear
  repeat' first
    | with_reducible apply keepsBut.refl
    | with_reducible assumption
    | (show (_ : Bool) = true; decide)
    | with_reducible apply keepsBut.step (keeps_modRoute _ _ _)
    | with_reducible apply keepsBut.ite
    | (intro _)
    | extract_lets
    | split
    | dsimp +zetaDelta only

theorem keeps_slotSet (s : State) (route slot : Nat) (insn : W64) :
    keepsBut [.routes] s (slotSet s route slot insn) := by
  unfold slotSet
  repeat' first
    | with_reducible apply keepsBut.refl
    | with_reducible assumption
    | (show (_ : Bool) = true; decide)
    | with_reducible apply keepsBut.step (keeps_modRoute _ _ _)
    | with_reducible apply keepsBut.step (keeps_upRoutes _ _)
    | with_reducible apply keepsBut.ite
    | (intro _)
    | extract_lets
    | split
    | dsimp +zetaDelta only

theorem keeps_quarantineLeaf (s : State) (u : Nat) :
    keepsBut [.units, .lanes] s (quarantineLeaf s u) := by
  unfold quarantineLeaf
  repeat' first
    | with_reducible apply keepsBut.refl
    | with_reducible assumption
    | (show (_ : Bool) = true; decide)
    | with_reducible apply keepsBut.step (keeps_modUnit _ _ _)
    | with_reducible apply keepsBut.step (keeps_modLane _ _ _)
    | with_reducible apply keepsBut.ite
    | (intro _)
    | extract_lets
    | split
    | dsimp +zetaDelta only

theorem keeps_releaseLeaf (s : State) (u : Nat) :
    keepsBut [.units, .lanes, .house] s (releaseLeaf s u) := by
  unfold releaseLeaf
  repeat' first
    | with_reducible apply keepsBut.refl
    | with_reducible assumption
    | (show (_ : Bool) = true; decide)
    | with_reducible apply keepsBut.step (keeps_modUnit _ _ _)
    | with_reducible apply keepsBut.step (keeps_modLane _ _ _)
    | with_reducible apply keepsBut.step (keeps_modBench _ _ _)
    | with_reducible apply keepsBut.ite
    | (intro _)
    | extract_lets
    | split
    | dsimp +zetaDelta only

theorem keeps_setQuarantine (s : State) (u : Nat) (v : Bool) :
    keepsBut [.units, .lanes, .house] s (setQuarantine s u v) := by
  unfold setQuarantine
  repeat' first
    | with_reducible apply keepsBut.refl
    | with_reducible assumption
    | (show (_ : Bool) = true; decide)
    | with_reducible apply keepsBut.step (keeps_quarantineLeaf _ _)
    | with_reducible apply keepsBut.step (keeps_releaseLeaf _ _)
    | with_reducible apply keepsBut.each
    | with_reducible apply keepsBut.ite
    | (intro _)
    | extract_lets
    | split
    | dsimp +zetaDelta only

theorem keeps_writeQuarantine (s : State) (p : CtlPort) (u : Nat) (v : Bool) :
    keepsBut [.units, .lanes, .house, .ledger] s (writeQuarantine s p u v) := by
  unfold writeQuarantine
  repeat' first
    | with_reducible apply keepsBut.refl
    | with_reducible assumption
    | (show (_ : Bool) = true; decide)
    | with_reducible apply keepsBut.step (keeps_setQuarantine _ _ _)
    | with_reducible apply keepsBut.step (keeps_regAccess _ _ _ _ _ _)
    | with_reducible apply keepsBut.ite
    | (intro _)
    | extract_lets
    | split
    | dsimp +zetaDelta only

theorem keeps_setEnable (s : State) (u : Nat) (v : Bool) :
    keepsBut [.units] s (setEnable s u v) := by
  unfold setEnable
  repeat' first
    | with_reducible apply keepsBut.refl
    | with_reducible assumption
    | (show (_ : Bool) = true; decide)
    | with_reducible apply keepsBut.step (keeps_modUnit _ _ _)
    | with_reducible apply keepsBut.ite
    | (intro _)
    | extract_lets
    | split
    | dsimp +zetaDelta only

theorem keeps_writeCtrl (s : State) (p : CtlPort) (u : Nat) (word : W32) :
    keepsBut [.units, .lanes, .house, .ledger] s (writeCtrl s p u word) := by
  unfold writeCtrl
  repeat' first
    | with_reducible apply keepsBut.refl
    | with_reducible assumption
    | (show (_ : Bool) = true; decide)
    | with_reducible apply keepsBut.step (keeps_setEnable _ _ _)
    | with_reducible apply keepsBut.step (keeps_modUnit _ _ _)
    | with_reducible apply keepsBut.step (keeps_setQuarantine _ _ _)
    | with_reducible apply keepsBut.step (keeps_regAccess _ _ _ _ _ _)
    | with_reducible apply keepsBut.ite
    | (intro _)
    | extract_lets
    | split
    | dsimp +zetaDelta only

theorem keeps_classify (s : State) (j : Nat) :
    keepsBut [.muster] s (classify s j).2 := by
  unfold classify
  repeat' first
    | with_reducible apply keepsBut.refl
    | with_reducible assumption
    | (show (_ : Bool) = true; decide)
    | with_reducible apply keepsBut.step (keeps_upMuster _ _)
    | with_reducible apply keepsBut.each
    | with_reducible apply keepsBut.fold
    | with_reducible apply keepsBut.when
    | with_reducible apply keepsBut.ite
    | (intro _)
    | extract_lets
    | split
    | dsimp only
    | dsimp +zetaDelta only

theorem step_classify {W : List Part} {s0 : State} {s : State} {j : Nat} {a : JobClass} {sn : State}
    (hEq : classify s j = (a, sn)) (hv : (List.all [.muster] fun p => W.contains p) = true) (h : keepsBut W s0 s) :
    keepsBut W s0 sn :=
  keepsBut.step (by have k := keeps_classify s j; rw [hEq] at k; exact k) hv h

theorem keeps_enqueue (s : State) (j : Nat) (c : JobClass) :
    keepsBut [.jobs, .muster] s (enqueue s j c) := by
  unfold enqueue
  repeat' first
    | with_reducible apply keepsBut.refl
    | with_reducible assumption
    | (show (_ : Bool) = true; decide)
    | with_reducible apply keepsBut.step (keeps_modJob _ _ _)
    | with_reducible apply keepsBut.step (keeps_upMuster _ _)
    | with_reducible apply keepsBut.ite
    | (intro _)
    | extract_lets
    | split
    | dsimp +zetaDelta only

theorem keeps_admitJob (s : State) (j : Nat) :
    keepsBut [.units, .rings, .jobs, .lanes, .muster, .serai, .mint, .house, .scales, .well, .relay, .ledger, .ai] s (admitJob s j) := by
  unfold admitJob
  repeat' first
    | with_reducible apply keepsBut.refl
    | with_reducible assumption
    | (show (_ : Bool) = true; decide)
    | with_reducible apply keepsBut.step (keeps_unqueue _ _)
    | with_reducible apply keepsBut.step (keeps_endAside _ _ _ _)
    | (with_reducible refine step_classify (by assumption) ?_ ?_)
    | with_reducible apply keepsBut.step (keeps_classify _ _)
    | with_reducible apply keepsBut.step (keeps_enqueue _ _ _)
    | with_reducible apply keepsBut.ite
    | (intro _)
    | extract_lets
    | split
    | dsimp +zetaDelta only

theorem keeps_startJob (s : State) (l j : Nat) :
    keepsBut [.jobs] s (startJob s l j) := by
  unfold startJob
  repeat' first
    | with_reducible apply keepsBut.refl
    | with_reducible assumption
    | (show (_ : Bool) = true; decide)
    | with_reducible apply keepsBut.step (keeps_modJob _ _ _)
    | with_reducible apply keepsBut.ite
    | (intro _)
    | extract_lets
    | split
    | dsimp +zetaDelta only

theorem keeps_execute (s : State) (l j : Nat) :
    keepsBut [.units, .jobs, .lanes, .serai, .mint, .house, .scales, .well, .relay, .ledger, .ai] s (execute s l j) := by
  unfold execute
  extract_lets s1 s2
  have h2 : keepsBut [.units, .jobs, .lanes, .serai, .mint, .house, .scales, .well, .relay, .ledger, .ai] s s2 :=
    keepsBut.step (keeps_modJob _ _ _) (by decide) (keepsBut.step (keeps_modLane _ _ _) (by decide) (keepsBut.refl _ _))
  split
  · exact keepsBut.step (keeps_endHard _ _ _) (by decide) h2
  · exact h2

theorem keeps_enterLane (s : State) (l j : Nat) :
    keepsBut [.units, .jobs, .lanes, .serai, .mint, .house, .scales, .well, .relay, .ledger, .ai] s (enterLane s l j) := by
  unfold enterLane
  repeat' first
    | with_reducible apply keepsBut.refl
    | with_reducible assumption
    | (show (_ : Bool) = true; decide)
    | with_reducible apply keepsBut.step (keeps_startJob _ _ _)
    | with_reducible apply keepsBut.step (keeps_modLane _ _ _)
    | with_reducible apply keepsBut.step (keeps_execute _ _ _)
    | with_reducible apply keepsBut.step (keeps_modJob _ _ _)
    | with_reducible apply keepsBut.ite
    | (intro _)
    | extract_lets
    | split
    | dsimp +zetaDelta only

theorem keeps_displace (s : State) (l : Nat) :
    keepsBut [.jobs, .lanes, .serai] s (displace s l) := by
  unfold displace
  repeat' first
    | with_reducible apply keepsBut.refl
    | with_reducible assumption
    | (show (_ : Bool) = true; decide)
    | with_reducible apply keepsBut.step (keeps_modLane _ _ _)
    | with_reducible apply keepsBut.step (keeps_unprepare _ _)
    | with_reducible apply keepsBut.each
    | with_reducible apply keepsBut.ite
    | (intro _)
    | extract_lets
    | split
    | dsimp +zetaDelta only

theorem keeps_placeCourier (s : State) (l j : Nat) :
    keepsBut [.jobs, .lanes, .muster, .serai, .ai, .ration] s (placeCourier s l j) := by
  unfold placeCourier
  repeat' first
    | with_reducible apply keepsBut.refl
    | with_reducible assumption
    | (show (_ : Bool) = true; decide)
    | with_reducible apply keepsBut.step (keeps_displace _ _)
    | with_reducible apply keepsBut.step (keeps_unqueue _ _)
    | with_reducible apply keepsBut.step (keeps_modLane _ _ _)
    | with_reducible apply keepsBut.step (keeps_startReads _ _)
    | with_reducible apply keepsBut.step (keeps_modJob _ _ _)
    | with_reducible apply keepsBut.ite
    | (intro _)
    | extract_lets
    | split
    | dsimp +zetaDelta only

theorem keeps_placeJob (s : State) (l j : Nat) :
    keepsBut [.units, .jobs, .lanes, .muster, .serai, .mint, .house, .scales, .well, .relay, .ledger, .ai, .ration] s (placeJob s l j) := by
  unfold placeJob
  repeat' first
    | with_reducible apply keepsBut.refl
    | with_reducible assumption
    | (show (_ : Bool) = true; decide)
    | with_reducible apply keepsBut.step (keeps_unqueue _ _)
    | with_reducible apply keepsBut.step (keeps_upMuster _ _)
    | with_reducible apply keepsBut.step (keeps_modLane _ _ _)
    | with_reducible apply keepsBut.step (keeps_startReads _ _)
    | with_reducible apply keepsBut.step (keeps_modJob _ _ _)
    | with_reducible apply keepsBut.step (keeps_enterLane _ _ _)
    | with_reducible apply keepsBut.ite
    | (intro _)
    | extract_lets
    | split
    | dsimp +zetaDelta only

theorem keeps_quarantineLane (s : State) (l : Nat) :
    keepsBut [.units] s (quarantineLane s l) := by
  unfold quarantineLane
  repeat' first
    | with_reducible apply keepsBut.refl
    | with_reducible assumption
    | (show (_ : Bool) = true; decide)
    | with_reducible apply keepsBut.step (keeps_modUnit _ _ _)
    | with_reducible apply keepsBut.ite
    | (intro _)
    | extract_lets
    | split
    | dsimp +zetaDelta only

theorem keeps_mismatchEnds (s : State) (l j : Nat) :
    keepsBut [.units, .rings, .jobs, .lanes, .muster, .serai, .mint, .house, .scales, .well, .relay, .ledger, .ai] s (mismatchEnds s l j) := by
  unfold mismatchEnds
  repeat' first
    | with_reducible apply keepsBut.refl
    | with_reducible assumption
    | (show (_ : Bool) = true; decide)
    | with_reducible apply keepsBut.step (keeps_endHard _ _ _)
    | with_reducible apply keepsBut.step (keeps_endAside _ _ _ _)
    | with_reducible apply keepsBut.step (keeps_unitEnding _ _ _)
    | with_reducible apply keepsBut.ite
    | (intro _)
    | extract_lets
    | split
    | dsimp +zetaDelta only

theorem keeps_yokeMismatch (s : State) (l j row : Nat) :
    keepsBut [.units, .rings, .jobs, .lanes, .muster, .serai, .mint, .house, .scales, .well, .relay, .ledger, .ai, .mode] s (yokeMismatch s l j row) := by
  unfold yokeMismatch
  repeat' first
    | with_reducible apply keepsBut.refl
    | with_reducible assumption
    | (show (_ : Bool) = true; decide)
    | with_reducible apply keepsBut.step (keeps_mismatchEnds _ _ _)
    | with_reducible apply keepsBut.step (keeps_emit _ _ _ _ _)
    | with_reducible apply keepsBut.step (keeps_containString _ _ _)
    | with_reducible apply keepsBut.step (keeps_returnStaged _ _)
    | with_reducible apply keepsBut.step (keeps_quarantineLane _ _)
    | with_reducible apply keepsBut.ite
    | (intro _)
    | extract_lets
    | split
    | dsimp +zetaDelta only

theorem keeps_endKey (s : State) (j k : Nat) (st : Status) :
    keepsBut [.units, .jobs, .serai, .mint, .house, .scales, .well, .relay, .ledger, .ai] s (endKey s j k st) := by
  unfold endKey
  repeat' first
    | with_reducible apply keepsBut.refl
    | with_reducible assumption
    | (show (_ : Bool) = true; decide)
    | with_reducible apply keepsBut.step (keeps_genFault _ _)
    | with_reducible apply keepsBut.step (keeps_endHard _ _ _)
    | with_reducible apply keepsBut.ite
    | (intro _)
    | extract_lets
    | split
    | dsimp +zetaDelta only

theorem keeps_recordUse (s : State) (j : Nat) :
    (recordUse s j).keeps [.serai, .mint, .ledger] s := by
  unfold recordUse
  extract_lets t
  repeat' split
  all_goals first
    | trivial
    | skip
  all_goals show keepsBut _ _ _
  all_goals repeat' first
    | with_reducible apply keepsBut.refl
    | (show (_ : Bool) = true; decide)
    | with_reducible apply keepsBut.step (keeps_returnLent _ _)
    | with_reducible apply keepsBut.step (keeps_briefLease _)
    | with_reducible apply keepsBut.step (keeps_upSerai _ _)
    | with_reducible apply keepsBut.step (keeps_conflictSlots _ _)

theorem step_recordUse_here {W : List Part} {s0 : State} {s : State} {j : Nat} {bs0 : List Byte} {sn : State} (hEq : recordUse s j = .here bs0 sn)
    (hv : (List.all [.serai, .mint, .ledger] fun p => W.contains p) = true) (h : keepsBut W s0 s) : keepsBut W s0 sn :=
  keepsBut.step (by have k := keeps_recordUse s j; rw [hEq] at k; exact k) hv h

theorem step_recordUse_conflict {W : List Part} {s0 : State} {s : State} {j : Nat} {sn : State} (hEq : recordUse s j = .conflict sn)
    (hv : (List.all [.serai, .mint, .ledger] fun p => W.contains p) = true) (h : keepsBut W s0 s) : keepsBut W s0 sn :=
  keepsBut.step (by have k := keeps_recordUse s j; rw [hEq] at k; exact k) hv h

theorem keeps_keyTake (s : State) (j reg slot : Nat) :
    keepsBut [.jobs, .serai] s (keyTake s j reg slot) := by
  unfold keyTake
  repeat' first
    | with_reducible apply keepsBut.refl
    | with_reducible assumption
    | (show (_ : Bool) = true; decide)
    | with_reducible apply keepsBut.step (keeps_loadKey _ _ _ _)
    | with_reducible apply keepsBut.step (keeps_takeLease _ _)
    | with_reducible apply keepsBut.step (keeps_releaseKey _ _ _)
    | with_reducible apply keepsBut.step (keeps_modJob _ _ _)
    | with_reducible apply keepsBut.ite
    | (intro _)
    | extract_lets
    | split
    | dsimp +zetaDelta only

theorem keeps_keyHits (s : State) (j : Nat) (i : W64) {a : Nat} {sn : State} (hEq : keyHits s j i = some (a, sn)) :
    keepsBut [.serai, .mint, .ledger] s sn := by
  unfold keyHits at hEq
  split at hEq
  · cases hEq
  · extract_lets t0 at hEq
    split at hEq
    · rename_i er
      split at hEq
      · rename_i el
        split at hEq
        · obtain ⟨-, rfl⟩ := Prod.mk.inj (Option.some.inj hEq)
          exact step_lookupKey el (by decide) (step_recordUse_here er (by decide) (keepsBut.refl _ _))
        · cases hEq
      · cases hEq
    · cases hEq

theorem step_keyHits {W : List Part} {s0 : State} {s : State} {j : Nat} {i : W64} {a : Nat} {sn : State}
    (hEq : keyHits s j i = some (a, sn)) (hv : (List.all [.serai, .mint, .ledger] fun p => W.contains p) = true) (h : keepsBut W s0 s) :
    keepsBut W s0 sn := keepsBut.step (keeps_keyHits s j i hEq) hv h

theorem keeps_prepareKeys (fuel : Nat) (s : State) (l j : Nat) (c : Compare) :
    keepsBut [.units, .rings, .jobs, .lanes, .muster, .serai, .mint, .house, .scales, .well, .relay, .ledger, .ai, .mode] s (prepareKeys fuel s l j c) := by
  induction fuel generalizing s with
  | zero => exact keepsBut.refl _ _
  | succ fuel ih =>
    unfold prepareKeys
    repeat' first
      | with_reducible apply keepsBut.refl
      | with_reducible assumption
      | (show (_ : Bool) = true; decide)
      | with_reducible apply keepsBut.step (ih _)
      | with_reducible apply keepsBut.step (keeps_yokeMismatch _ _ _ _)
      | with_reducible apply keepsBut.step (keeps_modJob _ _ _)
      | with_reducible apply keepsBut.step (keeps_keyTake _ _ _ _)
      | (with_reducible refine step_keyHits (by assumption) ?_ ?_)
      | with_reducible apply keepsBut.each
      | with_reducible apply keepsBut.fold
      | with_reducible apply keepsBut.when
      | with_reducible apply keepsBut.ite
      | (intro _)
      | extract_lets
      | split
      | dsimp only
      | dsimp +zetaDelta only

theorem keeps_complete (s : State) (l j : Nat) (c : Compare) :
    keepsBut [.units, .rings, .jobs, .lanes, .muster, .serai, .mint, .house, .scales, .well, .relay, .ledger, .ai, .mode] s (complete s l j c) := by
  unfold complete
  repeat' first
    | with_reducible apply keepsBut.refl
    | with_reducible assumption
    | (show (_ : Bool) = true; decide)
    | with_reducible apply keepsBut.step (keeps_modJob _ _ _)
    | with_reducible apply keepsBut.step (keeps_yokeMismatch _ _ _ _)
    | with_reducible apply keepsBut.ite
    | (intro _)
    | extract_lets
    | split
    | dsimp +zetaDelta only

theorem keeps_issueUpTo (s : State) (j : Nat) (y : Job) (m gone : Nat) (outs : List OutW) :
    keepsBut [.ai, .ration, .free] s (issueUpTo s j y m gone outs) := by
  induction outs generalizing s m gone with
  | nil => exact keepsBut.refl _ _
  | cons o os ih =>
    unfold issueUpTo
    extract_lets n e
    split
    · exact keepsBut.step (ih _ _ _) (by decide) (keepsBut.step (keeps_issueOut _ _ _ _ _ _) (by decide) (keepsBut.refl _ _))
    · split
      · exact keepsBut.refl _ _
      · exact keepsBut.step (keeps_issueOut _ _ _ _ _ _) (by decide) (keepsBut.refl _ _)

theorem keeps_beatMismatch (s : State) (l j : Nat) (y : Job) (top : Nat) (outs : List OutW) :
    keepsBut [.units, .rings, .jobs, .lanes, .muster, .serai, .mint, .house, .scales, .well, .relay, .ledger, .ai, .mode, .ration, .free] s (beatMismatch s l j y top outs) := by
  unfold beatMismatch
  repeat' first
    | with_reducible apply keepsBut.refl
    | with_reducible assumption
    | (show (_ : Bool) = true; decide)
    | (with_reducible refine step_drawNoise (by assumption) ?_ ?_)
    | with_reducible apply keepsBut.step (keeps_drawNoise _ _)
    | with_reducible apply keepsBut.step (keeps_yokeMismatch _ _ _ _)
    | with_reducible apply keepsBut.step (keeps_issueUpTo _ _ _ _ _ _)
    | with_reducible apply keepsBut.ite
    | (intro _)
    | extract_lets
    | split
    | dsimp +zetaDelta only

theorem keeps_commit (s : State) (l j : Nat) (c : Compare) (y : Job) (outs : List OutW) :
    keepsBut [.units, .rings, .jobs, .lanes, .muster, .serai, .mint, .house, .scales, .well, .relay, .ledger, .ai, .mode, .ration, .free] s (commit s l j c y outs) := by
  unfold commit
  repeat' first
    | with_reducible apply keepsBut.refl
    | with_reducible assumption
    | (show (_ : Bool) = true; decide)
    | with_reducible apply keepsBut.step (keeps_beatMismatch _ _ _ _ _ _)
    | with_reducible apply keepsBut.step (keeps_modJob _ _ _)
    | with_reducible apply keepsBut.step (keeps_complete _ _ _ _)
    | with_reducible apply keepsBut.step (keeps_issueOuts _ _ _ _)
    | with_reducible apply keepsBut.ite
    | (intro _)
    | extract_lets
    | split
    | dsimp +zetaDelta only

theorem keeps_countBytes (s : State) (l n : Nat) :
    keepsBut [.units] s (countBytes s l n) := by
  unfold countBytes
  repeat' first
    | with_reducible apply keepsBut.refl
    | with_reducible assumption
    | (show (_ : Bool) = true; decide)
    | with_reducible apply keepsBut.step (keeps_modUnit _ _ _)
    | with_reducible apply keepsBut.ite
    | (intro _)
    | extract_lets
    | split
    | dsimp +zetaDelta only

theorem keeps_runPure (s : State) (l j : Nat) (c : Compare) (r : Res (Job × List OutW)) :
    keepsBut [.units, .rings, .jobs, .lanes, .muster, .serai, .mint, .house, .scales, .well, .relay, .ledger, .ai, .mode, .ration, .free] s (runPure s l j c r) := by
  unfold runPure
  repeat' first
    | with_reducible apply keepsBut.refl
    | with_reducible assumption
    | (show (_ : Bool) = true; decide)
    | with_reducible apply keeps_goOn
    | with_reducible apply keepsBut.step (keeps_endHard _ _ _)
    | with_reducible apply keepsBut.step (keeps_commit _ _ _ _ _ _)
    | with_reducible apply keepsBut.ite
    | (intro _)
    | extract_lets
    | split
    | dsimp +zetaDelta only

theorem keeps_issueBeats (s : State) (l j : Nat) (c : Compare) (m : Nat) (y : Job) (o : OutW) :
    keepsBut [.units, .rings, .jobs, .lanes, .muster, .serai, .mint, .house, .scales, .well, .relay, .ledger, .ai, .mode, .ration, .free] s (issueBeats s l j c m y o) := by
  unfold issueBeats
  repeat' first
    | with_reducible apply keepsBut.refl
    | with_reducible assumption
    | (show (_ : Bool) = true; decide)
    | with_reducible apply keepsBut.step (keeps_endHard _ _ _)
    | with_reducible apply keepsBut.step (keeps_beatMismatch _ _ _ _ _ _)
    | with_reducible apply keepsBut.step (keeps_issueOut _ _ _ _ _ _)
    | with_reducible apply keepsBut.step (keeps_modJob _ _ _)
    | with_reducible apply keepsBut.ite
    | (intro _)
    | extract_lets
    | split
    | dsimp +zetaDelta only

theorem keeps_goFlow {α : Type} {W : List Part} {s0 s : State} (l j : Nat) (c : Compare) (i : W64) (m : Nat)
    (out : α → Job × List OutW) (r : Res α) (f : α → State) (hv : (List.all [.units, .rings, .jobs, .lanes, .muster, .serai, .mint, .house, .scales, .well, .relay, .ledger, .ai, .mode, .ration, .free] fun p => W.contains p) = true) (h : keepsBut W s0 s)
    (k : ∀ a, keepsBut W s0 (f a)) : keepsBut W s0 (goFlow s l j c i m out r f) := by
  have sub : ∀ V : List Part, (V.all fun p => ([.units, .rings, .jobs, .lanes, .muster, .serai, .mint, .house, .scales, .well, .relay, .ledger, .ai, .mode, .ration, .free] : List Part).contains p) = true → (V.all fun p => W.contains p) = true := by
    intro V hV
    simp only [List.all_eq_true, List.contains_iff_mem] at *
    exact fun p hp => hv p (hV p hp)
  unfold goFlow
  extract_lets s1
  have h1 : keepsBut W s0 s1 := by
    show keepsBut W s0 (match r with | .need _ a => _ | _ => _)
    split
    · split
      · exact keepsBut.step (keeps_issueBeats _ _ _ _ _ _ _) (sub _ (by decide)) h
      · exact h
    · exact h
  exact keepsBut.ite h1 (keeps_goOn _ _ _ (sub _ (by decide)) h1 k)

theorem keeps_gateRecord (s : State) (d event : Nat) :
    keepsBut [.ledger] s (gateRecord s d event) := by
  unfold gateRecord
  repeat' first
    | with_reducible apply keepsBut.refl
    | with_reducible assumption
    | (show (_ : Bool) = true; decide)
    | with_reducible apply keepsBut.step (keeps_emit _ _ _ _ _)
    | with_reducible apply keepsBut.ite
    | (intro _)
    | extract_lets
    | split
    | dsimp +zetaDelta only

theorem keeps_rationRaise (s : State) (src : Nat) (en : Bool) :
    keepsBut [.relay, .ai] s (rationRaise s src en) := by
  unfold rationRaise
  repeat' first
    | with_reducible apply keepsBut.refl
    | with_reducible assumption
    | (show (_ : Bool) = true; decide)
    | with_reducible apply keepsBut.step (keeps_irqBlock _ _)
    | with_reducible apply keepsBut.step (keeps_raise _ _)
    | with_reducible apply keepsBut.when
    | with_reducible apply keepsBut.ite
    | (intro _)
    | extract_lets
    | split
    | dsimp +zetaDelta only

theorem keeps_raCmdEnd (s : State) (ungate : Bool) (d : Nat) (st : Status) :
    keepsBut [.ration] s (raCmdEnd s ungate d st) := by
  unfold raCmdEnd
  repeat' first
    | with_reducible apply keepsBut.refl
    | with_reducible assumption
    | (show (_ : Bool) = true; decide)
    | with_reducible apply keepsBut.step (keeps_upRation _ _)
    | with_reducible apply keepsBut.ite
    | (intro _)
    | extract_lets
    | split
    | dsimp +zetaDelta only

theorem keeps_cancelDrain (s : State) (d : Nat) :
    keepsBut [.ledger, .ration] s (cancelDrain s d) := by
  unfold cancelDrain
  repeat' first
    | with_reducible apply keepsBut.refl
    | with_reducible assumption
    | (show (_ : Bool) = true; decide)
    | with_reducible apply keepsBut.step (keeps_raCmdEnd _ _ _ _)
    | with_reducible apply keepsBut.step (keeps_gateRecord _ _ _)
    | with_reducible apply keepsBut.step (keeps_modDom _ _ _)
    | with_reducible apply keepsBut.ite
    | (intro _)
    | extract_lets
    | split
    | dsimp +zetaDelta only

theorem keeps_wakeDom (s : State) (d : Nat) :
    keepsBut [.ledger, .ration] s (wakeDom s d) := by
  unfold wakeDom
  repeat' first
    | with_reducible apply keepsBut.refl
    | with_reducible assumption
    | (show (_ : Bool) = true; decide)
    | with_reducible apply keepsBut.step (keeps_modDom _ _ _)
    | with_reducible apply keepsBut.step (keeps_cancelDrain _ _)
    | with_reducible apply keepsBut.ite
    | (intro _)
    | extract_lets
    | split
    | dsimp +zetaDelta only

theorem keeps_wakeRow (s : State) :
    keepsBut [.ledger, .ration] s (wakeRow s) := by
  unfold wakeRow
  repeat' first
    | with_reducible apply keepsBut.refl
    | with_reducible assumption
    | (show (_ : Bool) = true; decide)
    | with_reducible apply keepsBut.step (keeps_wakeDom _ _)
    | with_reducible apply keepsBut.ite
    | (intro _)
    | extract_lets
    | split
    | dsimp +zetaDelta only

theorem keeps_testsEnd (s : State) (d : Nat) :
    keepsBut [.relay, .ledger, .ai, .ration] s (testsEnd s d) := by
  unfold testsEnd
  repeat' first
    | with_reducible apply keepsBut.refl
    | with_reducible assumption
    | (show (_ : Bool) = true; decide)
    | with_reducible apply keepsBut.step (keeps_modDom _ _ _)
    | with_reducible apply keepsBut.step (keeps_raCmdEnd _ _ _ _)
    | with_reducible apply keepsBut.step (keeps_rationRaise _ _ _)
    | with_reducible apply keepsBut.step (keeps_gateRecord _ _ _)
    | with_reducible apply keepsBut.ite
    | (intro _)
    | extract_lets
    | split
    | dsimp +zetaDelta only

theorem keeps_startDrain (s : State) (d : Nat) :
    keepsBut [.jobs, .lanes, .muster, .serai, .ledger, .ai, .ration] s (startDrain s d) := by
  unfold startDrain
  repeat' first
    | with_reducible apply keepsBut.refl
    | with_reducible assumption
    | (show (_ : Bool) = true; decide)
    | with_reducible apply keepsBut.step (keeps_modDom _ _ _)
    | with_reducible apply keepsBut.step (keeps_returnLanes _ _)
    | with_reducible apply keepsBut.step (keeps_gateRecord _ _ _)
    | with_reducible apply keepsBut.ite
    | (intro _)
    | extract_lets
    | split
    | dsimp +zetaDelta only

theorem keeps_faultUnits (s : State) (d : Nat) :
    keepsBut [.units, .lanes, .house] s (faultUnits s d) := by
  unfold faultUnits
  repeat' first
    | with_reducible apply keepsBut.refl
    | with_reducible assumption
    | (show (_ : Bool) = true; decide)
    | with_reducible apply keepsBut.step (keeps_modUnit _ _ _)
    | with_reducible apply keepsBut.step (keeps_modBench _ _ _)
    | with_reducible apply keepsBut.step (keeps_modLane _ _ _)
    | with_reducible apply keepsBut.each
    | with_reducible apply keepsBut.ite
    | (intro _)
    | extract_lets
    | split
    | dsimp +zetaDelta only

theorem keeps_katRecord (s : State) (producer unit : Nat) :
    keepsBut [.ledger] s (katRecord s producer unit) := by
  unfold katRecord
  repeat' first
    | with_reducible apply keepsBut.refl
    | with_reducible assumption
    | (show (_ : Bool) = true; decide)
    | with_reducible apply keepsBut.step (keeps_emit _ _ _ _ _)
    | with_reducible apply keepsBut.ite
    | (intro _)
    | extract_lets
    | split
    | dsimp +zetaDelta only

theorem keeps_endBale (s : State) (j : Nat) (st : Status) :
    keepsBut [.units, .jobs, .serai, .mint, .house, .scales, .well, .relay, .ledger, .ai] s (endBale s j st) := by
  unfold endBale
  repeat' first
    | with_reducible apply keepsBut.refl
    | with_reducible assumption
    | (show (_ : Bool) = true; decide)
    | with_reducible apply keepsBut.step (keeps_endHard _ _ _)
    | with_reducible apply keepsBut.step (keeps_countBaleFail _ _)
    | with_reducible apply keepsBut.ite
    | (intro _)
    | extract_lets
    | split
    | dsimp +zetaDelta only

theorem keeps_joinFill (s : State) (j f : Nat) (c : Compare) :
    keepsBut [.jobs, .mint] s (joinFill s j f c) := by
  unfold joinFill
  repeat' first
    | with_reducible apply keepsBut.refl
    | with_reducible assumption
    | (show (_ : Bool) = true; decide)
    | with_reducible apply keepsBut.step (keeps_modJob _ _ _)
    | with_reducible apply keepsBut.step (keeps_modFill _ _ _)
    | with_reducible apply keepsBut.ite
    | (intro _)
    | extract_lets
    | split
    | dsimp +zetaDelta only

theorem keeps_newFill (s : State) (r : FillRec) :
    keepsBut [.mint] s (newFill s r).2 := by
  unfold newFill
  repeat' first
    | with_reducible apply keepsBut.refl
    | with_reducible assumption
    | (show (_ : Bool) = true; decide)
    | with_reducible apply keepsBut.step (keeps_upMint _ _)
    | with_reducible apply keepsBut.each
    | with_reducible apply keepsBut.fold
    | with_reducible apply keepsBut.when
    | with_reducible apply keepsBut.ite
    | (intro _)
    | extract_lets
    | split
    | dsimp only
    | dsimp +zetaDelta only

theorem step_newFill {W : List Part} {s0 : State} {s : State} {r : FillRec} {a : Nat} {sn : State}
    (hEq : newFill s r = (a, sn)) (hv : (List.all [.mint] fun p => W.contains p) = true) (h : keepsBut W s0 s) :
    keepsBut W s0 sn :=
  keepsBut.step (by have k := keeps_newFill s r; rw [hEq] at k; exact k) hv h

theorem keeps_readRecord (s : State) (f : Nat) :
    keepsBut [.mint, .ai, .ration] s (readRecord s f) := by
  unfold readRecord
  repeat' first
    | with_reducible apply keepsBut.refl
    | with_reducible assumption
    | (show (_ : Bool) = true; decide)
    | with_reducible apply keepsBut.step (keeps_modFill _ _ _)
    | with_reducible apply keepsBut.step (keeps_issueAccess _ _ _ _ _ _)
    | with_reducible apply keepsBut.ite
    | (intro _)
    | extract_lets
    | split
    | dsimp +zetaDelta only

theorem keeps_readBale (s : State) (f : Nat) :
    keepsBut [.mint, .ai, .ration] s (readBale s f) := by
  unfold readBale
  repeat' first
    | with_reducible apply keepsBut.refl
    | with_reducible assumption
    | (show (_ : Bool) = true; decide)
    | with_reducible apply keepsBut.step (keeps_modFill _ _ _)
    | with_reducible apply keepsBut.step (keeps_issueAccess _ _ _ _ _ _)
    | with_reducible apply keepsBut.ite
    | (intro _)
    | extract_lets
    | split
    | dsimp +zetaDelta only

theorem keeps_wantRecord (s : State) (j : Nat) :
    keepsBut [.jobs, .serai, .mint, .ai, .ration] s (wantRecord s j) := by
  unfold wantRecord
  repeat' first
    | with_reducible apply keepsBut.refl
    | with_reducible assumption
    | (show (_ : Bool) = true; decide)
    | with_reducible apply keepsBut.step (keeps_upSerai _ _)
    | with_reducible apply keepsBut.step (keeps_joinFill _ _ _ _)
    | (with_reducible refine step_newFill (by assumption) ?_ ?_)
    | with_reducible apply keepsBut.step (keeps_newFill _ _)
    | with_reducible apply keepsBut.step (keeps_readRecord _ _)
    | with_reducible apply keepsBut.ite
    | (intro _)
    | extract_lets
    | split
    | dsimp +zetaDelta only

theorem keeps_keyShort (s : State) (l j : Nat) (i : W64) (c : Compare) :
    keepsBut [.units, .rings, .jobs, .lanes, .muster, .serai, .mint, .house, .scales, .well, .relay, .ledger, .ai, .mode, .ration] s (keyShort s l j i c) := by
  unfold keyShort
  repeat' first
    | with_reducible apply keepsBut.refl
    | with_reducible assumption
    | (show (_ : Bool) = true; decide)
    | with_reducible apply keepsBut.step (keeps_endBale _ _ _)
    | (with_reducible refine step_recordUse_here (by assumption) ?_ ?_)
    | (with_reducible refine step_recordUse_conflict (by assumption) ?_ ?_)
    | with_reducible apply keepsBut.step (keeps_yokeMismatch _ _ _ _)
    | with_reducible apply keepsBut.step (keeps_wantRecord _ _)
    | with_reducible apply keepsBut.step (keeps_endHard _ _ _)
    | (with_reducible refine step_lookupKey (by assumption) ?_ ?_)
    | with_reducible apply keepsBut.step (keeps_lookupKey _ _ _ _)
    | with_reducible apply keepsBut.step (keeps_complete _ _ _ _)
    | with_reducible apply keepsBut.step (keeps_keyTake _ _ _ _)
    | with_reducible apply keepsBut.step (keeps_joinFill _ _ _ _)
    | (with_reducible refine step_newFill (by assumption) ?_ ?_)
    | with_reducible apply keepsBut.step (keeps_newFill _ _)
    | with_reducible apply keepsBut.step (keeps_readBale _ _)
    | with_reducible apply keepsBut.ite
    | (intro _)
    | extract_lets
    | split
    | dsimp +zetaDelta only

theorem keeps_holdTake (s : State) (l j e ktype : Nat) (m : List Byte) :
    keepsBut [.units, .jobs, .serai, .house, .scales, .relay, .ledger] s (holdTake s l j e ktype m) := by
  unfold holdTake
  repeat' first
    | with_reducible apply keepsBut.refl
    | with_reducible assumption
    | (show (_ : Bool) = true; decide)
    | with_reducible apply keepsBut.step (keeps_modUnit _ _ _)
    | with_reducible apply keepsBut.step (keeps_benchOwn _ _ _)
    | with_reducible apply keepsBut.step (keeps_modBench _ _ _)
    | with_reducible apply keepsBut.step (keeps_modCtx _ _ _)
    | with_reducible apply keepsBut.ite
    | (intro _)
    | extract_lets
    | split
    | dsimp +zetaDelta only

theorem keeps_holdDrop (s : State) (e : Nat) :
    keepsBut [.jobs, .serai, .house, .scales, .relay, .ledger] s (holdDrop s e) := by
  unfold holdDrop
  repeat' first
    | with_reducible apply keepsBut.refl
    | with_reducible assumption
    | (show (_ : Bool) = true; decide)
    | with_reducible apply keepsBut.step (keeps_wipeBench _ _ _)
    | with_reducible apply keepsBut.step (keeps_dropCtxHolding _ _)
    | with_reducible apply keepsBut.ite
    | (intro _)
    | extract_lets
    | split
    | dsimp +zetaDelta only

theorem keeps_longLookup (s : State) :
    keepsBut [.serai] s (longLookup s) := by
  unfold longLookup
  repeat' first
    | with_reducible apply keepsBut.refl
    | with_reducible assumption
    | (show (_ : Bool) = true; decide)
    | with_reducible apply keepsBut.step (keeps_upSerai _ _)
    | with_reducible apply keepsBut.ite
    | (intro _)
    | extract_lets
    | split
    | dsimp +zetaDelta only

theorem keeps_keyLongTake {W : List Part} {s00 : State} {s sr : State} (l j e : Nat) (i : W64) (c : Compare) (h : List Byte) (r : TenantRec) (expired : Bool)
    (cy : List Byte × Job)
    (hv : (List.all [.units, .rings, .jobs, .lanes, .muster, .serai, .mint, .house, .scales, .well, .relay, .ledger, .ai, .mode] fun p => W.contains p) = true) (h0 : keepsBut W s00 s) (h1 : keepsBut W s00 sr) :
    keepsBut W s00 (keyLongTake s sr l j e i c h r expired cy) := by
  have sub : ∀ V : List Part, (V.all fun p => ([.units, .rings, .jobs, .lanes, .muster, .serai, .mint, .house, .scales, .well, .relay, .ledger, .ai, .mode] : List Part).contains p) = true → (V.all fun p => W.contains p) = true := by
    intro V hV
    simp only [List.all_eq_true, List.contains_iff_mem] at *
    exact fun p hp => hv p (hV p hp)
  unfold keyLongTake
  repeat' first
    | with_reducible apply keepsBut.refl
    | with_reducible assumption
    | (show (_ : Bool) = true; decide)
    | (with_reducible exact sub _ (by decide))
    | with_reducible apply sub _ (by decide)
    | with_reducible apply keepsBut.step (keeps_endHard _ _ _)
    | with_reducible apply keepsBut.step (keeps_endBale _ _ _)
    | with_reducible apply keepsBut.step (keeps_yokeMismatch _ _ _ _)
    | with_reducible apply keepsBut.step (keeps_waitWay _ _)
    | with_reducible apply keepsBut.step (keeps_complete _ _ _ _)
    | with_reducible apply keepsBut.step (keeps_modJob _ _ _)
    | with_reducible apply keepsBut.step (keeps_loadKey _ _ _ _)
    | with_reducible apply keepsBut.step (keeps_fillPrivate _ _ _ _ _ _ _ _ _)
    | with_reducible apply keepsBut.step (keeps_holdTake _ _ _ _ _ _)
    | with_reducible apply keepsBut.step (keeps_holdDrop _ _)
    | with_reducible apply keepsBut.step (keeps_upMint _ _)
    | (with_reducible refine step_useKek_got (by assumption) ?_ ?_)
    | (with_reducible refine step_useKek_fails (by assumption) ?_ ?_)
    | (with_reducible refine step_privateWay_way (by assumption) ?_ ?_)
    | with_reducible apply keeps_withWay
    | with_reducible apply keepsBut.each
    | with_reducible apply keepsBut.fold
    | with_reducible apply keepsBut.when
    | with_reducible apply keepsBut.ite
    | (intro _)
    | extract_lets
    | split
    | dsimp only
    | dsimp +zetaDelta only

theorem keeps_keyLongBody {W : List Part} {s00 : State} {s sr : State} (l j : Nat) (i : W64) (c : Compare) (r : TenantRec) (h : List Byte) (st : Nat) (y : Job)
    (hv : (List.all [.units, .rings, .jobs, .lanes, .muster, .serai, .mint, .house, .scales, .well, .relay, .ledger, .ai, .mode, .ration] fun p => W.contains p) = true) (h0 : keepsBut W s00 s) (h1 : keepsBut W s00 sr) :
    keepsBut W s00 (keyLongBody s sr l j i c r h st y) := by
  have sub : ∀ V : List Part, (V.all fun p => ([.units, .rings, .jobs, .lanes, .muster, .serai, .mint, .house, .scales, .well, .relay, .ledger, .ai, .mode, .ration] : List Part).contains p) = true → (V.all fun p => W.contains p) = true := by
    intro V hV
    simp only [List.all_eq_true, List.contains_iff_mem] at *
    exact fun p hp => hv p (hV p hp)
  unfold keyLongBody
  repeat' first
    | with_reducible apply keepsBut.refl
    | with_reducible assumption
    | (show (_ : Bool) = true; decide)
    | (with_reducible exact sub _ (by decide))
    | with_reducible apply sub _ (by decide)
    | with_reducible apply keepsBut.step (keeps_endHard _ _ _)
    | with_reducible apply keepsBut.step (keeps_endBale _ _ _)
    | with_reducible apply keepsBut.step (keeps_baleReject _ _ _ _ _)
    | with_reducible apply keepsBut.step (keeps_longLookup _)
    | with_reducible apply keepsBut.step (keeps_wakeRow _)
    | with_reducible apply keeps_goOn
    | with_reducible apply keeps_keyLongTake
    | with_reducible apply keepsBut.each
    | with_reducible apply keepsBut.fold
    | with_reducible apply keepsBut.when
    | with_reducible apply keepsBut.ite
    | (intro _)
    | extract_lets
    | split
    | dsimp only
    | dsimp +zetaDelta only

theorem keeps_keyLong (s : State) (l j : Nat) (i : W64) (c : Compare) :
    keepsBut [.units, .rings, .jobs, .lanes, .muster, .serai, .mint, .house, .scales, .well, .relay, .ledger, .ai, .mode, .ration] s (keyLong s l j i c) := by
  unfold keyLong
  repeat' first
    | with_reducible apply keepsBut.refl
    | with_reducible assumption
    | (show (_ : Bool) = true; decide)
    | with_reducible apply keepsBut.step (keeps_endBale _ _ _)
    | (with_reducible refine step_recordUse_here (by assumption) ?_ ?_)
    | (with_reducible refine step_recordUse_conflict (by assumption) ?_ ?_)
    | with_reducible apply keepsBut.step (keeps_yokeMismatch _ _ _ _)
    | with_reducible apply keepsBut.step (keeps_wantRecord _ _)
    | with_reducible apply keepsBut.step (keeps_endHard _ _ _)
    | with_reducible apply keeps_goOn
    | with_reducible apply keeps_keyLongBody
    | with_reducible apply keepsBut.ite
    | (intro _)
    | extract_lets
    | split
    | dsimp +zetaDelta only

theorem keeps_putKey {W : List Part} {s00 : State} {s sr : State} (l j : Nat) (i : W64) (c : Compare) (k : KeyRef) (r : TenantRec)
    (hv : (List.all [.units, .rings, .jobs, .lanes, .muster, .serai, .mint, .house, .scales, .well, .relay, .ledger, .ai, .mode, .ration] fun p => W.contains p) = true) (h0 : keepsBut W s00 s) (h1 : keepsBut W s00 sr) :
    keepsBut W s00 (putKey s sr l j i c k r) := by
  have sub : ∀ V : List Part, (V.all fun p => ([.units, .rings, .jobs, .lanes, .muster, .serai, .mint, .house, .scales, .well, .relay, .ledger, .ai, .mode, .ration] : List Part).contains p) = true → (V.all fun p => W.contains p) = true := by
    intro V hV
    simp only [List.all_eq_true, List.contains_iff_mem] at *
    exact fun p hp => hv p (hV p hp)
  unfold putKey
  repeat' first
    | with_reducible apply keepsBut.refl
    | with_reducible assumption
    | (show (_ : Bool) = true; decide)
    | (with_reducible exact sub _ (by decide))
    | with_reducible apply sub _ (by decide)
    | with_reducible apply keepsBut.step (keeps_wellDeny _)
    | (with_reducible refine step_laneDraw_got (by assumption) ?_ ?_)
    | (with_reducible refine step_laneDraw_waits (by assumption) ?_ ?_)
    | with_reducible apply keepsBut.step (keeps_endHard _ _ _)
    | with_reducible apply keepsBut.step (keeps_endBale _ _ _)
    | with_reducible apply keepsBut.step (keeps_yokeMismatch _ _ _ _)
    | with_reducible apply keepsBut.step (keeps_waitWay _ _)
    | with_reducible apply keepsBut.step (keeps_complete _ _ _ _)
    | with_reducible apply keepsBut.step (keeps_modJob _ _ _)
    | with_reducible apply keepsBut.step (keeps_upMint _ _)
    | with_reducible apply keepsBut.step (keeps_baleReject _ _ _ _ _)
    | with_reducible apply keepsBut.step (keeps_issueAccess _ _ _ _ _ _)
    | (with_reducible refine step_useKek_got (by assumption) ?_ ?_)
    | (with_reducible refine step_useKek_fails (by assumption) ?_ ?_)
    | (with_reducible refine step_drawNoise (by assumption) ?_ ?_)
    | with_reducible apply keeps_withDraw
    | with_reducible apply keeps_goOn
    | with_reducible apply keeps_goFlow
    | with_reducible apply keepsBut.each
    | with_reducible apply keepsBut.fold
    | with_reducible apply keepsBut.when
    | with_reducible apply keepsBut.ite
    | (intro _)
    | extract_lets
    | split
    | dsimp only
    | dsimp +zetaDelta only

theorem keeps_fillEnds (s : State) (j : Nat) (st : Status) :
    keepsBut [.units, .jobs, .serai, .mint, .house, .scales, .well, .relay, .ledger, .ai] s (fillEnds s j st) := by
  unfold fillEnds
  repeat' first
    | with_reducible apply keepsBut.refl
    | with_reducible assumption
    | (show (_ : Bool) = true; decide)
    | with_reducible apply keepsBut.step (keeps_failJob _ _ _)
    | with_reducible apply keepsBut.step (keeps_countBaleFail _ _)
    | with_reducible apply keepsBut.ite
    | (intro _)
    | extract_lets
    | split
    | dsimp +zetaDelta only

theorem keeps_fillFails (s : State) (f : Nat) (st : Status) :
    keepsBut [.units, .jobs, .serai, .mint, .house, .scales, .well, .relay, .ledger, .ai] s (fillFails s f st) := by
  unfold fillFails
  repeat' first
    | with_reducible apply keepsBut.refl
    | with_reducible assumption
    | (show (_ : Bool) = true; decide)
    | with_reducible apply keepsBut.step (keeps_upMint _ _)
    | with_reducible apply keepsBut.step (keeps_fillEnds _ _ _)
    | with_reducible apply keepsBut.each
    | with_reducible apply keepsBut.ite
    | (intro _)
    | extract_lets
    | split
    | dsimp +zetaDelta only

theorem keeps_fillServes (s : State) (j slot : Nat) (hit : Bool) :
    keepsBut [.units, .rings, .jobs, .lanes, .muster, .serai, .mint, .house, .scales, .well, .relay, .ledger, .ai, .mode, .free] s (fillServes s j slot hit) := by
  unfold fillServes
  repeat' first
    | with_reducible apply keepsBut.refl
    | with_reducible assumption
    | (show (_ : Bool) = true; decide)
    | with_reducible apply keepsBut.step (keeps_loadKey _ _ _ _)
    | with_reducible apply keepsBut.step (keeps_drewFree _ _)
    | with_reducible apply keepsBut.step (keeps_yokeMismatch _ _ _ _)
    | with_reducible apply keepsBut.step (keeps_complete _ _ _ _)
    | with_reducible apply keepsBut.step (keeps_modJob _ _ _)
    | with_reducible apply keepsBut.ite
    | (intro _)
    | extract_lets
    | split
    | dsimp +zetaDelta only

theorem keeps_overflowEach {W : List Part} {s0 : State} (t : BitVec 12) (r : SlotRec) (key : List Byte) (serve : State → Nat → Nat → State)
    (hv : (List.all [.units, .jobs, .serai, .mint, .house, .scales, .well, .relay, .ledger, .ai] fun p => W.contains p) = true) (k : ∀ u j n, keepsBut W s0 u → keepsBut W s0 (serve u j n)) :
    ∀ (js : List Nat) (s sn : State), keepsBut W s0 s → overflowEach t r key serve js s = .inr sn → keepsBut W s0 sn := by
  have sub : ∀ V : List Part, (V.all fun p => ([.units, .jobs, .serai, .mint, .house, .scales, .well, .relay, .ledger, .ai] : List Part).contains p) = true → (V.all fun p => W.contains p) = true := by
    intro V hV
    simp only [List.all_eq_true, List.contains_iff_mem] at *
    exact fun p hp => hv p (hV p hp)
  intro js
  induction js with
  | nil => intro s sn h e; cases e; exact h
  | cons j js ih =>
    intro s sn h e
    unfold overflowEach at e
    split at e
    · rename_i ew
      refine ih _ _ (k _ _ _ ?_) e
      refine keepsBut.step (keeps_upSerai _ _) (sub _ (by decide)) (keepsBut.step (keeps_fillPrivate _ _ _ _ _ _ _ _ _) (sub _ (by decide)) ?_)
      exact step_privateWay_way ew (sub _ (by decide)) h
    · cases e
    · exact ih _ _ (keepsBut.step (keeps_failJob _ _ _) (sub _ (by decide)) h) e

theorem keeps_fillWrites {W : List Part} {s00 s0 s : State} {f set : Nat} {r : SlotRec} {key : List Byte} {serve : State → Nat → Nat → State}
    (hv : (List.all [.units, .jobs, .serai, .mint, .house, .scales, .well, .relay, .ledger, .ai] fun p => W.contains p) = true) (h0 : keepsBut W s00 s0) (h1 : keepsBut W s00 s)
    (hk : ∀ t j k, keepsBut W s00 t → keepsBut W s00 (serve t j k)) : keepsBut W s00 (fillWrites s0 s f set r key serve) := by
  have sub : ∀ V : List Part, (V.all fun p => ([.units, .jobs, .serai, .mint, .house, .scales, .well, .relay, .ledger, .ai] : List Part).contains p) = true → (V.all fun p => W.contains p) = true := by
    intro V hV
    simp only [List.all_eq_true, List.contains_iff_mem] at *
    exact fun p hp => hv p (hV p hp)
  unfold fillWrites
  extract_lets js t s1
  have h2 : keepsBut W s00 s1 := keepsBut.step (keeps_upMint _ _) (sub _ (by decide)) h1
  split
  · rename_i e
    refine keepsBut.eachFrom (fun u j hu => hk _ _ _ (keepsBut.step (keeps_takeLease _ _) (sub _ (by decide)) hu)) _ _ ?_
    exact keepsBut.step (keeps_fillSlot _ _ _ _) (sub _ (by decide)) (step_fillWay_way e (sub _ (by decide)) h2)
  · exact keepsBut.step (keeps_waitWay _ _) (sub _ (by decide)) h0
  · split
    · exact keepsBut.step (keeps_waitWay _ _) (sub _ (by decide)) h0
    · rename_i e
      exact keeps_overflowEach _ _ _ _ (sub _ (by decide)) hk _ _ _ h2 e

theorem keeps_fillBale (s : State) (f : Nat) :
    keepsBut [.units, .rings, .jobs, .lanes, .muster, .serai, .mint, .house, .scales, .well, .relay, .ledger, .ai, .mode, .free] s (fillBale s f) := by
  unfold fillBale
  repeat' first
    | with_reducible apply keepsBut.refl
    | with_reducible assumption
    | (show (_ : Bool) = true; decide)
    | with_reducible apply keepsBut.step (keeps_fillFails _ _ _)
    | with_reducible apply keepsBut.step (keeps_baleReject _ _ _ _ _)
    | (with_reducible refine step_useKek_got (by assumption) ?_ ?_)
    | (with_reducible refine step_useKek_fails (by assumption) ?_ ?_)
    | with_reducible apply keepsBut.step (keeps_waitWay _ _)
    | with_reducible apply keepsBut.step (keeps_upMint _ _)
    | with_reducible apply keeps_fillWrites
    | with_reducible apply keepsBut.step (keeps_fillServes _ _ _ _)
    | with_reducible apply keepsBut.ite
    | (intro _)
    | extract_lets
    | split
    | dsimp +zetaDelta only

theorem keeps_lendRecord (s : State) (j slot : Nat) :
    keepsBut [.jobs, .mint] s (lendRecord s j slot) := by
  unfold lendRecord
  repeat' first
    | with_reducible apply keepsBut.refl
    | with_reducible assumption
    | (show (_ : Bool) = true; decide)
    | with_reducible apply keepsBut.step (keeps_modJob _ _ _)
    | with_reducible apply keepsBut.step (keeps_upMint _ _)
    | with_reducible apply keepsBut.ite
    | (intro _)
    | extract_lets
    | split
    | dsimp +zetaDelta only

theorem keeps_fillRecord (s : State) (f : Nat) :
    keepsBut [.units, .jobs, .serai, .mint, .house, .scales, .well, .relay, .ledger, .ai] s (fillRecord s f) := by
  unfold fillRecord
  repeat' first
    | with_reducible apply keepsBut.refl
    | with_reducible assumption
    | (show (_ : Bool) = true; decide)
    | with_reducible apply keepsBut.step (keeps_upMint _ _)
    | with_reducible apply keepsBut.step (keeps_fillFails _ _ _)
    | with_reducible apply keepsBut.step (keeps_baleReject _ _ _ _ _)
    | with_reducible apply keeps_fillWrites
    | with_reducible apply keepsBut.step (keeps_lendRecord _ _ _)
    | with_reducible apply keepsBut.ite
    | (intro _)
    | extract_lets
    | split
    | dsimp +zetaDelta only

theorem keeps_loadPrivate {W : List Part} {s00 : State} {s0 s : State} (l j : Nat) (c : Compare) (reg : Nat) (parent : Option Nat) (r : SlotRec) (key : List Byte)
    (k : State → State)
    (hv : (List.all [.units, .rings, .jobs, .lanes, .muster, .serai, .mint, .house, .scales, .well, .relay, .ledger, .ai, .mode] fun p => W.contains p) = true) (h0 : keepsBut W s00 s0) (h1 : keepsBut W s00 s) (hk : ∀ t, keepsBut W s00 t → keepsBut W s00 (k t)) :
    keepsBut W s00 (loadPrivate s0 s l j c reg parent r key k) := by
  have sub : ∀ V : List Part, (V.all fun p => ([.units, .rings, .jobs, .lanes, .muster, .serai, .mint, .house, .scales, .well, .relay, .ledger, .ai, .mode] : List Part).contains p) = true → (V.all fun p => W.contains p) = true := by
    intro V hV
    simp only [List.all_eq_true, List.contains_iff_mem] at *
    exact fun p hp => hv p (hV p hp)
  unfold loadPrivate
  repeat' first
    | with_reducible apply keepsBut.refl
    | with_reducible assumption
    | (show (_ : Bool) = true; decide)
    | (with_reducible exact sub _ (by decide))
    | with_reducible apply sub _ (by decide)
    | with_reducible apply keepsBut.step (keeps_endHard _ _ _)
    | with_reducible apply keepsBut.step (keeps_yokeMismatch _ _ _ _)
    | with_reducible apply keepsBut.step (keeps_releaseKey _ _ _)
    | with_reducible apply keepsBut.step (keeps_loadKey _ _ _ _)
    | with_reducible apply keepsBut.step (keeps_fillPrivate _ _ _ _ _ _ _ _ _)
    | (with_reducible apply hk)
    | (with_reducible refine step_privateWay_way (by assumption) ?_ ?_)
    | with_reducible apply keeps_withWay
    | with_reducible apply keepsBut.each
    | with_reducible apply keepsBut.fold
    | with_reducible apply keepsBut.when
    | with_reducible apply keepsBut.ite
    | (intro _)
    | extract_lets
    | split
    | dsimp only
    | dsimp +zetaDelta only

theorem keeps_runCounted (s : State) (l j : Nat) (c : Compare) (r : Res (Nat × Job × List OutW)) :
    keepsBut [.units, .rings, .jobs, .lanes, .muster, .serai, .mint, .house, .scales, .well, .relay, .ledger, .ai, .mode, .ration, .free] s (runCounted s l j c r) := by
  unfold runCounted
  repeat' first
    | with_reducible apply keepsBut.refl
    | with_reducible assumption
    | (show (_ : Bool) = true; decide)
    | with_reducible apply keeps_goOn
    | with_reducible apply keepsBut.step (keeps_runPure _ _ _ _ _)
    | with_reducible apply keepsBut.step (keeps_countBytes _ _ _)
    | with_reducible apply keepsBut.ite
    | (intro _)
    | extract_lets
    | split
    | dsimp +zetaDelta only

theorem keeps_runFlow (s : State) (l j : Nat) (c : Compare) (i : W64) (m : Nat) (r : Res (Nat × Job × List OutW)) :
    keepsBut [.units, .rings, .jobs, .lanes, .muster, .serai, .mint, .house, .scales, .well, .relay, .ledger, .ai, .mode, .ration, .free] s (runFlow s l j c i m r) := by
  unfold runFlow
  repeat' first
    | with_reducible apply keepsBut.refl
    | with_reducible assumption
    | (show (_ : Bool) = true; decide)
    | with_reducible apply keeps_goFlow
    | with_reducible apply keepsBut.step (keeps_runPure _ _ _ _ _)
    | with_reducible apply keepsBut.step (keeps_countBytes _ _ _)
    | with_reducible apply keepsBut.ite
    | (intro _)
    | extract_lets
    | split
    | dsimp +zetaDelta only

theorem keeps_openStart (s : State) (l j : Nat) (i : W64) (c : Compare) (n : Nat) (r : Job × List OutW × Option Bool) :
    keepsBut [.units, .rings, .jobs, .lanes, .muster, .serai, .mint, .house, .scales, .well, .relay, .ledger, .ai, .mode, .ration, .free] s (openStart s l j i c n r) := by
  unfold openStart
  repeat' first
    | with_reducible apply keepsBut.refl
    | with_reducible assumption
    | (show (_ : Bool) = true; decide)
    | with_reducible apply keepsBut.step (keeps_endHard _ _ _)
    | with_reducible apply keepsBut.step (keeps_commit _ _ _ _ _ _)
    | with_reducible apply keepsBut.step (keeps_beatMismatch _ _ _ _ _ _)
    | with_reducible apply keepsBut.step (keeps_modJob _ _ _)
    | with_reducible apply keepsBut.step (keeps_issueOuts _ _ _ _)
    | with_reducible apply keepsBut.ite
    | (intro _)
    | extract_lets
    | split
    | dsimp +zetaDelta only

theorem keeps_openZero (s : State) (l j : Nat) (c : Compare) :
    keepsBut [.units, .rings, .jobs, .lanes, .muster, .serai, .mint, .house, .scales, .well, .relay, .ledger, .ai, .mode, .ration, .free] s (openZero s l j c) := by
  unfold openZero
  repeat' first
    | with_reducible apply keepsBut.refl
    | with_reducible assumption
    | (show (_ : Bool) = true; decide)
    | with_reducible apply keepsBut.step (keeps_complete _ _ _ _)
    | with_reducible apply keepsBut.step (keeps_endHard _ _ _)
    | with_reducible apply keepsBut.step (keeps_beatMismatch _ _ _ _ _ _)
    | with_reducible apply keepsBut.step (keeps_writeStream _ _ _ _ _)
    | with_reducible apply keepsBut.ite
    | (intro _)
    | extract_lets
    | split
    | dsimp +zetaDelta only

theorem keeps_laneEvent (s : State) (sink : Nat) :
    keepsBut [.relay] s (laneEvent s sink) := by
  unfold laneEvent
  repeat' first
    | with_reducible apply keepsBut.refl
    | with_reducible assumption
    | (show (_ : Bool) = true; decide)
    | with_reducible apply keepsBut.step (keeps_upRelay _ _)
    | with_reducible apply keepsBut.ite
    | (intro _)
    | extract_lets
    | split
    | dsimp +zetaDelta only

theorem keeps_withCtx {W : List Part} {s0 s : State} (l j : Nat) (k : State → List Byte → List Byte → State)
    (hv : (List.all [.units, .jobs, .lanes, .serai, .mint, .house, .scales, .well, .relay, .ledger, .ai, .ration] fun p => W.contains p) = true) (h : keepsBut W s0 s)
    (hk : ∀ t a b, keepsBut W s0 t → keepsBut W s0 (k t a b)) : keepsBut W s0 (withCtx s l j k) := by
  have sub : ∀ V : List Part, (V.all fun p => ([.units, .jobs, .lanes, .serai, .mint, .house, .scales, .well, .relay, .ledger, .ai, .ration] : List Part).contains p) = true → (V.all fun p => W.contains p) = true := by
    intro V hV
    simp only [List.all_eq_true, List.contains_iff_mem] at *
    exact fun p hp => hv p (hV p hp)
  unfold withCtx
  extract_lets x kept
  refine keepsBut.ite (hk _ _ _ h) (keepsBut.ite (keepsBut.step (keeps_endHard _ _ _) (sub _ (by decide)) h) ?_)
  split
  · exact keepsBut.step (keeps_wantRecord _ _) (sub _ (by decide)) h
  · rename_i e
    exact keepsBut.step (keeps_endHard _ _ _) (sub _ (by decide)) (step_recordUse_conflict e (sub _ (by decide)) h)
  · rename_i e
    have h1 := step_recordUse_here e (sub _ (by decide)) h
    split
    · exact keepsBut.step (keeps_waitWay _ _) (sub _ (by decide)) h
    · rename_i eu
      exact keepsBut.step (keeps_endHard _ _ _) (sub _ (by decide)) (step_useCtxKeys_fails eu (sub _ (by decide)) h1)
    · rename_i eu
      exact hk _ _ _ (keepsBut.step (keeps_modLane _ _ _) (sub _ (by decide)) (step_useCtxKeys_got eu (sub _ (by decide)) h1))

theorem keeps_poisonLine (s : State) (l j : Nat) (c : Compare) (p : Piece) :
    keepsBut [.units, .rings, .jobs, .lanes, .muster, .serai, .mint, .house, .scales, .well, .relay, .ledger, .ai, .mode, .ration] s (poisonLine s l j c p) := by
  unfold poisonLine
  repeat' first
    | with_reducible apply keepsBut.refl
    | with_reducible assumption
    | (show (_ : Bool) = true; decide)
    | with_reducible apply keepsBut.step (keeps_yokeMismatch _ _ _ _)
    | with_reducible apply keepsBut.step (keeps_emitFor _ _ _ _ _ _)
    | with_reducible apply keepsBut.step (keeps_modJob _ _ _)
    | with_reducible apply keepsBut.step (keeps_issueAccess _ _ _ _ _ _)
    | with_reducible apply keepsBut.ite
    | (intro _)
    | extract_lets
    | split
    | dsimp +zetaDelta only

theorem keeps_readLine {W : List Part} {s : State} (l j : Nat) (i : W64) (c : Compare)
    (k : State → Piece → List Byte × List Byte → List Byte → Job → State)
    (hv : (List.all [.units, .rings, .jobs, .lanes, .muster, .serai, .mint, .house, .scales, .well, .relay, .ledger, .ai, .mode, .ration] fun p => W.contains p) = true)
    (hk : ∀ t p a b y, keepsBut W s t → keepsBut W s (k t p a b y)) : keepsBut W s (readLine s l j i c k) := by
  have sub : ∀ V : List Part, (V.all fun p => ([.units, .rings, .jobs, .lanes, .muster, .serai, .mint, .house, .scales, .well, .relay, .ledger, .ai, .mode, .ration] : List Part).contains p) = true → (V.all fun p => W.contains p) = true := by
    intro V hV
    simp only [List.all_eq_true, List.contains_iff_mem] at *
    exact fun p hp => hv p (hV p hp)
  unfold readLine
  extract_lets x st
  refine keepsBut.ite (keepsBut.step (keeps_endHard _ _ _) (sub _ (by decide)) (keepsBut.refl _ _)) ?_
  refine keeps_goOn _ _ _ (sub _ (by decide)) (keepsBut.refl _ _) (fun p => ?_)
  refine keeps_withCtx _ _ _ (sub _ (by decide)) (keepsBut.refl _ _) (fun t _ b ht => ?_)
  refine keeps_goOn _ _ _ (sub _ (by decide)) ht (fun q => ?_)
  split
  · exact hk _ _ _ _ _ ht
  · exact keepsBut.step (keeps_poisonLine _ _ _ _ _) (sub _ (by decide)) ht
  · exact keepsBut.step (keeps_endHard _ _ _) (sub _ (by decide)) ht

theorem keeps_writeLine (s : State) (l j : Nat) (c : Compare) (p : Piece) (y : Job) (body ckt : List Byte) :
    keepsBut [.units, .rings, .jobs, .lanes, .muster, .serai, .mint, .house, .scales, .well, .relay, .ledger, .ai, .mode, .ration] s (writeLine s l j c p y body ckt) := by
  unfold writeLine
  repeat' first
    | with_reducible apply keepsBut.refl
    | with_reducible assumption
    | (show (_ : Bool) = true; decide)
    | with_reducible apply keepsBut.step (keeps_endHard _ _ _)
    | with_reducible apply keepsBut.step (keeps_yokeMismatch _ _ _ _)
    | with_reducible apply keepsBut.step (keeps_modJob _ _ _)
    | with_reducible apply keepsBut.step (keeps_complete _ _ _ _)
    | with_reducible apply keepsBut.step (keeps_issueAccess _ _ _ _ _ _)
    | with_reducible apply keepsBut.ite
    | (intro _)
    | extract_lets
    | split
    | dsimp +zetaDelta only

theorem keeps_tellMuster (s : State) :
    keepsBut [.muster] s (tellMuster s) := by
  unfold tellMuster
  repeat' first
    | with_reducible apply keepsBut.refl
    | with_reducible assumption
    | (show (_ : Bool) = true; decide)
    | with_reducible apply keepsBut.step (keeps_upMuster _ _)
    | with_reducible apply keepsBut.ite
    | (intro _)
    | extract_lets
    | split
    | dsimp +zetaDelta only

theorem keeps_throttleRecord (s : State) (start thermal : Bool) :
    keepsBut [.relay, .ledger, .ai] s (throttleRecord s start thermal) := by
  unfold throttleRecord
  repeat' first
    | with_reducible apply keepsBut.refl
    | with_reducible assumption
    | (show (_ : Bool) = true; decide)
    | with_reducible apply keepsBut.step (keeps_emit _ _ _ _ _)
    | with_reducible apply keepsBut.step (keeps_rationRaise _ _ _)
    | with_reducible apply keepsBut.ite
    | (intro _)
    | extract_lets
    | split
    | dsimp +zetaDelta only

theorem keeps_floorCheck (s : State) (f : Nat) :
    keepsBut [.relay, .ledger, .ai, .ration] s (floorCheck s f) := by
  unfold floorCheck
  repeat' first
    | with_reducible apply keepsBut.refl
    | with_reducible assumption
    | (show (_ : Bool) = true; decide)
    | with_reducible apply keepsBut.step (keeps_upRation _ _)
    | with_reducible apply keepsBut.step (keeps_rationRaise _ _ _)
    | with_reducible apply keepsBut.step (keeps_emit _ _ _ _ _)
    | with_reducible apply keepsBut.when
    | with_reducible apply keepsBut.ite
    | (intro _)
    | extract_lets
    | split
    | dsimp +zetaDelta only

theorem keeps_epochOver (s : State) :
    keepsBut [.muster, .relay, .ledger, .ai, .ration] s (epochOver s) := by
  unfold epochOver
  repeat' first
    | with_reducible apply keepsBut.refl
    | with_reducible assumption
    | (show (_ : Bool) = true; decide)
    | with_reducible apply keepsBut.step (keeps_upRation _ _)
    | with_reducible apply keepsBut.step (keeps_tellMuster _)
    | with_reducible apply keepsBut.step (keeps_floorCheck _ _)
    | with_reducible apply keepsBut.step (keeps_throttleRecord _ _ _)
    | with_reducible apply keepsBut.ite
    | (intro _)
    | extract_lets
    | split
    | dsimp +zetaDelta only

theorem keeps_raRefuse (s : State) (p : CtlPort) (st : Status) (word : Nat) :
    keepsBut [.ledger, .ration] s (raRefuse s p st word) := by
  unfold raRefuse
  repeat' first
    | with_reducible apply keepsBut.refl
    | with_reducible assumption
    | (show (_ : Bool) = true; decide)
    | with_reducible apply keepsBut.step (keeps_refuseCmd _ _ _ _ _)
    | with_reducible apply keepsBut.step (keeps_upRation _ _)
    | with_reducible apply keepsBut.ite
    | (intro _)
    | extract_lets
    | split
    | dsimp +zetaDelta only

theorem keeps_raBegin (s : State) (ungate : Bool) (d : Nat) :
    keepsBut [.ration] s (raBegin s ungate d) := by
  unfold raBegin
  repeat' first
    | with_reducible apply keepsBut.refl
    | with_reducible assumption
    | (show (_ : Bool) = true; decide)
    | with_reducible apply keepsBut.step (keeps_upRation _ _)
    | with_reducible apply keepsBut.ite
    | (intro _)
    | extract_lets
    | split
    | dsimp +zetaDelta only

theorem keeps_raDone (s : State) :
    keepsBut [.ration] s (raDone s) := by
  unfold raDone
  repeat' first
    | with_reducible apply keepsBut.refl
    | with_reducible assumption
    | (show (_ : Bool) = true; decide)
    | with_reducible apply keepsBut.step (keeps_upRation _ _)
    | with_reducible apply keepsBut.ite
    | (intro _)
    | extract_lets
    | split
    | dsimp +zetaDelta only

theorem keeps_startTests (s : State) (d : Nat) :
    keepsBut [.lanes, .house, .ration] s (startTests s d) := by
  unfold startTests
  repeat' first
    | with_reducible apply keepsBut.refl
    | with_reducible assumption
    | (show (_ : Bool) = true; decide)
    | with_reducible apply keepsBut.step (keeps_modDom _ _ _)
    | with_reducible apply keepsBut.step (keeps_modBench _ _ _)
    | with_reducible apply keepsBut.step (keeps_modLane _ _ _)
    | with_reducible apply keepsBut.each
    | with_reducible apply keepsBut.ite
    | (intro _)
    | extract_lets
    | split
    | dsimp +zetaDelta only

theorem keeps_setAck (s : State) (d : Nat) :
    keepsBut [.pins] s (setAck s d) := by
  unfold setAck
  repeat' first
    | with_reducible apply keepsBut.refl
    | with_reducible assumption
    | (show (_ : Bool) = true; decide)
    | with_reducible apply keepsBut.step (keeps_upPins _ _)
    | with_reducible apply keepsBut.ite
    | (intro _)
    | extract_lets
    | split
    | dsimp +zetaDelta only

theorem keeps_serBegin (s : State) (p : CtlPort) (word : Nat) (f : FlushOp) :
    keepsBut [.serai, .ledger] s (serBegin s p word f) := by
  unfold serBegin
  repeat' first
    | with_reducible apply keepsBut.refl
    | with_reducible assumption
    | (show (_ : Bool) = true; decide)
    | with_reducible apply keepsBut.step (keeps_refuseCmd _ _ _ _ _)
    | with_reducible apply keepsBut.step (keeps_upSerai _ _)
    | with_reducible apply keepsBut.ite
    | (intro _)
    | extract_lets
    | split
    | dsimp +zetaDelta only

theorem keeps_flushEnd (s : State) :
    keepsBut [.serai] s (flushEnd s) := by
  unfold flushEnd
  repeat' first
    | with_reducible apply keepsBut.refl
    | with_reducible assumption
    | (show (_ : Bool) = true; decide)
    | with_reducible apply keepsBut.step (keeps_flushWhere _ _)
    | with_reducible apply keepsBut.step (keeps_upSerai _ _)
    | with_reducible apply keepsBut.ite
    | (intro _)
    | extract_lets
    | split
    | dsimp +zetaDelta only

theorem keeps_remask (s : State) (g : Nat) (m : W512) :
    keepsBut [.serai] s (remask s g m) := by
  unfold remask
  repeat' first
    | with_reducible apply keepsBut.refl
    | with_reducible assumption
    | (show (_ : Bool) = true; decide)
    | with_reducible apply keepsBut.step (keeps_modSlot _ _ _)
    | with_reducible apply keepsBut.step (keeps_upSerai _ _)
    | with_reducible apply keepsBut.step (keeps_unitSlots _ _)
    | with_reducible apply keepsBut.each
    | with_reducible apply keepsBut.ite
    | (intro _)
    | extract_lets
    | split
    | dsimp +zetaDelta only

theorem keeps_deadSlot (s : State) (k : Nat) :
    keepsBut [.serai] s (deadSlot s k) := by
  unfold deadSlot
  repeat' first
    | with_reducible apply keepsBut.refl
    | with_reducible assumption
    | (show (_ : Bool) = true; decide)
    | with_reducible apply keepsBut.step (keeps_modSlot _ _ _)
    | with_reducible apply keepsBut.ite
    | (intro _)
    | extract_lets
    | split
    | dsimp +zetaDelta only

theorem keeps_unqueueReq (s : State) (t : Nat) :
    keepsBut [.house] s (unqueueReq s t) := by
  unfold unqueueReq
  repeat' first
    | with_reducible apply keepsBut.refl
    | with_reducible assumption
    | (show (_ : Bool) = true; decide)
    | with_reducible apply keepsBut.step (keeps_upHouse _ _)
    | with_reducible apply keepsBut.ite
    | (intro _)
    | extract_lets
    | split
    | dsimp +zetaDelta only

theorem keeps_houseNext (s : State) {sn : State} (hEq : houseNext s = some sn) :
    keepsBut [.units, .jobs, .serai, .mint, .house, .scales, .well, .relay, .ledger, .ai, .safe] s sn := by
  unfold houseNext at hEq
  split at hEq
  · cases hEq
  · extract_lets s1 at hEq
    split at hEq
    · cases hEq
    · split at hEq
      all_goals cases hEq
      · exact keepsBut.step (keeps_requestFails _ _ _ _) (by decide) (keepsBut.step (keeps_unqueueReq _ _) (by decide) (keepsBut.refl _ _))
      · exact keepsBut.step (keeps_benchStart _ _ _) (by decide) (keepsBut.step (keeps_unqueueReq _ _) (by decide) (keepsBut.refl _ _))

theorem step_houseNext {W : List Part} {s0 : State} {s : State} {sn : State}
    (hEq : houseNext s = some sn) (hv : (List.all [.units, .jobs, .serai, .mint, .house, .scales, .well, .relay, .ledger, .ai, .safe] fun p => W.contains p) = true) (h : keepsBut W s0 s) :
    keepsBut W s0 sn := keepsBut.step (keeps_houseNext s hEq) hv h

theorem keeps_houseOffer (fuel : Nat) (s : State) :
    keepsBut [.units, .jobs, .serai, .mint, .house, .scales, .well, .relay, .ledger, .ai, .safe] s (houseOffer fuel s) := by
  induction fuel generalizing s with
  | zero => exact keepsBut.refl _ _
  | succ fuel ih =>
    unfold houseOffer
    repeat' first
      | with_reducible apply keepsBut.refl
      | with_reducible assumption
      | (show (_ : Bool) = true; decide)
      | with_reducible apply keepsBut.step (ih _)
      | (with_reducible refine step_houseNext (by assumption) ?_ ?_)
      | with_reducible apply keepsBut.each
      | with_reducible apply keepsBut.fold
      | with_reducible apply keepsBut.when
      | with_reducible apply keepsBut.ite
      | (intro _)
      | extract_lets
      | split
      | dsimp only
      | dsimp +zetaDelta only

theorem keeps_offerBenches (s : State) :
    keepsBut [.units, .jobs, .serai, .mint, .house, .scales, .well, .relay, .ledger, .ai, .safe] s (offerBenches s) := by
  unfold offerBenches
  repeat' first
    | with_reducible apply keepsBut.refl
    | with_reducible assumption
    | (show (_ : Bool) = true; decide)
    | with_reducible apply keepsBut.step (keeps_houseOffer _ _)
    | with_reducible apply keepsBut.ite
    | (intro _)
    | extract_lets
    | split
    | dsimp +zetaDelta only

theorem keeps_leaseMake (s : State) (b : Nat) (r : PkReq) (rnd : List Byte) :
    keepsBut [.house] s (leaseMake s b r rnd).2 := by
  unfold leaseMake
  repeat' first
    | with_reducible apply keepsBut.refl
    | with_reducible assumption
    | (show (_ : Bool) = true; decide)
    | with_reducible apply keepsBut.step (keeps_upHouse _ _)
    | with_reducible apply keepsBut.step (keeps_modBench _ _ _)
    | with_reducible apply keepsBut.each
    | with_reducible apply keepsBut.fold
    | with_reducible apply keepsBut.when
    | with_reducible apply keepsBut.ite
    | (intro _)
    | extract_lets
    | split
    | dsimp only
    | dsimp +zetaDelta only

theorem step_leaseMake {W : List Part} {s0 : State} {s : State} {b : Nat} {r : PkReq} {rnd : List Byte} {a : PkResult} {sn : State}
    (hEq : leaseMake s b r rnd = (a, sn)) (hv : (List.all [.house] fun p => W.contains p) = true) (h : keepsBut W s0 s) :
    keepsBut W s0 sn :=
  keepsBut.step (by have k := keeps_leaseMake s b r rnd; rw [hEq] at k; exact k) hv h

theorem keeps_leaseReturn (s : State) (b : Nat) (r : PkReq) :
    keepsBut [.house] s (leaseReturn s b r) := by
  unfold leaseReturn
  repeat' first
    | with_reducible apply keepsBut.refl
    | with_reducible assumption
    | (show (_ : Bool) = true; decide)
    | with_reducible apply keepsBut.step (keeps_modBench _ _ _)
    | with_reducible apply keepsBut.step (keeps_upHouse _ _)
    | with_reducible apply keepsBut.ite
    | (intro _)
    | extract_lets
    | split
    | dsimp +zetaDelta only

theorem keeps_deliverBytes (s : State) (l j : Nat) (c : Compare) (i : W64) (framed : Bool) (bs : List Byte) :
    keepsBut [.units, .rings, .jobs, .lanes, .muster, .serai, .mint, .house, .scales, .well, .relay, .ledger, .ai, .mode, .ration, .free] s (deliverBytes s l j c i framed bs) := by
  unfold deliverBytes
  repeat' first
    | with_reducible apply keepsBut.refl
    | with_reducible assumption
    | (show (_ : Bool) = true; decide)
    | with_reducible apply keepsBut.step (keeps_runPure _ _ _ _ _)
    | with_reducible apply keepsBut.ite
    | (intro _)
    | extract_lets
    | split
    | dsimp +zetaDelta only

theorem keeps_takeIncoming (s : State) (j : Nat) :
    keepsBut [.serai] s (takeIncoming s j) := by
  unfold takeIncoming
  repeat' first
    | with_reducible apply keepsBut.refl
    | with_reducible assumption
    | (show (_ : Bool) = true; decide)
    | with_reducible apply keepsBut.step (keeps_upSerai _ _)
    | with_reducible apply keepsBut.ite
    | (intro _)
    | extract_lets
    | split
    | dsimp +zetaDelta only

theorem keeps_keepParts (s : State) (j : Nat) (key bs : List Byte) :
    keepsBut [.jobs, .serai] s (keepParts s j key bs) := by
  unfold keepParts
  repeat' first
    | with_reducible apply keepsBut.refl
    | with_reducible assumption
    | (show (_ : Bool) = true; decide)
    | with_reducible apply keepsBut.step (keeps_modJob _ _ _)
    | with_reducible apply keepsBut.step (keeps_upSerai _ _)
    | with_reducible apply keepsBut.ite
    | (intro _)
    | extract_lets
    | split
    | dsimp +zetaDelta only

theorem keeps_pkDeliver (s : State) (l j : Nat) (c : Compare) (i : W64) (bs : List Byte) :
    keepsBut [.units, .rings, .jobs, .lanes, .muster, .serai, .mint, .house, .scales, .well, .relay, .ledger, .ai, .mode, .ration, .free] s (pkDeliver s l j c i bs) := by
  unfold pkDeliver
  repeat' first
    | with_reducible apply keepsBut.refl
    | with_reducible assumption
    | (show (_ : Bool) = true; decide)
    | with_reducible apply keeps_loadPrivate
    | with_reducible apply keepsBut.step (keeps_takeIncoming _ _)
    | with_reducible apply keepsBut.step (keeps_complete _ _ _ _)
    | with_reducible apply keepsBut.step (keeps_deliverBytes _ _ _ _ _ _ _)
    | with_reducible apply keepsBut.ite
    | (intro _)
    | extract_lets
    | split
    | dsimp +zetaDelta only

theorem keeps_keepResult (s : State) (j : Nat) (c : Compare) (key bs : List Byte) :
    keepsBut [.units, .rings, .jobs, .lanes, .muster, .serai, .mint, .house, .scales, .well, .relay, .ledger, .ai, .mode, .ration, .free] s (keepResult s j c key bs) := by
  unfold keepResult
  repeat' first
    | with_reducible apply keepsBut.refl
    | with_reducible assumption
    | (show (_ : Bool) = true; decide)
    | with_reducible apply keepsBut.step (keeps_keepParts _ _ _ _)
    | with_reducible apply keepsBut.step (keeps_pkDeliver _ _ _ _ _ _)
    | with_reducible apply keepsBut.ite
    | (intro _)
    | extract_lets
    | split
    | dsimp +zetaDelta only

theorem keeps_pkQueue (s : State) (l j : Nat) (i : W64) (c : Compare) (q : List Byte × List Byte × Job) :
    keepsBut [.units, .rings, .jobs, .lanes, .muster, .serai, .mint, .house, .scales, .well, .relay, .ledger, .ai, .mode, .safe, .ration] s (pkQueue s l j i c q) := by
  unfold pkQueue
  repeat' first
    | with_reducible apply keepsBut.refl
    | with_reducible assumption
    | (show (_ : Bool) = true; decide)
    | with_reducible apply keepsBut.step (keeps_endHard _ _ _)
    | with_reducible apply keepsBut.step (keeps_wellDeny _)
    | with_reducible apply keepsBut.step (keeps_yokeMismatch _ _ _ _)
    | with_reducible apply keepsBut.step (keeps_modJob _ _ _)
    | with_reducible apply keepsBut.step (keeps_offerBenches _)
    | with_reducible apply keepsBut.step (keeps_wakeRow _)
    | with_reducible apply keepsBut.step (keeps_queuePk _ _)
    | with_reducible apply keepsBut.ite
    | (intro _)
    | extract_lets
    | split
    | dsimp +zetaDelta only

theorem keeps_benchScrub (s : State) (b : Nat) :
    keepsBut [.house] s (benchScrub s b) := by
  unfold benchScrub
  repeat' first
    | with_reducible apply keepsBut.refl
    | with_reducible assumption
    | (show (_ : Bool) = true; decide)
    | with_reducible apply keepsBut.step (keeps_modBench _ _ _)
    | with_reducible apply keepsBut.ite
    | (intro _)
    | extract_lets
    | split
    | dsimp +zetaDelta only

theorem keeps_putResult (s : State) (b : Nat) (r : PkReq) (bs : List Byte) :
    keepsBut [.house] s (putResult s b r bs) := by
  unfold putResult
  repeat' first
    | with_reducible apply keepsBut.refl
    | with_reducible assumption
    | (show (_ : Bool) = true; decide)
    | with_reducible apply keepsBut.step (keeps_modBench _ _ _)
    | with_reducible apply keepsBut.ite
    | (intro _)
    | extract_lets
    | split
    | dsimp +zetaDelta only

theorem keeps_benchGives (s : State) (r : PkReq) (res : PkResult) :
    keepsBut [.units, .rings, .jobs, .lanes, .muster, .serai, .mint, .house, .scales, .well, .relay, .ledger, .ai, .mode, .safe, .ration, .free] s (benchGives s r res) := by
  unfold benchGives
  repeat' first
    | with_reducible apply keepsBut.refl
    | with_reducible assumption
    | (show (_ : Bool) = true; decide)
    | with_reducible apply keepsBut.step (keeps_requestFails _ _ _ _)
    | with_reducible apply keepsBut.step (keeps_internalGives _ _ _ _ _)
    | with_reducible apply keepsBut.step (keeps_keepResult _ _ _ _ _)
    | with_reducible apply keepsBut.ite
    | (intro _)
    | extract_lets
    | split
    | dsimp +zetaDelta only

theorem keeps_chRefuse (s : State) (p : CtlPort) (b : Nat) (st : Status) (word : Nat) :
    keepsBut [.house, .ledger] s (chRefuse s p b st word) := by
  unfold chRefuse
  repeat' first
    | with_reducible apply keepsBut.refl
    | with_reducible assumption
    | (show (_ : Bool) = true; decide)
    | with_reducible apply keepsBut.step (keeps_refuseCmd _ _ _ _ _)
    | with_reducible apply keepsBut.step (keeps_modBench _ _ _)
    | with_reducible apply keepsBut.ite
    | (intro _)
    | extract_lets
    | split
    | dsimp +zetaDelta only

theorem keeps_directStart (s : State) (p : CtlPort) (b op : Nat) (nlen elen : BitVec 9) :
    keepsBut [.units, .house, .ledger] s (directStart s p b op nlen elen) := by
  unfold directStart
  repeat' first
    | with_reducible apply keepsBut.refl
    | with_reducible assumption
    | (show (_ : Bool) = true; decide)
    | with_reducible apply keepsBut.step (keeps_chRefuse _ _ _ _ _)
    | with_reducible apply keepsBut.step (keeps_modUnit _ _ _)
    | with_reducible apply keepsBut.step (keeps_modBench _ _ _)
    | with_reducible apply keepsBut.ite
    | (intro _)
    | extract_lets
    | split
    | dsimp +zetaDelta only

theorem keeps_benchAbortCmd (s : State) (p : CtlPort) (b : Nat) :
    keepsBut [.units, .jobs, .serai, .mint, .house, .scales, .well, .relay, .ledger, .ai, .safe] s (benchAbortCmd s p b) := by
  unfold benchAbortCmd
  repeat' first
    | with_reducible apply keepsBut.refl
    | with_reducible assumption
    | (show (_ : Bool) = true; decide)
    | with_reducible apply keepsBut.step (keeps_modBench _ _ _)
    | with_reducible apply keepsBut.step (keeps_abortBench _ _ _)
    | with_reducible apply keepsBut.step (keeps_offerBenches _)
    | with_reducible apply keepsBut.step (keeps_requestFails _ _ _ _)
    | with_reducible apply keepsBut.step (keeps_wipeBench _ _ _)
    | with_reducible apply keepsBut.step (keeps_chRefuse _ _ _ _ _)
    | with_reducible apply keepsBut.ite
    | (intro _)
    | extract_lets
    | split
    | dsimp +zetaDelta only

theorem keeps_directWipe (s : State) (b : Nat) :
    keepsBut [.units, .jobs, .serai, .mint, .house, .scales, .well, .relay, .ledger, .ai, .safe] s (directWipe s b) := by
  unfold directWipe
  repeat' first
    | with_reducible apply keepsBut.refl
    | with_reducible assumption
    | (show (_ : Bool) = true; decide)
    | with_reducible apply keepsBut.step (keeps_modBench _ _ _)
    | with_reducible apply keepsBut.step (keeps_dropDraws _ _)
    | with_reducible apply keepsBut.step (keeps_benchEnded _ _ _ _)
    | with_reducible apply keepsBut.step (keeps_wipeBench _ _ _)
    | with_reducible apply keepsBut.step (keeps_requestFails _ _ _ _)
    | with_reducible apply keepsBut.when
    | with_reducible apply keepsBut.ite
    | (intro _)
    | extract_lets
    | split
    | dsimp +zetaDelta only

theorem keeps_directChange (s : State) (cfg : W32) :
    keepsBut [.units, .jobs, .serai, .mint, .house, .scales, .well, .relay, .ledger, .ai, .safe] s (directChange s cfg) := by
  unfold directChange
  repeat' first
    | with_reducible apply keepsBut.refl
    | with_reducible assumption
    | (show (_ : Bool) = true; decide)
    | with_reducible apply keepsBut.step (keeps_upHouse _ _)
    | with_reducible apply keepsBut.step (keeps_directWipe _ _)
    | with_reducible apply keepsBut.step (keeps_modBench _ _ _)
    | with_reducible apply keepsBut.step (keeps_offerBenches _)
    | with_reducible apply keepsBut.each
    | with_reducible apply keepsBut.ite
    | (intro _)
    | extract_lets
    | split
    | dsimp +zetaDelta only

theorem keeps_operandRefused (s : State) (p : CtlPort) (off n : Nat) (data : W64) :
    keepsBut [.ledger] s (operandRefused s p off n data) := by
  unfold operandRefused
  repeat' first
    | with_reducible apply keepsBut.refl
    | with_reducible assumption
    | (show (_ : Bool) = true; decide)
    | with_reducible apply keepsBut.step (keeps_regAccess _ _ _ _ _ _)
    | with_reducible apply keepsBut.ite
    | (intro _)
    | extract_lets
    | split
    | dsimp +zetaDelta only

theorem keeps_faultBench (s : State) (b : Nat) :
    keepsBut [.units, .house] s (faultBench s b) := by
  unfold faultBench
  repeat' first
    | with_reducible apply keepsBut.refl
    | with_reducible assumption
    | (show (_ : Bool) = true; decide)
    | with_reducible apply keepsBut.step (keeps_modUnit _ _ _)
    | with_reducible apply keepsBut.step (keeps_modBench _ _ _)
    | with_reducible apply keepsBut.ite
    | (intro _)
    | extract_lets
    | split
    | dsimp +zetaDelta only

theorem keeps_ctxStart (s : State) (c : Nat) (r : LatReq) :
    keepsBut [.scales, .well] s (ctxStart s c r) := by
  unfold ctxStart
  repeat' first
    | with_reducible apply keepsBut.refl
    | with_reducible assumption
    | (show (_ : Bool) = true; decide)
    | with_reducible apply keepsBut.step (keeps_askDraw _ _ _ _)
    | with_reducible apply keepsBut.step (keeps_modCtx _ _ _)
    | with_reducible apply keepsBut.when
    | with_reducible apply keepsBut.ite
    | (intro _)
    | extract_lets
    | split
    | dsimp +zetaDelta only

theorem keeps_scalesNext (s : State) {sn : State} (hEq : scalesNext s = some sn) :
    keepsBut [.units, .jobs, .serai, .mint, .house, .scales, .well, .relay, .ledger, .ai, .safe] s sn := by
  unfold scalesNext at hEq
  split at hEq
  · cases hEq
  · extract_lets s1 at hEq
    split at hEq
    · cases hEq
    · split at hEq
      all_goals cases hEq
      · exact keepsBut.step (keeps_requestFails _ _ _ _) (by decide) (keepsBut.step (keeps_upScales _ _) (by decide) (keepsBut.refl _ _))
      · exact keepsBut.step (keeps_ctxStart _ _ _) (by decide) (keepsBut.step (keeps_upScales _ _) (by decide) (keepsBut.refl _ _))

theorem step_scalesNext {W : List Part} {s0 : State} {s : State} {sn : State}
    (hEq : scalesNext s = some sn) (hv : (List.all [.units, .jobs, .serai, .mint, .house, .scales, .well, .relay, .ledger, .ai, .safe] fun p => W.contains p) = true) (h : keepsBut W s0 s) :
    keepsBut W s0 sn := keepsBut.step (keeps_scalesNext s hEq) hv h

theorem keeps_scalesOffer (fuel : Nat) (s : State) :
    keepsBut [.units, .jobs, .serai, .mint, .house, .scales, .well, .relay, .ledger, .ai, .safe] s (scalesOffer fuel s) := by
  induction fuel generalizing s with
  | zero => exact keepsBut.refl _ _
  | succ fuel ih =>
    unfold scalesOffer
    repeat' first
      | with_reducible apply keepsBut.refl
      | with_reducible assumption
      | (show (_ : Bool) = true; decide)
      | with_reducible apply keepsBut.step (ih _)
      | (with_reducible refine step_scalesNext (by assumption) ?_ ?_)
      | with_reducible apply keepsBut.each
      | with_reducible apply keepsBut.fold
      | with_reducible apply keepsBut.when
      | with_reducible apply keepsBut.ite
      | (intro _)
      | extract_lets
      | split
      | dsimp only
      | dsimp +zetaDelta only

theorem keeps_offerCtxs (s : State) :
    keepsBut [.units, .jobs, .serai, .mint, .house, .scales, .well, .relay, .ledger, .ai, .safe] s (offerCtxs s) := by
  unfold offerCtxs
  repeat' first
    | with_reducible apply keepsBut.refl
    | with_reducible assumption
    | (show (_ : Bool) = true; decide)
    | with_reducible apply keepsBut.step (keeps_scalesOffer _ _)
    | with_reducible apply keepsBut.ite
    | (intro _)
    | extract_lets
    | split
    | dsimp +zetaDelta only

theorem keeps_deliverPair (s : State) (l j : Nat) (c : Compare) (i : W64) (r : SlotRec) (key bs : List Byte) :
    keepsBut [.units, .rings, .jobs, .lanes, .muster, .serai, .mint, .house, .scales, .well, .relay, .ledger, .ai, .mode, .ration, .free] s (deliverPair s l j c i r key bs) := by
  unfold deliverPair
  repeat' first
    | with_reducible apply keepsBut.refl
    | with_reducible assumption
    | (show (_ : Bool) = true; decide)
    | with_reducible apply keeps_loadPrivate
    | with_reducible apply keepsBut.step (keeps_takeIncoming _ _)
    | with_reducible apply keepsBut.step (keeps_deliverBytes _ _ _ _ _ _ _)
    | with_reducible apply keepsBut.ite
    | (intro _)
    | extract_lets
    | split
    | dsimp +zetaDelta only

theorem keeps_shareKey (s : State) (j from_ reg : Nat) :
    keepsBut [.jobs, .serai] s (shareKey s j from_ reg) := by
  unfold shareKey
  repeat' first
    | with_reducible apply keepsBut.refl
    | with_reducible assumption
    | (show (_ : Bool) = true; decide)
    | with_reducible apply keepsBut.step (keeps_loadKey _ _ _ _)
    | with_reducible apply keepsBut.step (keeps_takeLease _ _)
    | with_reducible apply keepsBut.ite
    | (intro _)
    | extract_lets
    | split
    | dsimp +zetaDelta only

theorem keeps_latDeliver (s : State) (l j : Nat) (c : Compare) (i : W64) (bs : List Byte) :
    keepsBut [.units, .rings, .jobs, .lanes, .muster, .serai, .mint, .house, .scales, .well, .relay, .ledger, .ai, .mode, .ration, .free] s (latDeliver s l j c i bs) := by
  unfold latDeliver
  repeat' first
    | with_reducible apply keepsBut.refl
    | with_reducible assumption
    | (show (_ : Bool) = true; decide)
    | with_reducible apply keepsBut.step (keeps_deliverPair _ _ _ _ _ _ _ _)
    | with_reducible apply keeps_loadPrivate
    | with_reducible apply keepsBut.step (keeps_takeIncoming _ _)
    | with_reducible apply keepsBut.step (keeps_complete _ _ _ _)
    | with_reducible apply keepsBut.step (keeps_shareKey _ _ _ _)
    | with_reducible apply keepsBut.step (keeps_deliverBytes _ _ _ _ _ _ _)
    | with_reducible apply keepsBut.ite
    | (intro _)
    | extract_lets
    | split
    | dsimp +zetaDelta only

theorem keeps_keepLattice (s : State) (j : Nat) (c : Compare) (key bs : List Byte) :
    keepsBut [.units, .rings, .jobs, .lanes, .muster, .serai, .mint, .house, .scales, .well, .relay, .ledger, .ai, .mode, .ration, .free] s (keepLattice s j c key bs) := by
  unfold keepLattice
  repeat' first
    | with_reducible apply keepsBut.refl
    | with_reducible assumption
    | (show (_ : Bool) = true; decide)
    | with_reducible apply keepsBut.step (keeps_keepParts _ _ _ _)
    | with_reducible apply keepsBut.step (keeps_latDeliver _ _ _ _ _ _)
    | with_reducible apply keepsBut.ite
    | (intro _)
    | extract_lets
    | split
    | dsimp +zetaDelta only

theorem keeps_latQueue (s : State) (l j : Nat) (i : W64) (c : Compare) (q : List Byte × List Byte × List Byte × Job) :
    keepsBut [.units, .rings, .jobs, .lanes, .muster, .serai, .mint, .house, .scales, .well, .relay, .ledger, .ai, .mode, .safe] s (latQueue s l j i c q) := by
  unfold latQueue
  repeat' first
    | with_reducible apply keepsBut.refl
    | with_reducible assumption
    | (show (_ : Bool) = true; decide)
    | with_reducible apply keepsBut.step (keeps_endHard _ _ _)
    | with_reducible apply keepsBut.step (keeps_wellDeny _)
    | with_reducible apply keepsBut.step (keeps_yokeMismatch _ _ _ _)
    | with_reducible apply keepsBut.step (keeps_modJob _ _ _)
    | with_reducible apply keepsBut.step (keeps_offerCtxs _)
    | with_reducible apply keepsBut.step (keeps_queueLat _ _)
    | with_reducible apply keepsBut.ite
    | (intro _)
    | extract_lets
    | split
    | dsimp +zetaDelta only

theorem keeps_ctxGives (s : State) (r : LatReq) (res : Option (List Byte × List Byte)) :
    keepsBut [.units, .rings, .jobs, .lanes, .muster, .serai, .mint, .house, .scales, .well, .relay, .ledger, .ai, .mode, .safe, .ration, .free] s (ctxGives s r res) := by
  unfold ctxGives
  repeat' first
    | with_reducible apply keepsBut.refl
    | with_reducible assumption
    | (show (_ : Bool) = true; decide)
    | with_reducible apply keepsBut.step (keeps_requestFails _ _ _ _)
    | with_reducible apply keepsBut.step (keeps_keepLattice _ _ _ _ _)
    | with_reducible apply keepsBut.step (keeps_internalGives _ _ _ _ _)
    | with_reducible apply keepsBut.ite
    | (intro _)
    | extract_lets
    | split
    | dsimp +zetaDelta only

theorem keeps_ctxAbort (s : State) (c : Nat) :
    keepsBut [.units, .jobs, .serai, .mint, .house, .scales, .well, .relay, .ledger, .ai, .safe] s (ctxAbort s c) := by
  unfold ctxAbort
  repeat' first
    | with_reducible apply keepsBut.refl
    | with_reducible assumption
    | (show (_ : Bool) = true; decide)
    | with_reducible apply keepsBut.step (keeps_requestFails _ _ _ _)
    | with_reducible apply keepsBut.step (keeps_abortCtx _ _)
    | with_reducible apply keepsBut.ite
    | (intro _)
    | extract_lets
    | split
    | dsimp +zetaDelta only

theorem keeps_ctxWipe (s : State) (c : Nat) :
    keepsBut [.jobs, .serai, .scales, .relay] s (ctxWipe s c) := by
  unfold ctxWipe
  repeat' first
    | with_reducible apply keepsBut.refl
    | with_reducible assumption
    | (show (_ : Bool) = true; decide)
    | with_reducible apply keepsBut.step (keeps_dropCtxHolding _ _)
    | with_reducible apply keepsBut.step (keeps_upScales _ _)
    | with_reducible apply keepsBut.step (keeps_modCtx _ _ _)
    | with_reducible apply keepsBut.ite
    | (intro _)
    | extract_lets
    | split
    | dsimp +zetaDelta only

theorem keeps_scCfgSet (s : State) (v : Nat) :
    keepsBut [.units, .jobs, .serai, .mint, .house, .scales, .well, .relay, .ledger, .ai, .safe] s (scCfgSet s v) := by
  unfold scCfgSet
  repeat' first
    | with_reducible apply keepsBut.refl
    | with_reducible assumption
    | (show (_ : Bool) = true; decide)
    | with_reducible apply keepsBut.step (keeps_upScales _ _)
    | with_reducible apply keepsBut.step (keeps_offerCtxs _)
    | with_reducible apply keepsBut.step (keeps_modCtx _ _ _)
    | with_reducible apply keepsBut.each
    | with_reducible apply keepsBut.ite
    | (intro _)
    | extract_lets
    | split
    | dsimp +zetaDelta only

theorem keeps_scCfgWrite (s : State) (p : CtlPort) (v : Nat) :
    keepsBut [.units, .jobs, .serai, .mint, .house, .scales, .well, .relay, .ledger, .ai, .safe] s (scCfgWrite s p v) := by
  unfold scCfgWrite
  repeat' first
    | with_reducible apply keepsBut.refl
    | with_reducible assumption
    | (show (_ : Bool) = true; decide)
    | with_reducible apply keepsBut.step (keeps_scCfgSet _ _)
    | with_reducible apply keepsBut.step (keeps_regAccess _ _ _ _ _ _)
    | with_reducible apply keepsBut.ite
    | (intro _)
    | extract_lets
    | split
    | dsimp +zetaDelta only

theorem keeps_ctxFault (s : State) (c : Nat) :
    keepsBut [.units, .jobs, .serai, .mint, .house, .scales, .well, .relay, .ledger, .ai, .safe] s (ctxFault s c) := by
  unfold ctxFault
  repeat' first
    | with_reducible apply keepsBut.refl
    | with_reducible assumption
    | (show (_ : Bool) = true; decide)
    | with_reducible apply keepsBut.step (keeps_mintRefuse _ _ _ _)
    | with_reducible apply keepsBut.step (keeps_dropCtxHolding _ _)
    | with_reducible apply keepsBut.step (keeps_ctxAbort _ _)
    | with_reducible apply keepsBut.step (keeps_raise _ _)
    | with_reducible apply keepsBut.when
    | with_reducible apply keepsBut.ite
    | (intro _)
    | extract_lets
    | split
    | dsimp +zetaDelta only

theorem keeps_charterRecord (s : State) (seq : W64) (st : Status) (reason index : Nat) (cmds : List W32) :
    keepsBut [.ledger] s (charterRecord s seq st reason index cmds) := by
  unfold charterRecord
  repeat' first
    | with_reducible apply keepsBut.refl
    | with_reducible assumption
    | (show (_ : Bool) = true; decide)
    | with_reducible apply keepsBut.step (keeps_emit _ _ _ _ _)
    | with_reducible apply keepsBut.ite
    | (intro _)
    | extract_lets
    | split
    | dsimp +zetaDelta only

theorem keeps_charterRefuse (s : State) (seq : W64) (st : Status) (reason index : Nat) :
    keepsBut [.mint, .ledger] s (charterRefuse s seq st reason index) := by
  unfold charterRefuse
  repeat' first
    | with_reducible apply keepsBut.refl
    | with_reducible assumption
    | (show (_ : Bool) = true; decide)
    | with_reducible apply keepsBut.step (keeps_upMint _ _)
    | with_reducible apply keepsBut.step (keeps_charterRecord _ _ _ _ _ _)
    | with_reducible apply keepsBut.ite
    | (intro _)
    | extract_lets
    | split
    | dsimp +zetaDelta only

theorem keeps_chIssue (s : State) (bs : List Byte) (cmds : List ChCmd) (k : Nat) :
    keepsBut [.mint, .house, .scales] s (chIssue s bs cmds k) := by
  unfold chIssue
  repeat' first
    | with_reducible apply keepsBut.refl
    | with_reducible assumption
    | (show (_ : Bool) = true; decide)
    | with_reducible apply keepsBut.step (keeps_upMint _ _)
    | with_reducible apply keepsBut.step (keeps_queueLat _ _)
    | with_reducible apply keepsBut.step (keeps_queuePk _ _)
    | with_reducible apply keepsBut.ite
    | (intro _)
    | extract_lets
    | split
    | dsimp +zetaDelta only

theorem keeps_setBox (s : State) (f : Strongbox → Strongbox) :
    keepsBut [.watch] s (setBox s f) := by
  unfold setBox
  repeat' first
    | with_reducible apply keepsBut.refl
    | with_reducible assumption
    | (show (_ : Bool) = true; decide)
    | with_reducible apply keepsBut.step (keeps_upWatch _ _)
    | with_reducible apply keepsBut.ite
    | (intro _)
    | extract_lets
    | split
    | dsimp +zetaDelta only

theorem keeps_wipeFor (s : State) (p : Nat → Bool) (cause : Nat) :
    keepsBut [.jobs, .serai, .house, .relay, .ledger] s (wipeFor s p cause) := by
  unfold wipeFor
  repeat' first
    | with_reducible apply keepsBut.refl
    | with_reducible assumption
    | (show (_ : Bool) = true; decide)
    | with_reducible apply keepsBut.step (keeps_wipeBench _ _ _)
    | with_reducible apply keepsBut.each
    | with_reducible apply keepsBut.ite
    | (intro _)
    | extract_lets
    | split
    | dsimp +zetaDelta only

theorem keeps_epochChanged (s : State) (t : Nat) :
    keepsBut [.jobs, .serai, .house, .relay, .ledger] s (epochChanged s t) := by
  unfold epochChanged
  repeat' first
    | with_reducible apply keepsBut.refl
    | with_reducible assumption
    | (show (_ : Bool) = true; decide)
    | with_reducible apply keepsBut.step (keeps_flushWhere _ _)
    | with_reducible apply keepsBut.step (keeps_wipeFor _ _ _)
    | with_reducible apply keepsBut.ite
    | (intro _)
    | extract_lets
    | split
    | dsimp +zetaDelta only

theorem keeps_chCommitTally (s : State) (q : ChState) :
    keepsBut [.jobs, .serai, .house, .relay, .ledger, .watch] s (chCommitTally s q) := by
  unfold chCommitTally
  repeat' first
    | with_reducible apply keepsBut.refl
    | with_reducible assumption
    | (show (_ : Bool) = true; decide)
    | with_reducible apply keepsBut.step (keeps_setBox _ _)
    | with_reducible apply keepsBut.step (keeps_flushWhere _ _)
    | with_reducible apply keepsBut.step (keeps_epochChanged _ _)
    | with_reducible apply keepsBut.each
    | with_reducible apply keepsBut.ite
    | (intro _)
    | extract_lets
    | split
    | dsimp +zetaDelta only

theorem keeps_bindRing (s : State) (b : Nat → Nat → Nat) :
    keepsBut [.rings, .jobs, .serai, .house, .relay, .ledger] s (bindRing s b) := by
  unfold bindRing
  repeat' first
    | with_reducible apply keepsBut.refl
    | with_reducible assumption
    | (show (_ : Bool) = true; decide)
    | with_reducible apply keepsBut.step (keeps_wipeFor _ _ _)
    | with_reducible apply keepsBut.step (keeps_modRing _ _ _)
    | with_reducible apply keepsBut.ite
    | (intro _)
    | extract_lets
    | split
    | dsimp +zetaDelta only

theorem keeps_ownerClear (s : State) :
    keepsBut [.jobs, .serai, .mint, .house, .relay, .ledger, .watch] s (ownerClear s) := by
  unfold ownerClear
  repeat' first
    | with_reducible apply keepsBut.refl
    | with_reducible assumption
    | (show (_ : Bool) = true; decide)
    | with_reducible apply keepsBut.step (keeps_setBox _ _)
    | with_reducible apply keepsBut.step (keeps_flushWhere _ _)
    | with_reducible apply keepsBut.step (keeps_ownerKeys _)
    | with_reducible apply keepsBut.step (keeps_wipeBench _ _ _)
    | with_reducible apply keepsBut.each
    | with_reducible apply keepsBut.ite
    | (intro _)
    | extract_lets
    | split
    | dsimp +zetaDelta only

theorem keeps_ownerInstall (s : State) (os : List Byte) :
    keepsBut [.mint, .watch] s (ownerInstall s os) := by
  unfold ownerInstall
  repeat' first
    | with_reducible apply keepsBut.refl
    | with_reducible assumption
    | (show (_ : Bool) = true; decide)
    | with_reducible apply keepsBut.step (keeps_ownerKeys _)
    | with_reducible apply keepsBut.step (keeps_setBox _ _)
    | with_reducible apply keepsBut.ite
    | (intro _)
    | extract_lets
    | split
    | dsimp +zetaDelta only

theorem keeps_chEffects (bs : List Byte) (n : Nat) (cs : List ChCmd) (s : State) :
    keepsBut [.rings, .jobs, .serai, .mint, .house, .relay, .ledger, .watch] s (chEffects bs n cs s) := by
  induction cs generalizing n s with
  | nil => exact keepsBut.refl _ _
  | cons c cs ih =>
    unfold chEffects
    split
    · exact keepsBut.step (ih _ _) (by decide) (keepsBut.step (keeps_bindRing _ _) (by decide) (keepsBut.refl _ _))
    · exact keepsBut.step (ih _ _) (by decide) (keepsBut.step (keeps_ownerInstall _ _) (by decide) (keepsBut.refl _ _))
    · exact keepsBut.step (ih _ _) (by decide) (keepsBut.step (keeps_ownerClear _) (by decide) (keepsBut.refl _ _))
    · exact ih _ _

theorem keeps_charterEnd (s : State) :
    keepsBut [.mint, .house, .scales] s (charterEnd s) := by
  unfold charterEnd
  repeat' first
    | with_reducible apply keepsBut.refl
    | with_reducible assumption
    | (show (_ : Bool) = true; decide)
    | with_reducible apply keepsBut.step (keeps_modCtx _ _ _)
    | with_reducible apply keepsBut.step (keeps_upHouse _ _)
    | with_reducible apply keepsBut.step (keeps_upScales _ _)
    | with_reducible apply keepsBut.step (keeps_upMint _ _)
    | with_reducible apply keepsBut.each
    | with_reducible apply keepsBut.ite
    | (intro _)
    | extract_lets
    | split
    | dsimp +zetaDelta only

theorem keeps_charterCommit (s : State) (bs : List Byte) (cmds : List ChCmd) (q : ChState) :
    keepsBut [.rings, .jobs, .serai, .mint, .house, .relay, .ledger, .watch] s (charterCommit s bs cmds q) := by
  unfold charterCommit
  repeat' first
    | with_reducible apply keepsBut.refl
    | with_reducible assumption
    | (show (_ : Bool) = true; decide)
    | with_reducible apply keepsBut.step (keeps_chCommitTally _ _)
    | with_reducible apply keepsBut.step (keeps_setBox _ _)
    | with_reducible apply keepsBut.step (keeps_chEffects _ _ _ _)
    | with_reducible apply keepsBut.step (keeps_upMint _ _)
    | with_reducible apply keepsBut.step (keeps_charterRecord _ _ _ _ _ _)
    | with_reducible apply keepsBut.ite
    | (intro _)
    | extract_lets
    | split
    | dsimp +zetaDelta only

theorem keeps_charterChecked (s : State) :
    keepsBut [.mint, .house, .scales, .ledger, .ration] s (charterChecked s) := by
  unfold charterChecked
  repeat' first
    | with_reducible apply keepsBut.refl
    | with_reducible assumption
    | (show (_ : Bool) = true; decide)
    | with_reducible apply keepsBut.step (keeps_mintRefuse _ _ _ _)
    | with_reducible apply keepsBut.step (keeps_chIssue _ _ _ _)
    | with_reducible apply keepsBut.step (keeps_wakeDom _ _)
    | with_reducible apply keepsBut.ite
    | (intro _)
    | extract_lets
    | split
    | dsimp +zetaDelta only

theorem keeps_charterPassed (s : State) (k : Nat) :
    keepsBut [.mint, .house, .scales, .well, .ai, .ration] s (charterPassed s k) := by
  unfold charterPassed
  repeat' first
    | with_reducible apply keepsBut.refl
    | with_reducible assumption
    | (show (_ : Bool) = true; decide)
    | with_reducible apply keepsBut.step (keeps_mintRefuse _ _ _ _)
    | with_reducible apply keepsBut.step (keeps_wellDeny _)
    | with_reducible apply keepsBut.step (keeps_chIssue _ _ _ _)
    | with_reducible apply keepsBut.step (keeps_issueAccess _ _ _ _ _ _)
    | with_reducible apply keepsBut.step (keeps_upMint _ _)
    | with_reducible apply keepsBut.ite
    | (intro _)
    | extract_lets
    | split
    | dsimp +zetaDelta only

theorem keeps_charterTallied (s : State) (ok : Bool) :
    keepsBut [.units, .rings, .jobs, .lanes, .muster, .serai, .mint, .house, .scales, .well, .relay, .ledger, .ai, .mode, .ration, .free] s (charterTallied s ok) := by
  unfold charterTallied
  repeat' first
    | with_reducible apply keepsBut.refl
    | with_reducible assumption
    | (show (_ : Bool) = true; decide)
    | with_reducible apply keepsBut.step (keeps_mintRefuse _ _ _ _)
    | with_reducible apply keepsBut.step (keeps_upMint _ _)
    | with_reducible apply keepsBut.step (keeps_issueAccess _ _ _ _ _ _)
    | with_reducible apply keepsBut.ite
    | (intro _)
    | extract_lets
    | split
    | dsimp +zetaDelta only

theorem keeps_charterAdvance (s : State) :
    keepsBut [.units, .rings, .jobs, .lanes, .muster, .serai, .mint, .house, .scales, .well, .relay, .ledger, .ai, .mode, .ration, .free] s (charterAdvance s) := by
  unfold charterAdvance
  repeat' first
    | with_reducible apply keepsBut.refl
    | with_reducible assumption
    | (show (_ : Bool) = true; decide)
    | with_reducible apply keepsBut.step (keeps_mintRefuse _ _ _ _)
    | with_reducible apply keepsBut.step (keeps_charterChecked _)
    | with_reducible apply keepsBut.step (keeps_charterPassed _ _)
    | with_reducible apply keepsBut.step (keeps_charterTallied _ _)
    | with_reducible apply keepsBut.ite
    | (intro _)
    | extract_lets
    | split
    | dsimp +zetaDelta only

theorem keeps_faultJob (lead : Nat) (s : State) (j : Nat) :
    keepsBut [.units, .rings, .jobs, .lanes, .muster, .serai, .mint, .house, .scales, .well, .relay, .ledger, .ai] s (faultJob lead s j) := by
  unfold faultJob
  repeat' first
    | with_reducible apply keepsBut.refl
    | with_reducible assumption
    | (show (_ : Bool) = true; decide)
    | with_reducible apply keepsBut.step (keeps_wipeEnded _ _ _)
    | with_reducible apply keepsBut.step (keeps_endHard _ _ _)
    | with_reducible apply keepsBut.step (keeps_endAside _ _ _ _)
    | with_reducible apply keepsBut.ite
    | (intro _)
    | extract_lets
    | split
    | dsimp +zetaDelta only

theorem keeps_faultLane (s : State) (l row : Nat) :
    keepsBut [.units, .rings, .jobs, .lanes, .muster, .serai, .mint, .house, .scales, .well, .relay, .ledger, .ai, .mode, .ration] s (faultLane s l row) := by
  unfold faultLane
  repeat' first
    | with_reducible apply keepsBut.refl
    | with_reducible assumption
    | (show (_ : Bool) = true; decide)
    | with_reducible apply keepsBut.step (keeps_containString _ _ _)
    | with_reducible apply keepsBut.step (keeps_faultJob _ _ _)
    | with_reducible apply keepsBut.step (keeps_returnLanes _ _)
    | with_reducible apply keepsBut.step (keeps_queueFront _ _)
    | with_reducible apply keepsBut.step (keeps_returnJob _ _)
    | with_reducible apply keepsBut.step (keeps_modLane _ _ _)
    | with_reducible apply keepsBut.step (keeps_quarantineLane _ _)
    | with_reducible apply keepsBut.step (keeps_testsEnd _ _)
    | with_reducible apply keepsBut.step (keeps_emit _ _ _ _ _)
    | with_reducible apply keepsBut.each
    | with_reducible apply keepsBut.ite
    | (intro _)
    | extract_lets
    | split
    | dsimp +zetaDelta only

theorem keeps_routeLost (s : State) (route unit : Nat) :
    keepsBut [.units, .routes, .jobs, .serai, .mint, .house, .scales, .well, .relay, .ledger, .ai] s (routeLost s route unit) := by
  unfold routeLost
  repeat' first
    | with_reducible apply keepsBut.refl
    | with_reducible assumption
    | (show (_ : Bool) = true; decide)
    | with_reducible apply keepsBut.step (keeps_routeClear _ _)
    | with_reducible apply keepsBut.step (keeps_failJob _ _ _)
    | with_reducible apply keepsBut.ite
    | (intro _)
    | extract_lets
    | split
    | dsimp +zetaDelta only

theorem keeps_readLost (s : State) (port tag : Nat) :
    keepsBut [.ai] s (readLost s port tag) := by
  unfold readLost
  repeat' first
    | with_reducible apply keepsBut.refl
    | with_reducible assumption
    | (show (_ : Bool) = true; decide)
    | with_reducible apply keepsBut.step (keeps_modPort _ _ _)
    | with_reducible apply keepsBut.ite
    | (intro _)
    | extract_lets
    | split
    | dsimp +zetaDelta only

theorem keeps_maskLost (s : State) (g : Nat) :
    keepsBut [.serai, .ledger] s (maskLost s g) := by
  unfold maskLost
  repeat' first
    | with_reducible apply keepsBut.refl
    | with_reducible assumption
    | (show (_ : Bool) = true; decide)
    | with_reducible apply keepsBut.step (keeps_seraiRecord _ _ _ _)
    | with_reducible apply keepsBut.step (keeps_deadSlot _ _)
    | with_reducible apply keepsBut.each
    | with_reducible apply keepsBut.ite
    | (intro _)
    | extract_lets
    | split
    | dsimp +zetaDelta only

theorem keeps_sourceFails (s : State) (n test : Nat) :
    keepsBut [.well, .ledger] s (sourceFails s n test) := by
  unfold sourceFails
  repeat' first
    | with_reducible apply keepsBut.refl
    | with_reducible assumption
    | (show (_ : Bool) = true; decide)
    | with_reducible apply keepsBut.step (keeps_emit _ _ _ _ _)
    | with_reducible apply keepsBut.step (keeps_upWell _ _)
    | with_reducible apply keepsBut.ite
    | (intro _)
    | extract_lets
    | split
    | dsimp +zetaDelta only

theorem keeps_benchDry (s : State) (b : Nat) :
    keepsBut [.units, .jobs, .serai, .mint, .house, .scales, .well, .relay, .ledger, .ai, .safe] s (benchDry s b) := by
  unfold benchDry
  repeat' first
    | with_reducible apply keepsBut.refl
    | with_reducible assumption
    | (show (_ : Bool) = true; decide)
    | with_reducible apply keepsBut.step (keeps_benchScrub _ _)
    | with_reducible apply keepsBut.step (keeps_modBench _ _ _)
    | with_reducible apply keepsBut.step (keeps_requestFails _ _ _ _)
    | with_reducible apply keepsBut.step (keeps_benchEnded _ _ _ _)
    | with_reducible apply keepsBut.ite
    | (intro _)
    | extract_lets
    | split
    | dsimp +zetaDelta only

theorem keeps_ctxDry (s : State) (c : Nat) :
    keepsBut [.units, .jobs, .serai, .mint, .house, .scales, .well, .relay, .ledger, .ai, .safe] s (ctxDry s c) := by
  unfold ctxDry
  repeat' first
    | with_reducible apply keepsBut.refl
    | with_reducible assumption
    | (show (_ : Bool) = true; decide)
    | with_reducible apply keepsBut.step (keeps_requestFails _ _ _ _)
    | with_reducible apply keepsBut.step (keeps_ctxEnded _ _ _)
    | with_reducible apply keepsBut.step (keeps_scrubCtx _ _)
    | with_reducible apply keepsBut.step (keeps_modCtx _ _ _)
    | with_reducible apply keepsBut.ite
    | (intro _)
    | extract_lets
    | split
    | dsimp +zetaDelta only

theorem keeps_drawFails (s : State) (d : DrawRec) :
    keepsBut [.units, .jobs, .serai, .mint, .house, .scales, .well, .relay, .ledger, .ai, .fuse, .safe] s (drawFails s d) := by
  unfold drawFails
  repeat' first
    | with_reducible apply keepsBut.refl
    | with_reducible assumption
    | (show (_ : Bool) = true; decide)
    | with_reducible apply keepsBut.step (keeps_benchDry _ _)
    | with_reducible apply keepsBut.step (keeps_ctxDry _ _)
    | with_reducible apply keepsBut.step (keeps_genrootFails _)
    | with_reducible apply keepsBut.step (keeps_failJob _ _ _)
    | with_reducible apply keepsBut.step (keeps_upSerai _ _)
    | with_reducible apply keepsBut.ite
    | (intro _)
    | extract_lets
    | split
    | dsimp +zetaDelta only

theorem keeps_failDraws (s : State) :
    keepsBut [.units, .jobs, .serai, .mint, .house, .scales, .well, .relay, .ledger, .ai, .fuse, .safe] s (failDraws s) := by
  unfold failDraws
  repeat' first
    | with_reducible apply keepsBut.refl
    | with_reducible assumption
    | (show (_ : Bool) = true; decide)
    | with_reducible apply keepsBut.step (keeps_upWell _ _)
    | with_reducible apply keepsBut.step (keeps_upHouse _ _)
    | with_reducible apply keepsBut.step (keeps_upScales _ _)
    | with_reducible apply keepsBut.step (keeps_drawFails _ _)
    | with_reducible apply keepsBut.step (keeps_requestFails _ _ _ _)
    | with_reducible apply keepsBut.fold
    | with_reducible apply keepsBut.ite
    | (intro _)
    | extract_lets
    | split
    | dsimp +zetaDelta only

theorem keeps_wellEnter (s : State) (st : WellState) :
    keepsBut [.units, .jobs, .serai, .mint, .house, .scales, .well, .relay, .ledger, .ai, .mode, .fuse, .safe] s (wellEnter s st) := by
  unfold wellEnter
  repeat' first
    | with_reducible apply keepsBut.refl
    | with_reducible assumption
    | (show (_ : Bool) = true; decide)
    | with_reducible apply keepsBut.step (keeps_wellSetState _ _)
    | with_reducible apply keepsBut.step (keeps_failDraws _)
    | with_reducible apply keepsBut.step (keeps_holdSelfCheck _ _)
    | with_reducible apply keepsBut.ite
    | (intro _)
    | extract_lets
    | split
    | dsimp +zetaDelta only

theorem keeps_wlRefuse (s : State) (p : CtlPort) (word : Nat) :
    keepsBut [.well, .ledger] s (wlRefuse s p word) := by
  unfold wlRefuse
  repeat' first
    | with_reducible apply keepsBut.refl
    | with_reducible assumption
    | (show (_ : Bool) = true; decide)
    | with_reducible apply keepsBut.step (keeps_refuseCmd _ _ _ _ _)
    | with_reducible apply keepsBut.step (keeps_upWell _ _)
    | with_reducible apply keepsBut.ite
    | (intro _)
    | extract_lets
    | split
    | dsimp +zetaDelta only

theorem keeps_instantiate (s : State) :
    keepsBut [.well, .free] s (instantiate s) := by
  unfold instantiate
  repeat' first
    | with_reducible apply keepsBut.refl
    | with_reducible assumption
    | (show (_ : Bool) = true; decide)
    | (with_reducible refine step_drawNoise (by assumption) ?_ ?_)
    | with_reducible apply keepsBut.step (keeps_drawNoise _ _)
    | with_reducible apply keepsBut.step (keeps_upWell _ _)
    | with_reducible apply keepsBut.ite
    | (intro _)
    | extract_lets
    | split
    | dsimp +zetaDelta only

theorem keeps_giveDraw (s : State) (d : DrawRec) (got : List Byte) :
    keepsBut [.jobs, .serai, .house, .scales, .fuse] s (giveDraw s d got) := by
  unfold giveDraw
  repeat' first
    | with_reducible apply keepsBut.refl
    | with_reducible assumption
    | (show (_ : Bool) = true; decide)
    | with_reducible apply keepsBut.step (keeps_remask _ _ _)
    | with_reducible apply keepsBut.step (keeps_modBench _ _ _)
    | with_reducible apply keepsBut.step (keeps_modCtx _ _ _)
    | with_reducible apply keepsBut.step (keeps_upFuse _ _)
    | with_reducible apply keepsBut.step (keeps_modJob _ _ _)
    | with_reducible apply keepsBut.step (keeps_upSerai _ _)
    | with_reducible apply keepsBut.ite
    | (intro _)
    | extract_lets
    | split
    | dsimp +zetaDelta only

theorem keeps_srcTick (s : State) :
    keepsBut [.well, .free] s (srcTick s) := by
  unfold srcTick
  repeat' first
    | with_reducible apply keepsBut.refl
    | with_reducible assumption
    | (show (_ : Bool) = true; decide)
    | with_reducible apply keepsBut.step (keeps_upWell _ _)
    | with_reducible apply keepsBut.step (keeps_drewFree _ _)
    | with_reducible apply keepsBut.fold
    | with_reducible apply keepsBut.ite
    | (intro _)
    | extract_lets
    | split
    | dsimp +zetaDelta only

theorem keeps_tgResult (s : State) (c : Nat) (st : Status) :
    keepsBut [.tollgate] s (tgResult s c st) := by
  unfold tgResult
  repeat' first
    | with_reducible apply keepsBut.refl
    | with_reducible assumption
    | (show (_ : Bool) = true; decide)
    | with_reducible apply keepsBut.step (keeps_modTg _ _ _)
    | with_reducible apply keepsBut.ite
    | (intro _)
    | extract_lets
    | split
    | dsimp +zetaDelta only

theorem keeps_tgRefuse (s : State) (p : CtlPort) (c op : Nat) (st : Status) :
    keepsBut [.tollgate, .ledger] s (tgRefuse s p c op st) := by
  unfold tgRefuse
  repeat' first
    | with_reducible apply keepsBut.refl
    | with_reducible assumption
    | (show (_ : Bool) = true; decide)
    | with_reducible apply keepsBut.step (keeps_refuseCmd _ _ _ _ _)
    | with_reducible apply keepsBut.step (keeps_tgResult _ _ _)
    | with_reducible apply keepsBut.ite
    | (intro _)
    | extract_lets
    | split
    | dsimp +zetaDelta only

theorem keeps_sinkDone (s : State) (k : Nat) :
    keepsBut [.relay] s (sinkDone s k) := by
  unfold sinkDone
  repeat' first
    | with_reducible apply keepsBut.refl
    | with_reducible assumption
    | (show (_ : Bool) = true; decide)
    | with_reducible apply keepsBut.step (keeps_modSink _ _ _)
    | with_reducible apply keepsBut.ite
    | (intro _)
    | extract_lets
    | split
    | dsimp +zetaDelta only

theorem keeps_sinkTake (s : State) (k : Nat) :
    keepsBut [.relay] s (sinkTake s k) := by
  unfold sinkTake
  repeat' first
    | with_reducible apply keepsBut.refl
    | with_reducible assumption
    | (show (_ : Bool) = true; decide)
    | with_reducible apply keepsBut.step (keeps_upRelay _ _)
    | with_reducible apply keepsBut.step (keeps_modSink _ _ _)
    | with_reducible apply keepsBut.ite
    | (intro _)
    | extract_lets
    | split
    | dsimp +zetaDelta only

theorem keeps_sinkPulse (s : State) (i : Nat) :
    keepsBut [.relay] s (sinkPulse s i) := by
  unfold sinkPulse
  repeat' first
    | with_reducible apply keepsBut.refl
    | with_reducible assumption
    | (show (_ : Bool) = true; decide)
    | with_reducible apply keepsBut.step (keeps_upRelay _ _)
    | with_reducible apply keepsBut.step (keeps_modSink _ _ _)
    | with_reducible apply keepsBut.ite
    | (intro _)
    | extract_lets
    | split
    | dsimp +zetaDelta only

theorem keeps_timerFire (s : State) (t : Nat) :
    keepsBut [.relay] s (timerFire s t) := by
  unfold timerFire
  repeat' first
    | with_reducible apply keepsBut.refl
    | with_reducible assumption
    | (show (_ : Bool) = true; decide)
    | with_reducible apply keepsBut.step (keeps_raise _ _)
    | with_reducible apply keepsBut.step (keeps_modTimer _ _ _)
    | with_reducible apply keepsBut.ite
    | (intro _)
    | extract_lets
    | split
    | dsimp +zetaDelta only

theorem keeps_timersFire (s : State) :
    keepsBut [.relay] s (timersFire s) := by
  unfold timersFire
  repeat' first
    | with_reducible apply keepsBut.refl
    | with_reducible assumption
    | (show (_ : Bool) = true; decide)
    | with_reducible apply keepsBut.step (keeps_timerFire _ _)
    | with_reducible apply keepsBut.each
    | with_reducible apply keepsBut.ite
    | (intro _)
    | extract_lets
    | split
    | dsimp +zetaDelta only

theorem keeps_timersMoved (s : State) :
    keepsBut [.relay] s (timersMoved s) := by
  unfold timersMoved
  repeat' first
    | with_reducible apply keepsBut.refl
    | with_reducible assumption
    | (show (_ : Bool) = true; decide)
    | with_reducible apply keepsBut.step (keeps_upRelay _ _)
    | with_reducible apply keepsBut.ite
    | (intro _)
    | extract_lets
    | split
    | dsimp +zetaDelta only

theorem keeps_timerRefuse (s : State) (p : CtlPort) (t op : Nat) (st : Status) :
    keepsBut [.relay, .ledger] s (timerRefuse s p t op st) := by
  unfold timerRefuse
  repeat' first
    | with_reducible apply keepsBut.refl
    | with_reducible assumption
    | (show (_ : Bool) = true; decide)
    | with_reducible apply keepsBut.step (keeps_refuseCmd _ _ _ _ _)
    | with_reducible apply keepsBut.step (keeps_modTimer _ _ _)
    | with_reducible apply keepsBut.ite
    | (intro _)
    | extract_lets
    | split
    | dsimp +zetaDelta only

theorem keeps_almAdvance (s : State) :
    keepsBut [.relay, .almanac] s (almAdvance s) := by
  unfold almAdvance
  repeat' first
    | with_reducible apply keepsBut.refl
    | with_reducible assumption
    | (show (_ : Bool) = true; decide)
    | with_reducible apply keepsBut.step (keeps_upAlmanac _ _)
    | with_reducible apply keepsBut.step (keeps_raise _ _)
    | with_reducible apply keepsBut.when
    | with_reducible apply keepsBut.ite
    | (intro _)
    | extract_lets
    | split
    | dsimp +zetaDelta only

theorem keeps_alSetState (s : State) (st : AlState) :
    keepsBut [.almanac, .ai] s (alSetState s st) := by
  unfold alSetState
  repeat' first
    | with_reducible apply keepsBut.refl
    | with_reducible assumption
    | (show (_ : Bool) = true; decide)
    | with_reducible apply keepsBut.step (keeps_upAlmanac _ _)
    | with_reducible apply keepsBut.step (keeps_irqBlock _ _)
    | with_reducible apply keepsBut.when
    | with_reducible apply keepsBut.ite
    | (intro _)
    | extract_lets
    | split
    | dsimp +zetaDelta only

theorem keeps_timeFlush (s : State) :
    keepsBut [.serai] s (timeFlush s) := by
  unfold timeFlush
  repeat' first
    | with_reducible apply keepsBut.refl
    | with_reducible assumption
    | (show (_ : Bool) = true; decide)
    | with_reducible apply keepsBut.step (keeps_flushWhere _ _)
    | with_reducible apply keepsBut.ite
    | (intro _)
    | extract_lets
    | split
    | dsimp +zetaDelta only

theorem keeps_alarmFire (s : State) (k : Nat) :
    keepsBut [.relay, .almanac] s (alarmFire s k) := by
  unfold alarmFire
  repeat' first
    | with_reducible apply keepsBut.refl
    | with_reducible assumption
    | (show (_ : Bool) = true; decide)
    | with_reducible apply keepsBut.step (keeps_raise _ _)
    | with_reducible apply keepsBut.step (keeps_modAlarm _ _ _)
    | with_reducible apply keepsBut.ite
    | (intro _)
    | extract_lets
    | split
    | dsimp +zetaDelta only

theorem keeps_timeChange (s : State) (new : AlTime) (cause : Nat) :
    keepsBut [.serai, .relay, .almanac, .ledger, .ai] s (timeChange s new cause) := by
  unfold timeChange
  repeat' first
    | with_reducible apply keepsBut.refl
    | with_reducible assumption
    | (show (_ : Bool) = true; decide)
    | with_reducible apply keepsBut.step (keeps_upAlmanac _ _)
    | with_reducible apply keepsBut.step (keeps_alarmFire _ _)
    | with_reducible apply keepsBut.step (keeps_timersFire _)
    | with_reducible apply keepsBut.step (keeps_alSetState _ _)
    | with_reducible apply keepsBut.step (keeps_emit _ _ _ _ _)
    | with_reducible apply keepsBut.step (keeps_raise _ _)
    | with_reducible apply keepsBut.step (keeps_timeFlush _)
    | with_reducible apply keepsBut.step (keeps_timersMoved _)
    | with_reducible apply keepsBut.each
    | with_reducible apply keepsBut.when
    | with_reducible apply keepsBut.ite
    | (intro _)
    | extract_lets
    | split
    | dsimp +zetaDelta only

theorem keeps_timeUnset (s : State) :
    keepsBut [.serai, .relay, .almanac, .ledger, .ai] s (timeUnset s) := by
  unfold timeUnset
  repeat' first
    | with_reducible apply keepsBut.refl
    | with_reducible assumption
    | (show (_ : Bool) = true; decide)
    | with_reducible apply keepsBut.step (keeps_alSetState _ _)
    | with_reducible apply keepsBut.step (keeps_upAlmanac _ _)
    | with_reducible apply keepsBut.step (keeps_timeFlush _)
    | with_reducible apply keepsBut.step (keeps_emit _ _ _ _ _)
    | with_reducible apply keepsBut.step (keeps_raise _ _)
    | with_reducible apply keepsBut.ite
    | (intro _)
    | extract_lets
    | split
    | dsimp +zetaDelta only

theorem keeps_modAlPort (s : State) (p : CtlPort) (f : AlPort → AlPort) :
    keepsBut [.almanac] s (modAlPort s p f) := by
  unfold modAlPort
  repeat' first
    | with_reducible apply keepsBut.refl
    | with_reducible assumption
    | (show (_ : Bool) = true; decide)
    | with_reducible apply keepsBut.step (keeps_upAlmanac _ _)
    | with_reducible apply keepsBut.ite
    | (intro _)
    | extract_lets
    | split
    | dsimp +zetaDelta only

theorem keeps_nsecLatch (s : State) (p : CtlPort) :
    keepsBut [.almanac] s (nsecLatch s p) := by
  unfold nsecLatch
  repeat' first
    | with_reducible apply keepsBut.refl
    | with_reducible assumption
    | (show (_ : Bool) = true; decide)
    | with_reducible apply keepsBut.step (keeps_modAlPort _ _ _)
    | with_reducible apply keepsBut.ite
    | (intro _)
    | extract_lets
    | split
    | dsimp +zetaDelta only

theorem keeps_ppsAct (s : State) (tod : BitVec 48) (e : Int) (ago : Nat) (up : Bool) :
    keepsBut [.serai, .relay, .almanac, .ledger, .ai] s (ppsAct s tod e ago up) := by
  unfold ppsAct
  repeat' first
    | with_reducible apply keepsBut.refl
    | with_reducible assumption
    | (show (_ : Bool) = true; decide)
    | with_reducible apply keepsBut.step (keeps_upAlmanac _ _)
    | with_reducible apply keepsBut.step (keeps_timeChange _ _ _)
    | with_reducible apply keepsBut.ite
    | (intro _)
    | extract_lets
    | split
    | dsimp +zetaDelta only

theorem keeps_ppsLock (s : State) :
    keepsBut [.relay, .almanac, .ai] s (ppsLock s) := by
  unfold ppsLock
  repeat' first
    | with_reducible apply keepsBut.refl
    | with_reducible assumption
    | (show (_ : Bool) = true; decide)
    | with_reducible apply keepsBut.step (keeps_raise _ _)
    | with_reducible apply keepsBut.step (keeps_alSetState _ _)
    | with_reducible apply keepsBut.ite
    | (intro _)
    | extract_lets
    | split
    | dsimp +zetaDelta only

theorem keeps_discOff (s : State) :
    keepsBut [.almanac, .ai] s (discOff s) := by
  unfold discOff
  repeat' first
    | with_reducible apply keepsBut.refl
    | with_reducible assumption
    | (show (_ : Bool) = true; decide)
    | with_reducible apply keepsBut.step (keeps_upAlmanac _ _)
    | with_reducible apply keepsBut.step (keeps_alSetState _ _)
    | with_reducible apply keepsBut.ite
    | (intro _)
    | extract_lets
    | split
    | dsimp +zetaDelta only

theorem keeps_ledgerSignal (s : State) (src : Nat) (en : Bool) :
    keepsBut [.relay, .ai] s (ledgerSignal s src en) := by
  unfold ledgerSignal
  repeat' first
    | with_reducible apply keepsBut.refl
    | with_reducible assumption
    | (show (_ : Bool) = true; decide)
    | with_reducible apply keepsBut.step (keeps_irqBlock _ _)
    | with_reducible apply keepsBut.step (keeps_raise _ _)
    | with_reducible apply keepsBut.when
    | with_reducible apply keepsBut.ite
    | (intro _)
    | extract_lets
    | split
    | dsimp +zetaDelta only

theorem keeps_ledgerSwap (s : State) :
    keepsBut [.relay, .ledger, .ai] s (ledgerSwap s) := by
  unfold ledgerSwap
  repeat' first
    | with_reducible apply keepsBut.refl
    | with_reducible assumption
    | (show (_ : Bool) = true; decide)
    | with_reducible apply keepsBut.step (keeps_upLedger _ _)
    | with_reducible apply keepsBut.step (keeps_ledgerSignal _ _ _)
    | with_reducible apply keepsBut.ite
    | (intro _)
    | extract_lets
    | split
    | dsimp +zetaDelta only

theorem keeps_recordWrite (s : State) (r : LedgerRec) :
    keepsBut [.relay, .ledger, .ai] s (recordWrite s r) := by
  unfold recordWrite
  repeat' first
    | with_reducible apply keepsBut.refl
    | with_reducible assumption
    | (show (_ : Bool) = true; decide)
    | with_reducible apply keepsBut.step (keeps_upLedger _ _)
    | with_reducible apply keepsBut.step (keeps_ledgerSignal _ _ _)
    | with_reducible apply keepsBut.ite
    | (intro _)
    | extract_lets
    | split
    | dsimp +zetaDelta only

theorem keeps_recordDrop (s : State) (r : LedgerRec) :
    keepsBut [.relay, .ledger, .ai] s (recordDrop s r) := by
  unfold recordDrop
  repeat' first
    | with_reducible apply keepsBut.refl
    | with_reducible assumption
    | (show (_ : Bool) = true; decide)
    | with_reducible apply keepsBut.step (keeps_upLedger _ _)
    | with_reducible apply keepsBut.step (keeps_ledgerSignal _ _ _)
    | with_reducible apply keepsBut.ite
    | (intro _)
    | extract_lets
    | split
    | dsimp +zetaDelta only

theorem keeps_overflowWrite (s : State) :
    keepsBut [.relay, .ledger, .ai] s (overflowWrite s) := by
  unfold overflowWrite
  repeat' first
    | with_reducible apply keepsBut.refl
    | with_reducible assumption
    | (show (_ : Bool) = true; decide)
    | with_reducible apply keepsBut.step (keeps_recordWrite _ _)
    | with_reducible apply keepsBut.step (keeps_upLedger _ _)
    | with_reducible apply keepsBut.ite
    | (intro _)
    | extract_lets
    | split
    | dsimp +zetaDelta only

theorem keeps_recordServe (s : State) (r : LedgerRec) :
    keepsBut [.relay, .ledger, .ai] s (recordServe s r) := by
  unfold recordServe
  repeat' first
    | with_reducible apply keepsBut.refl
    | with_reducible assumption
    | (show (_ : Bool) = true; decide)
    | with_reducible apply keepsBut.step (keeps_recordWrite _ _)
    | with_reducible apply keepsBut.step (keeps_recordDrop _ _)
    | with_reducible apply keepsBut.step (keeps_ledgerSwap _)
    | with_reducible apply keepsBut.step (keeps_overflowWrite _)
    | with_reducible apply keepsBut.ite
    | (intro _)
    | extract_lets
    | split
    | dsimp +zetaDelta only

theorem keeps_latchWord (s : State) (p : CtlPort) (w : Nat) :
    keepsBut [.ledger] s (latchWord s p w) := by
  unfold latchWord
  repeat' first
    | with_reducible apply keepsBut.refl
    | with_reducible assumption
    | (show (_ : Bool) = true; decide)
    | with_reducible apply keepsBut.step (keeps_upLedger _ _)
    | with_reducible apply keepsBut.ite
    | (intro _)
    | extract_lets
    | split
    | dsimp +zetaDelta only

theorem keeps_fzRefuse (s : State) (p : CtlPort) (st : Status) (op word : Nat) (acc : Bool) :
    keepsBut [.ledger, .fuse] s (fzRefuse s p st op word acc) := by
  unfold fzRefuse
  repeat' first
    | with_reducible apply keepsBut.refl
    | with_reducible assumption
    | (show (_ : Bool) = true; decide)
    | with_reducible apply keepsBut.step (keeps_refuseCmd _ _ _ _ _)
    | with_reducible apply keepsBut.step (keeps_upFuse _ _)
    | with_reducible apply keepsBut.step (keeps_fuseRecord _ _ _ _)
    | with_reducible apply keepsBut.ite
    | (intro _)
    | extract_lets
    | split
    | dsimp +zetaDelta only

theorem keeps_fzBegin (s : State) (op word : Nat) (acc : Bool) (plan : List (Nat × W32)) :
    keepsBut [.fuse] s (fzBegin s op word acc plan) := by
  unfold fzBegin
  repeat' first
    | with_reducible apply keepsBut.refl
    | with_reducible assumption
    | (show (_ : Bool) = true; decide)
    | with_reducible apply keepsBut.step (keeps_upFuse _ _)
    | with_reducible apply keepsBut.ite
    | (intro _)
    | extract_lets
    | split
    | dsimp +zetaDelta only

theorem keeps_fuseBlow (s : State) (plan : List (Nat × W32)) (stuck : List W32) (n : Nat) :
    keepsBut [.fuse] s (fuseBlow s plan stuck n).1 := by
  induction plan generalizing s stuck n with
  | nil => exact keepsBut.refl _ _
  | cons p rest ih =>
    obtain ⟨w, d⟩ := p
    unfold fuseBlow
    extract_lets old new s1 n1
    have h1 : keepsBut [.fuse] s s1 := keepsBut.step (keeps_upFuse _ _) (by decide) (keepsBut.refl _ _)
    split
    · exact h1.trans (ih _ _ _)
    · exact h1

theorem keeps_sfRefuse (s : State) (p : CtlPort) (st : Status) (data : Nat) :
    keepsBut [.ledger, .safe] s (sfRefuse s p st data) := by
  unfold sfRefuse
  repeat' first
    | with_reducible apply keepsBut.refl
    | with_reducible assumption
    | (show (_ : Bool) = true; decide)
    | with_reducible apply keepsBut.step (keeps_refuseCmd _ _ _ _ _)
    | with_reducible apply keepsBut.step (keeps_upSafe _ _)
    | with_reducible apply keepsBut.ite
    | (intro _)
    | extract_lets
    | split
    | dsimp +zetaDelta only

theorem keeps_attRefuse (s : State) (p : CtlPort) (st : Status) (u : Nat) :
    keepsBut [.ledger, .safe] s (attRefuse s p st u) := by
  unfold attRefuse
  repeat' first
    | with_reducible apply keepsBut.refl
    | with_reducible assumption
    | (show (_ : Bool) = true; decide)
    | with_reducible apply keepsBut.step (keeps_sfRefuse _ _ _ _)
    | with_reducible apply keepsBut.step (keeps_emit _ _ _ _ _)
    | with_reducible apply keepsBut.when
    | with_reducible apply keepsBut.ite
    | (intro _)
    | extract_lets
    | split
    | dsimp +zetaDelta only

theorem keeps_signWake (s : State) :
    keepsBut [.ledger, .ration] s (signWake s) := by
  unfold signWake
  repeat' first
    | with_reducible apply keepsBut.refl
    | with_reducible assumption
    | (show (_ : Bool) = true; decide)
    | with_reducible apply keepsBut.step (keeps_wakeRow _)
    | with_reducible apply keepsBut.step (keeps_wakeDom _ _)
    | with_reducible apply keepsBut.ite
    | (intro _)
    | extract_lets
    | split
    | dsimp +zetaDelta only

theorem keeps_safeBegin (s : State) (c : SafeCmd) (stage : SafeStage) :
    keepsBut [.safe] s (safeBegin s c stage) := by
  unfold safeBegin
  repeat' first
    | with_reducible apply keepsBut.refl
    | with_reducible assumption
    | (show (_ : Bool) = true; decide)
    | with_reducible apply keepsBut.step (keeps_upSafe _ _)
    | with_reducible apply keepsBut.ite
    | (intro _)
    | extract_lets
    | split
    | dsimp +zetaDelta only

theorem keeps_signRequest (k u : Nat) (ecBody pqBody context : List Byte) (s : State) :
    keepsBut [.house, .scales] s (signRequest k u ecBody pqBody context s) := by
  unfold signRequest
  repeat' first
    | with_reducible apply keepsBut.refl
    | with_reducible assumption
    | (show (_ : Bool) = true; decide)
    | with_reducible apply keepsBut.step (keeps_queuePk _ _)
    | with_reducible apply keepsBut.step (keeps_queueLat _ _)
    | with_reducible apply keepsBut.ite
    | (intro _)
    | extract_lets
    | split
    | dsimp +zetaDelta only

theorem keeps_signStart {W : List Part} {s : State} (c : SafeCmd) (f : State → State)
    (hv : (List.all [.units, .jobs, .serai, .mint, .house, .scales, .well, .relay, .ledger, .ai, .safe, .ration] fun p => W.contains p) = true) (hk : ∀ t, keepsBut W s t → keepsBut W s (f t)) :
    keepsBut W s (signStart s c f) := by
  have sub : ∀ V : List Part, (V.all fun p => ([.units, .jobs, .serai, .mint, .house, .scales, .well, .relay, .ledger, .ai, .safe, .ration] : List Part).contains p) = true → (V.all fun p => W.contains p) = true := by
    intro V hV
    simp only [List.all_eq_true, List.contains_iff_mem] at *
    exact fun p hp => hv p (hV p hp)
  unfold signStart
  refine keepsBut.ite (keepsBut.step (keeps_safeBegin _ _ _) (sub _ (by decide)) (keepsBut.refl _ _)) (keepsBut.ite ?_ ?_)
  · exact keepsBut.step (keeps_safeBegin _ _ _) (sub _ (by decide)) (keepsBut.step (keeps_wellDeny _) (sub _ (by decide)) (keepsBut.refl _ _))
  · refine keepsBut.step (keeps_offerCtxs _) (sub _ (by decide)) (keepsBut.step (keeps_offerBenches _) (sub _ (by decide)) (hk _ ?_))
    exact keepsBut.step (keeps_signWake _) (sub _ (by decide)) (keepsBut.step (keeps_safeBegin _ _ _) (sub _ (by decide)) (keepsBut.refl _ _))

theorem keeps_storeWrite (s : State) :
    keepsBut [.ai, .safe, .ration] s (storeWrite s) := by
  unfold storeWrite
  repeat' first
    | with_reducible apply keepsBut.refl
    | with_reducible assumption
    | (show (_ : Bool) = true; decide)
    | with_reducible apply keepsBut.step (keeps_issueAccess _ _ _ _ _ _)
    | with_reducible apply keepsBut.step (keeps_upSafe _ _)
    | with_reducible apply keepsBut.ite
    | (intro _)
    | extract_lets
    | split
    | dsimp +zetaDelta only

theorem keeps_reportWrite (s : State) :
    keepsBut [.ai, .safe, .ration] s (reportWrite s) := by
  unfold reportWrite
  repeat' first
    | with_reducible apply keepsBut.refl
    | with_reducible assumption
    | (show (_ : Bool) = true; decide)
    | with_reducible apply keepsBut.step (keeps_issueAccess _ _ _ _ _ _)
    | with_reducible apply keepsBut.step (keeps_upSafe _ _)
    | with_reducible apply keepsBut.ite
    | (intro _)
    | extract_lets
    | split
    | dsimp +zetaDelta only

theorem keeps_safeAdvance (s : State) :
    keepsBut [.units, .ai, .safe, .ration] s (safeAdvance s) := by
  unfold safeAdvance
  repeat' first
    | with_reducible apply keepsBut.refl
    | with_reducible assumption
    | (show (_ : Bool) = true; decide)
    | with_reducible apply keepsBut.step (keeps_upSafe _ _)
    | with_reducible apply keepsBut.step (keeps_storeWrite _)
    | with_reducible apply keepsBut.step (keeps_buildStore _ _)
    | with_reducible apply keepsBut.step (keeps_reportWrite _)
    | with_reducible apply keepsBut.ite
    | (intro _)
    | extract_lets
    | split
    | dsimp +zetaDelta only

theorem keeps_zeroizeAway (s : State) :
    keepsBut [.watch] s (zeroizeAway s) := by
  unfold zeroizeAway
  repeat' first
    | with_reducible apply keepsBut.refl
    | with_reducible assumption
    | (show (_ : Bool) = true; decide)
    | with_reducible apply keepsBut.step (keeps_upWatch _ _)
    | with_reducible apply keepsBut.ite
    | (intro _)
    | extract_lets
    | split
    | dsimp +zetaDelta only

end Sys2Proof.Machine
end

