-- ==== Sys2Proof/Laws/Table.lean ====
section
/-! SUPPORT. The laws of sparse tables: a read after a write, and that every operation keeps the canonical form. -/

namespace Sys2Proof.Machine

variable {α : Type}

/-! ### Reading -/

@[simp] theorem tget_nil (d : α) (k : Nat) : tget d [] k = d := rfl

theorem tget_cons (d : α) (k' : Nat) (v : α) (t : Table α) (k : Nat) :
    tget d ((k', v) :: t) k = if k' = k then v else tget d t k := rfl

@[simp] theorem tget_terase_same (d : α) (t : Table α) (k : Nat) : tget d (terase t k) k = d := by
  induction t with
  | nil => rfl
  | cons kv t ih =>
    obtain ⟨k', v⟩ := kv
    by_cases h : k' = k <;> simp [terase, tget, h, ih]

theorem tget_terase_other (d : α) (t : Table α) {k m : Nat} (h : m ≠ k) : tget d (terase t k) m = tget d t m := by
  induction t with
  | nil => rfl
  | cons kv t ih =>
    obtain ⟨k', v⟩ := kv
    by_cases hk : k' = k
    · subst hk
      simp [terase, tget, ih, Ne.symm h]
    · simp [terase, tget, hk, ih]

@[simp] theorem tget_tinsert_same (d : α) (t : Table α) (k : Nat) (v : α) : tget d (tinsert t k v) k = v := by
  induction t with
  | nil => simp [tinsert, tget]
  | cons kv t ih =>
    obtain ⟨k', v'⟩ := kv
    unfold tinsert
    split
    · simp [tget]
    · split
      · simp [tget]
      · simp_all [tget]

theorem tget_tinsert_other (d : α) (t : Table α) {k m : Nat} (v : α) (h : m ≠ k) :
    tget d (tinsert t k v) m = tget d t m := by
  induction t with
  | nil => simp [tinsert, tget, Ne.symm h]
  | cons kv t ih =>
    obtain ⟨k', v'⟩ := kv
    unfold tinsert
    split
    · simp [tget, Ne.symm h]
    · split
      · rename_i hk
        subst hk
        simp [tget, Ne.symm h]
      · simp [tget, ih]

theorem tabove_tinsert (a : Nat) (t : Table α) (k : Nat) (v : α) (ha : tabove a t = true) (hk : a < k) :
    tabove a (tinsert t k v) = true := by
  cases t with
  | nil => simp [tinsert, tabove, hk]
  | cons kv t =>
    obtain ⟨k', v'⟩ := kv
    unfold tinsert
    split
    · simp [tabove, hk]
    · split
      · simp [tabove, hk]
      · simpa [tabove] using ha

variable [DecidableEq α]

/-- A read after a write to the same key gives what was written. -/
@[simp] theorem tget_tset_same (d : α) (t : Table α) (k : Nat) (v : α) : tget d (tset d t k v) k = v := by
  unfold tset
  split
  · simp_all
  · simp

/-- A write leaves every other key. -/
theorem tget_tset_other (d : α) (t : Table α) {k m : Nat} (v : α) (h : m ≠ k) : tget d (tset d t k v) m = tget d t m := by
  unfold tset
  split
  · exact tget_terase_other d t h
  · exact tget_tinsert_other d t v h

theorem tget_tset (d : α) (t : Table α) (k m : Nat) (v : α) :
    tget d (tset d t k v) m = if m = k then v else tget d t m := by
  split
  · simp_all
  · exact tget_tset_other d t v ‹_›

@[simp] theorem tget_tmod_same (d : α) (t : Table α) (k : Nat) (f : α → α) : tget d (tmod d t k f) k = f (tget d t k) := by
  simp [tmod]

theorem tget_tmod_other (d : α) (t : Table α) {k m : Nat} (f : α → α) (h : m ≠ k) :
    tget d (tmod d t k f) m = tget d t m := tget_tset_other d t _ h

/-- A fill leaves what lies outside it. -/
theorem tget_tfill_other (d : α) (l : List α) (t : Table α) (k m : Nat) (h : m < k ∨ k + l.length ≤ m) :
    tget d (tfill d t k l) m = tget d t m := by
  induction l generalizing t k with
  | nil => rfl
  | cons v l ih =>
    simp only [tfill, List.length_cons] at *
    rw [ih _ _ (by omega), tget_tset_other d t v (by omega)]

/-- A fill puts the list's values at consecutive keys. -/
theorem tget_tfill_at (d : α) (l : List α) (t : Table α) (k i : Nat) (h : i < l.length) :
    tget d (tfill d t k l) (k + i) = l[i] := by
  induction l generalizing t k i with
  | nil => simp at h
  | cons v l ih =>
    cases i with
    | zero => simp [tfill, tget_tfill_other]
    | succ i =>
      have := ih (tset d t k v) (k + 1) i (by simpa using h)
      simpa [tfill, Nat.add_assoc, Nat.add_comm 1 i] using this

/-- What a fill has put is read back. -/
theorem tread_tfill_same (d : α) (l : List α) (t : Table α) (k : Nat) : tread d (tfill d t k l) k l.length = l := by
  apply List.ext_getElem
  · simp [tread]
  · intro i h₁ h₂
    simp only [tread, List.getElem_map, List.getElem_range]
    exact tget_tfill_at d l t k i h₂

/-! ### The canonical form -/

theorem tabove_terase (a : Nat) (t : Table α) (k : Nat) (d : α) (h : twf d t = true) (ha : tabove a t = true) :
    tabove a (terase t k) = true := by
  induction t with
  | nil => rfl
  | cons kv t ih =>
    obtain ⟨k', v⟩ := kv
    simp only [tabove, decide_eq_true_eq] at ha
    simp only [twf, Bool.and_eq_true, decide_eq_true_eq] at h
    by_cases hk : k' = k
    · simp only [terase, hk, if_true]
      refine ih h.2 ?_
      have := h.1.2
      cases t with
      | nil => rfl
      | cons kv' t' => simp [tabove] at *; omega
    · simp [terase, hk, tabove, ha]

theorem twf_terase (d : α) (t : Table α) (k : Nat) (h : twf d t = true) : twf d (terase t k) = true := by
  induction t with
  | nil => rfl
  | cons kv t ih =>
    obtain ⟨k', v⟩ := kv
    have h' := h
    simp only [twf, Bool.and_eq_true, decide_eq_true_eq] at h
    by_cases hk : k' = k
    · simpa [terase, hk] using ih h.2
    · simp [terase, hk, twf, h.1.1, ih h.2, tabove_terase k' t k d h.2 h.1.2]

theorem twf_tinsert (d : α) (t : Table α) (k : Nat) (v : α) (h : twf d t = true) (hv : v ≠ d) :
    twf d (tinsert t k v) = true := by
  induction t with
  | nil => simp [tinsert, twf, tabove, hv]
  | cons kv t ih =>
    obtain ⟨k', v'⟩ := kv
    have h' := h
    simp only [twf, Bool.and_eq_true, decide_eq_true_eq] at h
    unfold tinsert
    split
    · rename_i hlt
      simp only [twf, Bool.and_eq_true, decide_eq_true_eq]
      exact ⟨⟨hv, by simp [tabove, hlt]⟩, h⟩
    · split
      · rename_i hk
        subst hk
        simp [twf, hv, h.1.2, h.2]
      · rename_i h1 h2
        simp only [twf, Bool.and_eq_true, decide_eq_true_eq]
        exact ⟨⟨h.1.1, tabove_tinsert k' t k v h.1.2 (by omega)⟩, ih h.2⟩

/-- A write keeps the canonical form. -/
theorem twf_tset (d : α) (t : Table α) (k : Nat) (v : α) (h : twf d t = true) : twf d (tset d t k v) = true := by
  unfold tset
  split
  · exact twf_terase d t k h
  · exact twf_tinsert d t k v h ‹_›

theorem twf_tmod (d : α) (t : Table α) (k : Nat) (f : α → α) (h : twf d t = true) : twf d (tmod d t k f) = true :=
  twf_tset d t k _ h

theorem twf_tfill (d : α) (l : List α) (t : Table α) (k : Nat) (h : twf d t = true) : twf d (tfill d t k l) = true := by
  induction l generalizing t k with
  | nil => exact h
  | cons v l ih => exact ih _ _ (twf_tset d t k v h)

theorem twf_tmapv (d : α) (f : Nat → α → α) (t : Table α) : twf d (tmapv d f t) = true := by
  induction t with
  | nil => rfl
  | cons kv t ih => exact twf_tset d _ _ _ ih

theorem tabove_filter (d : α) (a : Nat) (t : Table α) (p : Nat × α → Bool) (h : twf d t = true) (ha : tabove a t = true) :
    tabove a (t.filter p) = true := by
  induction t generalizing a with
  | nil => rfl
  | cons kv t ih =>
    obtain ⟨k', v⟩ := kv
    simp only [twf, Bool.and_eq_true, decide_eq_true_eq] at h
    simp only [tabove, decide_eq_true_eq] at ha
    simp only [List.filter]
    split
    · simp [tabove, ha]
    · refine ih a h.2 ?_
      have := h.1.2
      cases t with
      | nil => rfl
      | cons kv' t' => simp [tabove] at *; omega

theorem twf_filter (d : α) (t : Table α) (p : Nat × α → Bool) (h : twf d t = true) : twf d (t.filter p) = true := by
  induction t with
  | nil => rfl
  | cons kv t ih =>
    obtain ⟨k', v⟩ := kv
    have h' := h
    simp only [twf, Bool.and_eq_true, decide_eq_true_eq] at h
    simp only [List.filter]
    split
    · simp [twf, h.1.1, ih h.2, tabove_filter d k' t p h.2 h.1.2]
    · exact ih h.2

/-- Equal contents are equal data: two canonical tables that read alike are one table. -/
theorem twf_ext (d : α) (t u : Table α) (ht : twf d t = true) (hu : twf d u = true) (h : ∀ k, tget d t k = tget d u k) :
    t = u := by
  have low : ∀ (w : Table α) (a k : Nat), twf d w = true → tabove a w = true → k ≤ a → tget d w k = d := by
    intro w
    induction w with
    | nil => intros; rfl
    | cons kv w ih =>
      intro a k hw ha hk
      obtain ⟨k', v⟩ := kv
      simp only [twf, Bool.and_eq_true, decide_eq_true_eq] at hw
      simp only [tabove, decide_eq_true_eq] at ha
      have : k' ≠ k := by omega
      simp only [tget, this, if_false]
      exact ih k' k hw.2 hw.1.2 (by omega)
  induction t generalizing u with
  | nil =>
    cases u with
    | nil => rfl
    | cons kv u =>
      obtain ⟨k', v⟩ := kv
      have := h k'
      simp_all [twf, tget]
  | cons kv t ih =>
    obtain ⟨k₁, v₁⟩ := kv
    cases u with
    | nil =>
      have := h k₁
      simp_all [twf, tget]
    | cons kv' u =>
      obtain ⟨k₂, v₂⟩ := kv'
      simp only [twf, Bool.and_eq_true, decide_eq_true_eq] at ht hu
      have hk : k₁ = k₂ := by
        rcases Nat.lt_trichotomy k₁ k₂ with hlt | heq | hgt
        · have h1 := h k₁
          have : k₂ ≠ k₁ := by omega
          simp only [tget, if_true, this, if_false] at h1
          rw [low u k₂ k₁ hu.2 hu.1.2 (by omega)] at h1
          exact absurd h1 ht.1.1
        · exact heq
        · have h1 := h k₂
          have : k₁ ≠ k₂ := by omega
          simp only [tget, if_true, this, if_false] at h1
          rw [low t k₁ k₂ ht.2 ht.1.2 (by omega)] at h1
          exact absurd h1.symm hu.1.1
      subst hk
      have hv : v₁ = v₂ := by simpa [tget] using h k₁
      subst hv
      congr 1
      refine ih u ht.2 hu.2 ?_
      intro k
      by_cases hk : k₁ = k
      · subst hk
        rw [low t k₁ k₁ ht.2 ht.1.2 (Nat.le_refl _), low u k₁ k₁ hu.2 hu.1.2 (Nat.le_refl _)]
      · simpa [tget, hk] using h k

end Sys2Proof.Machine
end

