-- ==== Sys2Proof/Laws/State.lean ====
section
/-! SUPPORT. What each change of one part of the state leaves in every field: one lemma per field and change, true by definition, and
the laws of reading one element after changing one. -/

namespace Sys2Proof.Machine

/-! ### upMuster -/

@[simp] theorem upMuster_pending (s : State) (f : MusterRec → MusterRec) : (upMuster s f).pending = s.pending := rfl
@[simp] theorem upMuster_units (s : State) (f : MusterRec → MusterRec) : (upMuster s f).units = s.units := rfl
@[simp] theorem upMuster_rings (s : State) (f : MusterRec → MusterRec) : (upMuster s f).rings = s.rings := rfl
@[simp] theorem upMuster_routes (s : State) (f : MusterRec → MusterRec) : (upMuster s f).routes = s.routes := rfl
@[simp] theorem upMuster_jobs (s : State) (f : MusterRec → MusterRec) : (upMuster s f).jobs = s.jobs := rfl
@[simp] theorem upMuster_nextJob (s : State) (f : MusterRec → MusterRec) : (upMuster s f).nextJob = s.nextJob := rfl
@[simp] theorem upMuster_lanes (s : State) (f : MusterRec → MusterRec) : (upMuster s f).lanes = s.lanes := rfl
@[simp] theorem upMuster_muster (s : State) (f : MusterRec → MusterRec) : (upMuster s f).muster = f s.muster := rfl
@[simp] theorem upMuster_serai (s : State) (f : MusterRec → MusterRec) : (upMuster s f).serai = s.serai := rfl
@[simp] theorem upMuster_mint (s : State) (f : MusterRec → MusterRec) : (upMuster s f).mint = s.mint := rfl
@[simp] theorem upMuster_house (s : State) (f : MusterRec → MusterRec) : (upMuster s f).house = s.house := rfl
@[simp] theorem upMuster_scales (s : State) (f : MusterRec → MusterRec) : (upMuster s f).scales = s.scales := rfl
@[simp] theorem upMuster_well (s : State) (f : MusterRec → MusterRec) : (upMuster s f).well = s.well := rfl
@[simp] theorem upMuster_tollgate (s : State) (f : MusterRec → MusterRec) : (upMuster s f).tollgate = s.tollgate := rfl
@[simp] theorem upMuster_porter (s : State) (f : MusterRec → MusterRec) : (upMuster s f).porter = s.porter := rfl
@[simp] theorem upMuster_relay (s : State) (f : MusterRec → MusterRec) : (upMuster s f).relay = s.relay := rfl
@[simp] theorem upMuster_almanac (s : State) (f : MusterRec → MusterRec) : (upMuster s f).almanac = s.almanac := rfl
@[simp] theorem upMuster_ledger (s : State) (f : MusterRec → MusterRec) : (upMuster s f).ledger = s.ledger := rfl
@[simp] theorem upMuster_ai (s : State) (f : MusterRec → MusterRec) : (upMuster s f).ai = s.ai := rfl
@[simp] theorem upMuster_ports (s : State) (f : MusterRec → MusterRec) : (upMuster s f).ports = s.ports := rfl
@[simp] theorem upMuster_mode (s : State) (f : MusterRec → MusterRec) : (upMuster s f).mode = s.mode := rfl
@[simp] theorem upMuster_fuse (s : State) (f : MusterRec → MusterRec) : (upMuster s f).fuse = s.fuse := rfl
@[simp] theorem upMuster_safe (s : State) (f : MusterRec → MusterRec) : (upMuster s f).safe = s.safe := rfl
@[simp] theorem upMuster_watch (s : State) (f : MusterRec → MusterRec) : (upMuster s f).watch = s.watch := rfl
@[simp] theorem upMuster_ration (s : State) (f : MusterRec → MusterRec) : (upMuster s f).ration = s.ration := rfl
@[simp] theorem upMuster_pins (s : State) (f : MusterRec → MusterRec) : (upMuster s f).pins = s.pins := rfl
@[simp] theorem upMuster_cycle (s : State) (f : MusterRec → MusterRec) : (upMuster s f).cycle = s.cycle := rfl
@[simp] theorem upMuster_free (s : State) (f : MusterRec → MusterRec) : (upMuster s f).free = s.free := rfl

/-! ### upSerai -/

@[simp] theorem upSerai_pending (s : State) (f : SeraiRec → SeraiRec) : (upSerai s f).pending = s.pending := rfl
@[simp] theorem upSerai_units (s : State) (f : SeraiRec → SeraiRec) : (upSerai s f).units = s.units := rfl
@[simp] theorem upSerai_rings (s : State) (f : SeraiRec → SeraiRec) : (upSerai s f).rings = s.rings := rfl
@[simp] theorem upSerai_routes (s : State) (f : SeraiRec → SeraiRec) : (upSerai s f).routes = s.routes := rfl
@[simp] theorem upSerai_jobs (s : State) (f : SeraiRec → SeraiRec) : (upSerai s f).jobs = s.jobs := rfl
@[simp] theorem upSerai_nextJob (s : State) (f : SeraiRec → SeraiRec) : (upSerai s f).nextJob = s.nextJob := rfl
@[simp] theorem upSerai_lanes (s : State) (f : SeraiRec → SeraiRec) : (upSerai s f).lanes = s.lanes := rfl
@[simp] theorem upSerai_muster (s : State) (f : SeraiRec → SeraiRec) : (upSerai s f).muster = s.muster := rfl
@[simp] theorem upSerai_serai (s : State) (f : SeraiRec → SeraiRec) : (upSerai s f).serai = f s.serai := rfl
@[simp] theorem upSerai_mint (s : State) (f : SeraiRec → SeraiRec) : (upSerai s f).mint = s.mint := rfl
@[simp] theorem upSerai_house (s : State) (f : SeraiRec → SeraiRec) : (upSerai s f).house = s.house := rfl
@[simp] theorem upSerai_scales (s : State) (f : SeraiRec → SeraiRec) : (upSerai s f).scales = s.scales := rfl
@[simp] theorem upSerai_well (s : State) (f : SeraiRec → SeraiRec) : (upSerai s f).well = s.well := rfl
@[simp] theorem upSerai_tollgate (s : State) (f : SeraiRec → SeraiRec) : (upSerai s f).tollgate = s.tollgate := rfl
@[simp] theorem upSerai_porter (s : State) (f : SeraiRec → SeraiRec) : (upSerai s f).porter = s.porter := rfl
@[simp] theorem upSerai_relay (s : State) (f : SeraiRec → SeraiRec) : (upSerai s f).relay = s.relay := rfl
@[simp] theorem upSerai_almanac (s : State) (f : SeraiRec → SeraiRec) : (upSerai s f).almanac = s.almanac := rfl
@[simp] theorem upSerai_ledger (s : State) (f : SeraiRec → SeraiRec) : (upSerai s f).ledger = s.ledger := rfl
@[simp] theorem upSerai_ai (s : State) (f : SeraiRec → SeraiRec) : (upSerai s f).ai = s.ai := rfl
@[simp] theorem upSerai_ports (s : State) (f : SeraiRec → SeraiRec) : (upSerai s f).ports = s.ports := rfl
@[simp] theorem upSerai_mode (s : State) (f : SeraiRec → SeraiRec) : (upSerai s f).mode = s.mode := rfl
@[simp] theorem upSerai_fuse (s : State) (f : SeraiRec → SeraiRec) : (upSerai s f).fuse = s.fuse := rfl
@[simp] theorem upSerai_safe (s : State) (f : SeraiRec → SeraiRec) : (upSerai s f).safe = s.safe := rfl
@[simp] theorem upSerai_watch (s : State) (f : SeraiRec → SeraiRec) : (upSerai s f).watch = s.watch := rfl
@[simp] theorem upSerai_ration (s : State) (f : SeraiRec → SeraiRec) : (upSerai s f).ration = s.ration := rfl
@[simp] theorem upSerai_pins (s : State) (f : SeraiRec → SeraiRec) : (upSerai s f).pins = s.pins := rfl
@[simp] theorem upSerai_cycle (s : State) (f : SeraiRec → SeraiRec) : (upSerai s f).cycle = s.cycle := rfl
@[simp] theorem upSerai_free (s : State) (f : SeraiRec → SeraiRec) : (upSerai s f).free = s.free := rfl

/-! ### upMint -/

@[simp] theorem upMint_pending (s : State) (f : MintRec → MintRec) : (upMint s f).pending = s.pending := rfl
@[simp] theorem upMint_units (s : State) (f : MintRec → MintRec) : (upMint s f).units = s.units := rfl
@[simp] theorem upMint_rings (s : State) (f : MintRec → MintRec) : (upMint s f).rings = s.rings := rfl
@[simp] theorem upMint_routes (s : State) (f : MintRec → MintRec) : (upMint s f).routes = s.routes := rfl
@[simp] theorem upMint_jobs (s : State) (f : MintRec → MintRec) : (upMint s f).jobs = s.jobs := rfl
@[simp] theorem upMint_nextJob (s : State) (f : MintRec → MintRec) : (upMint s f).nextJob = s.nextJob := rfl
@[simp] theorem upMint_lanes (s : State) (f : MintRec → MintRec) : (upMint s f).lanes = s.lanes := rfl
@[simp] theorem upMint_muster (s : State) (f : MintRec → MintRec) : (upMint s f).muster = s.muster := rfl
@[simp] theorem upMint_serai (s : State) (f : MintRec → MintRec) : (upMint s f).serai = s.serai := rfl
@[simp] theorem upMint_mint (s : State) (f : MintRec → MintRec) : (upMint s f).mint = f s.mint := rfl
@[simp] theorem upMint_house (s : State) (f : MintRec → MintRec) : (upMint s f).house = s.house := rfl
@[simp] theorem upMint_scales (s : State) (f : MintRec → MintRec) : (upMint s f).scales = s.scales := rfl
@[simp] theorem upMint_well (s : State) (f : MintRec → MintRec) : (upMint s f).well = s.well := rfl
@[simp] theorem upMint_tollgate (s : State) (f : MintRec → MintRec) : (upMint s f).tollgate = s.tollgate := rfl
@[simp] theorem upMint_porter (s : State) (f : MintRec → MintRec) : (upMint s f).porter = s.porter := rfl
@[simp] theorem upMint_relay (s : State) (f : MintRec → MintRec) : (upMint s f).relay = s.relay := rfl
@[simp] theorem upMint_almanac (s : State) (f : MintRec → MintRec) : (upMint s f).almanac = s.almanac := rfl
@[simp] theorem upMint_ledger (s : State) (f : MintRec → MintRec) : (upMint s f).ledger = s.ledger := rfl
@[simp] theorem upMint_ai (s : State) (f : MintRec → MintRec) : (upMint s f).ai = s.ai := rfl
@[simp] theorem upMint_ports (s : State) (f : MintRec → MintRec) : (upMint s f).ports = s.ports := rfl
@[simp] theorem upMint_mode (s : State) (f : MintRec → MintRec) : (upMint s f).mode = s.mode := rfl
@[simp] theorem upMint_fuse (s : State) (f : MintRec → MintRec) : (upMint s f).fuse = s.fuse := rfl
@[simp] theorem upMint_safe (s : State) (f : MintRec → MintRec) : (upMint s f).safe = s.safe := rfl
@[simp] theorem upMint_watch (s : State) (f : MintRec → MintRec) : (upMint s f).watch = s.watch := rfl
@[simp] theorem upMint_ration (s : State) (f : MintRec → MintRec) : (upMint s f).ration = s.ration := rfl
@[simp] theorem upMint_pins (s : State) (f : MintRec → MintRec) : (upMint s f).pins = s.pins := rfl
@[simp] theorem upMint_cycle (s : State) (f : MintRec → MintRec) : (upMint s f).cycle = s.cycle := rfl
@[simp] theorem upMint_free (s : State) (f : MintRec → MintRec) : (upMint s f).free = s.free := rfl

/-! ### upHouse -/

@[simp] theorem upHouse_pending (s : State) (f : HouseRec → HouseRec) : (upHouse s f).pending = s.pending := rfl
@[simp] theorem upHouse_units (s : State) (f : HouseRec → HouseRec) : (upHouse s f).units = s.units := rfl
@[simp] theorem upHouse_rings (s : State) (f : HouseRec → HouseRec) : (upHouse s f).rings = s.rings := rfl
@[simp] theorem upHouse_routes (s : State) (f : HouseRec → HouseRec) : (upHouse s f).routes = s.routes := rfl
@[simp] theorem upHouse_jobs (s : State) (f : HouseRec → HouseRec) : (upHouse s f).jobs = s.jobs := rfl
@[simp] theorem upHouse_nextJob (s : State) (f : HouseRec → HouseRec) : (upHouse s f).nextJob = s.nextJob := rfl
@[simp] theorem upHouse_lanes (s : State) (f : HouseRec → HouseRec) : (upHouse s f).lanes = s.lanes := rfl
@[simp] theorem upHouse_muster (s : State) (f : HouseRec → HouseRec) : (upHouse s f).muster = s.muster := rfl
@[simp] theorem upHouse_serai (s : State) (f : HouseRec → HouseRec) : (upHouse s f).serai = s.serai := rfl
@[simp] theorem upHouse_mint (s : State) (f : HouseRec → HouseRec) : (upHouse s f).mint = s.mint := rfl
@[simp] theorem upHouse_house (s : State) (f : HouseRec → HouseRec) : (upHouse s f).house = f s.house := rfl
@[simp] theorem upHouse_scales (s : State) (f : HouseRec → HouseRec) : (upHouse s f).scales = s.scales := rfl
@[simp] theorem upHouse_well (s : State) (f : HouseRec → HouseRec) : (upHouse s f).well = s.well := rfl
@[simp] theorem upHouse_tollgate (s : State) (f : HouseRec → HouseRec) : (upHouse s f).tollgate = s.tollgate := rfl
@[simp] theorem upHouse_porter (s : State) (f : HouseRec → HouseRec) : (upHouse s f).porter = s.porter := rfl
@[simp] theorem upHouse_relay (s : State) (f : HouseRec → HouseRec) : (upHouse s f).relay = s.relay := rfl
@[simp] theorem upHouse_almanac (s : State) (f : HouseRec → HouseRec) : (upHouse s f).almanac = s.almanac := rfl
@[simp] theorem upHouse_ledger (s : State) (f : HouseRec → HouseRec) : (upHouse s f).ledger = s.ledger := rfl
@[simp] theorem upHouse_ai (s : State) (f : HouseRec → HouseRec) : (upHouse s f).ai = s.ai := rfl
@[simp] theorem upHouse_ports (s : State) (f : HouseRec → HouseRec) : (upHouse s f).ports = s.ports := rfl
@[simp] theorem upHouse_mode (s : State) (f : HouseRec → HouseRec) : (upHouse s f).mode = s.mode := rfl
@[simp] theorem upHouse_fuse (s : State) (f : HouseRec → HouseRec) : (upHouse s f).fuse = s.fuse := rfl
@[simp] theorem upHouse_safe (s : State) (f : HouseRec → HouseRec) : (upHouse s f).safe = s.safe := rfl
@[simp] theorem upHouse_watch (s : State) (f : HouseRec → HouseRec) : (upHouse s f).watch = s.watch := rfl
@[simp] theorem upHouse_ration (s : State) (f : HouseRec → HouseRec) : (upHouse s f).ration = s.ration := rfl
@[simp] theorem upHouse_pins (s : State) (f : HouseRec → HouseRec) : (upHouse s f).pins = s.pins := rfl
@[simp] theorem upHouse_cycle (s : State) (f : HouseRec → HouseRec) : (upHouse s f).cycle = s.cycle := rfl
@[simp] theorem upHouse_free (s : State) (f : HouseRec → HouseRec) : (upHouse s f).free = s.free := rfl

/-! ### upScales -/

@[simp] theorem upScales_pending (s : State) (f : ScalesRec → ScalesRec) : (upScales s f).pending = s.pending := rfl
@[simp] theorem upScales_units (s : State) (f : ScalesRec → ScalesRec) : (upScales s f).units = s.units := rfl
@[simp] theorem upScales_rings (s : State) (f : ScalesRec → ScalesRec) : (upScales s f).rings = s.rings := rfl
@[simp] theorem upScales_routes (s : State) (f : ScalesRec → ScalesRec) : (upScales s f).routes = s.routes := rfl
@[simp] theorem upScales_jobs (s : State) (f : ScalesRec → ScalesRec) : (upScales s f).jobs = s.jobs := rfl
@[simp] theorem upScales_nextJob (s : State) (f : ScalesRec → ScalesRec) : (upScales s f).nextJob = s.nextJob := rfl
@[simp] theorem upScales_lanes (s : State) (f : ScalesRec → ScalesRec) : (upScales s f).lanes = s.lanes := rfl
@[simp] theorem upScales_muster (s : State) (f : ScalesRec → ScalesRec) : (upScales s f).muster = s.muster := rfl
@[simp] theorem upScales_serai (s : State) (f : ScalesRec → ScalesRec) : (upScales s f).serai = s.serai := rfl
@[simp] theorem upScales_mint (s : State) (f : ScalesRec → ScalesRec) : (upScales s f).mint = s.mint := rfl
@[simp] theorem upScales_house (s : State) (f : ScalesRec → ScalesRec) : (upScales s f).house = s.house := rfl
@[simp] theorem upScales_scales (s : State) (f : ScalesRec → ScalesRec) : (upScales s f).scales = f s.scales := rfl
@[simp] theorem upScales_well (s : State) (f : ScalesRec → ScalesRec) : (upScales s f).well = s.well := rfl
@[simp] theorem upScales_tollgate (s : State) (f : ScalesRec → ScalesRec) : (upScales s f).tollgate = s.tollgate := rfl
@[simp] theorem upScales_porter (s : State) (f : ScalesRec → ScalesRec) : (upScales s f).porter = s.porter := rfl
@[simp] theorem upScales_relay (s : State) (f : ScalesRec → ScalesRec) : (upScales s f).relay = s.relay := rfl
@[simp] theorem upScales_almanac (s : State) (f : ScalesRec → ScalesRec) : (upScales s f).almanac = s.almanac := rfl
@[simp] theorem upScales_ledger (s : State) (f : ScalesRec → ScalesRec) : (upScales s f).ledger = s.ledger := rfl
@[simp] theorem upScales_ai (s : State) (f : ScalesRec → ScalesRec) : (upScales s f).ai = s.ai := rfl
@[simp] theorem upScales_ports (s : State) (f : ScalesRec → ScalesRec) : (upScales s f).ports = s.ports := rfl
@[simp] theorem upScales_mode (s : State) (f : ScalesRec → ScalesRec) : (upScales s f).mode = s.mode := rfl
@[simp] theorem upScales_fuse (s : State) (f : ScalesRec → ScalesRec) : (upScales s f).fuse = s.fuse := rfl
@[simp] theorem upScales_safe (s : State) (f : ScalesRec → ScalesRec) : (upScales s f).safe = s.safe := rfl
@[simp] theorem upScales_watch (s : State) (f : ScalesRec → ScalesRec) : (upScales s f).watch = s.watch := rfl
@[simp] theorem upScales_ration (s : State) (f : ScalesRec → ScalesRec) : (upScales s f).ration = s.ration := rfl
@[simp] theorem upScales_pins (s : State) (f : ScalesRec → ScalesRec) : (upScales s f).pins = s.pins := rfl
@[simp] theorem upScales_cycle (s : State) (f : ScalesRec → ScalesRec) : (upScales s f).cycle = s.cycle := rfl
@[simp] theorem upScales_free (s : State) (f : ScalesRec → ScalesRec) : (upScales s f).free = s.free := rfl

/-! ### upWell -/

@[simp] theorem upWell_pending (s : State) (f : WellRec → WellRec) : (upWell s f).pending = s.pending := rfl
@[simp] theorem upWell_units (s : State) (f : WellRec → WellRec) : (upWell s f).units = s.units := rfl
@[simp] theorem upWell_rings (s : State) (f : WellRec → WellRec) : (upWell s f).rings = s.rings := rfl
@[simp] theorem upWell_routes (s : State) (f : WellRec → WellRec) : (upWell s f).routes = s.routes := rfl
@[simp] theorem upWell_jobs (s : State) (f : WellRec → WellRec) : (upWell s f).jobs = s.jobs := rfl
@[simp] theorem upWell_nextJob (s : State) (f : WellRec → WellRec) : (upWell s f).nextJob = s.nextJob := rfl
@[simp] theorem upWell_lanes (s : State) (f : WellRec → WellRec) : (upWell s f).lanes = s.lanes := rfl
@[simp] theorem upWell_muster (s : State) (f : WellRec → WellRec) : (upWell s f).muster = s.muster := rfl
@[simp] theorem upWell_serai (s : State) (f : WellRec → WellRec) : (upWell s f).serai = s.serai := rfl
@[simp] theorem upWell_mint (s : State) (f : WellRec → WellRec) : (upWell s f).mint = s.mint := rfl
@[simp] theorem upWell_house (s : State) (f : WellRec → WellRec) : (upWell s f).house = s.house := rfl
@[simp] theorem upWell_scales (s : State) (f : WellRec → WellRec) : (upWell s f).scales = s.scales := rfl
@[simp] theorem upWell_well (s : State) (f : WellRec → WellRec) : (upWell s f).well = f s.well := rfl
@[simp] theorem upWell_tollgate (s : State) (f : WellRec → WellRec) : (upWell s f).tollgate = s.tollgate := rfl
@[simp] theorem upWell_porter (s : State) (f : WellRec → WellRec) : (upWell s f).porter = s.porter := rfl
@[simp] theorem upWell_relay (s : State) (f : WellRec → WellRec) : (upWell s f).relay = s.relay := rfl
@[simp] theorem upWell_almanac (s : State) (f : WellRec → WellRec) : (upWell s f).almanac = s.almanac := rfl
@[simp] theorem upWell_ledger (s : State) (f : WellRec → WellRec) : (upWell s f).ledger = s.ledger := rfl
@[simp] theorem upWell_ai (s : State) (f : WellRec → WellRec) : (upWell s f).ai = s.ai := rfl
@[simp] theorem upWell_ports (s : State) (f : WellRec → WellRec) : (upWell s f).ports = s.ports := rfl
@[simp] theorem upWell_mode (s : State) (f : WellRec → WellRec) : (upWell s f).mode = s.mode := rfl
@[simp] theorem upWell_fuse (s : State) (f : WellRec → WellRec) : (upWell s f).fuse = s.fuse := rfl
@[simp] theorem upWell_safe (s : State) (f : WellRec → WellRec) : (upWell s f).safe = s.safe := rfl
@[simp] theorem upWell_watch (s : State) (f : WellRec → WellRec) : (upWell s f).watch = s.watch := rfl
@[simp] theorem upWell_ration (s : State) (f : WellRec → WellRec) : (upWell s f).ration = s.ration := rfl
@[simp] theorem upWell_pins (s : State) (f : WellRec → WellRec) : (upWell s f).pins = s.pins := rfl
@[simp] theorem upWell_cycle (s : State) (f : WellRec → WellRec) : (upWell s f).cycle = s.cycle := rfl
@[simp] theorem upWell_free (s : State) (f : WellRec → WellRec) : (upWell s f).free = s.free := rfl

/-! ### upTollgate -/

@[simp] theorem upTollgate_pending (s : State) (f : TollgateRec → TollgateRec) : (upTollgate s f).pending = s.pending := rfl
@[simp] theorem upTollgate_units (s : State) (f : TollgateRec → TollgateRec) : (upTollgate s f).units = s.units := rfl
@[simp] theorem upTollgate_rings (s : State) (f : TollgateRec → TollgateRec) : (upTollgate s f).rings = s.rings := rfl
@[simp] theorem upTollgate_routes (s : State) (f : TollgateRec → TollgateRec) : (upTollgate s f).routes = s.routes := rfl
@[simp] theorem upTollgate_jobs (s : State) (f : TollgateRec → TollgateRec) : (upTollgate s f).jobs = s.jobs := rfl
@[simp] theorem upTollgate_nextJob (s : State) (f : TollgateRec → TollgateRec) : (upTollgate s f).nextJob = s.nextJob := rfl
@[simp] theorem upTollgate_lanes (s : State) (f : TollgateRec → TollgateRec) : (upTollgate s f).lanes = s.lanes := rfl
@[simp] theorem upTollgate_muster (s : State) (f : TollgateRec → TollgateRec) : (upTollgate s f).muster = s.muster := rfl
@[simp] theorem upTollgate_serai (s : State) (f : TollgateRec → TollgateRec) : (upTollgate s f).serai = s.serai := rfl
@[simp] theorem upTollgate_mint (s : State) (f : TollgateRec → TollgateRec) : (upTollgate s f).mint = s.mint := rfl
@[simp] theorem upTollgate_house (s : State) (f : TollgateRec → TollgateRec) : (upTollgate s f).house = s.house := rfl
@[simp] theorem upTollgate_scales (s : State) (f : TollgateRec → TollgateRec) : (upTollgate s f).scales = s.scales := rfl
@[simp] theorem upTollgate_well (s : State) (f : TollgateRec → TollgateRec) : (upTollgate s f).well = s.well := rfl
@[simp] theorem upTollgate_tollgate (s : State) (f : TollgateRec → TollgateRec) : (upTollgate s f).tollgate = f s.tollgate := rfl
@[simp] theorem upTollgate_porter (s : State) (f : TollgateRec → TollgateRec) : (upTollgate s f).porter = s.porter := rfl
@[simp] theorem upTollgate_relay (s : State) (f : TollgateRec → TollgateRec) : (upTollgate s f).relay = s.relay := rfl
@[simp] theorem upTollgate_almanac (s : State) (f : TollgateRec → TollgateRec) : (upTollgate s f).almanac = s.almanac := rfl
@[simp] theorem upTollgate_ledger (s : State) (f : TollgateRec → TollgateRec) : (upTollgate s f).ledger = s.ledger := rfl
@[simp] theorem upTollgate_ai (s : State) (f : TollgateRec → TollgateRec) : (upTollgate s f).ai = s.ai := rfl
@[simp] theorem upTollgate_ports (s : State) (f : TollgateRec → TollgateRec) : (upTollgate s f).ports = s.ports := rfl
@[simp] theorem upTollgate_mode (s : State) (f : TollgateRec → TollgateRec) : (upTollgate s f).mode = s.mode := rfl
@[simp] theorem upTollgate_fuse (s : State) (f : TollgateRec → TollgateRec) : (upTollgate s f).fuse = s.fuse := rfl
@[simp] theorem upTollgate_safe (s : State) (f : TollgateRec → TollgateRec) : (upTollgate s f).safe = s.safe := rfl
@[simp] theorem upTollgate_watch (s : State) (f : TollgateRec → TollgateRec) : (upTollgate s f).watch = s.watch := rfl
@[simp] theorem upTollgate_ration (s : State) (f : TollgateRec → TollgateRec) : (upTollgate s f).ration = s.ration := rfl
@[simp] theorem upTollgate_pins (s : State) (f : TollgateRec → TollgateRec) : (upTollgate s f).pins = s.pins := rfl
@[simp] theorem upTollgate_cycle (s : State) (f : TollgateRec → TollgateRec) : (upTollgate s f).cycle = s.cycle := rfl
@[simp] theorem upTollgate_free (s : State) (f : TollgateRec → TollgateRec) : (upTollgate s f).free = s.free := rfl

/-! ### upPorter -/

@[simp] theorem upPorter_pending (s : State) (f : PorterRec → PorterRec) : (upPorter s f).pending = s.pending := rfl
@[simp] theorem upPorter_units (s : State) (f : PorterRec → PorterRec) : (upPorter s f).units = s.units := rfl
@[simp] theorem upPorter_rings (s : State) (f : PorterRec → PorterRec) : (upPorter s f).rings = s.rings := rfl
@[simp] theorem upPorter_routes (s : State) (f : PorterRec → PorterRec) : (upPorter s f).routes = s.routes := rfl
@[simp] theorem upPorter_jobs (s : State) (f : PorterRec → PorterRec) : (upPorter s f).jobs = s.jobs := rfl
@[simp] theorem upPorter_nextJob (s : State) (f : PorterRec → PorterRec) : (upPorter s f).nextJob = s.nextJob := rfl
@[simp] theorem upPorter_lanes (s : State) (f : PorterRec → PorterRec) : (upPorter s f).lanes = s.lanes := rfl
@[simp] theorem upPorter_muster (s : State) (f : PorterRec → PorterRec) : (upPorter s f).muster = s.muster := rfl
@[simp] theorem upPorter_serai (s : State) (f : PorterRec → PorterRec) : (upPorter s f).serai = s.serai := rfl
@[simp] theorem upPorter_mint (s : State) (f : PorterRec → PorterRec) : (upPorter s f).mint = s.mint := rfl
@[simp] theorem upPorter_house (s : State) (f : PorterRec → PorterRec) : (upPorter s f).house = s.house := rfl
@[simp] theorem upPorter_scales (s : State) (f : PorterRec → PorterRec) : (upPorter s f).scales = s.scales := rfl
@[simp] theorem upPorter_well (s : State) (f : PorterRec → PorterRec) : (upPorter s f).well = s.well := rfl
@[simp] theorem upPorter_tollgate (s : State) (f : PorterRec → PorterRec) : (upPorter s f).tollgate = s.tollgate := rfl
@[simp] theorem upPorter_porter (s : State) (f : PorterRec → PorterRec) : (upPorter s f).porter = f s.porter := rfl
@[simp] theorem upPorter_relay (s : State) (f : PorterRec → PorterRec) : (upPorter s f).relay = s.relay := rfl
@[simp] theorem upPorter_almanac (s : State) (f : PorterRec → PorterRec) : (upPorter s f).almanac = s.almanac := rfl
@[simp] theorem upPorter_ledger (s : State) (f : PorterRec → PorterRec) : (upPorter s f).ledger = s.ledger := rfl
@[simp] theorem upPorter_ai (s : State) (f : PorterRec → PorterRec) : (upPorter s f).ai = s.ai := rfl
@[simp] theorem upPorter_ports (s : State) (f : PorterRec → PorterRec) : (upPorter s f).ports = s.ports := rfl
@[simp] theorem upPorter_mode (s : State) (f : PorterRec → PorterRec) : (upPorter s f).mode = s.mode := rfl
@[simp] theorem upPorter_fuse (s : State) (f : PorterRec → PorterRec) : (upPorter s f).fuse = s.fuse := rfl
@[simp] theorem upPorter_safe (s : State) (f : PorterRec → PorterRec) : (upPorter s f).safe = s.safe := rfl
@[simp] theorem upPorter_watch (s : State) (f : PorterRec → PorterRec) : (upPorter s f).watch = s.watch := rfl
@[simp] theorem upPorter_ration (s : State) (f : PorterRec → PorterRec) : (upPorter s f).ration = s.ration := rfl
@[simp] theorem upPorter_pins (s : State) (f : PorterRec → PorterRec) : (upPorter s f).pins = s.pins := rfl
@[simp] theorem upPorter_cycle (s : State) (f : PorterRec → PorterRec) : (upPorter s f).cycle = s.cycle := rfl
@[simp] theorem upPorter_free (s : State) (f : PorterRec → PorterRec) : (upPorter s f).free = s.free := rfl

/-! ### upRelay -/

@[simp] theorem upRelay_pending (s : State) (f : RelayRec → RelayRec) : (upRelay s f).pending = s.pending := rfl
@[simp] theorem upRelay_units (s : State) (f : RelayRec → RelayRec) : (upRelay s f).units = s.units := rfl
@[simp] theorem upRelay_rings (s : State) (f : RelayRec → RelayRec) : (upRelay s f).rings = s.rings := rfl
@[simp] theorem upRelay_routes (s : State) (f : RelayRec → RelayRec) : (upRelay s f).routes = s.routes := rfl
@[simp] theorem upRelay_jobs (s : State) (f : RelayRec → RelayRec) : (upRelay s f).jobs = s.jobs := rfl
@[simp] theorem upRelay_nextJob (s : State) (f : RelayRec → RelayRec) : (upRelay s f).nextJob = s.nextJob := rfl
@[simp] theorem upRelay_lanes (s : State) (f : RelayRec → RelayRec) : (upRelay s f).lanes = s.lanes := rfl
@[simp] theorem upRelay_muster (s : State) (f : RelayRec → RelayRec) : (upRelay s f).muster = s.muster := rfl
@[simp] theorem upRelay_serai (s : State) (f : RelayRec → RelayRec) : (upRelay s f).serai = s.serai := rfl
@[simp] theorem upRelay_mint (s : State) (f : RelayRec → RelayRec) : (upRelay s f).mint = s.mint := rfl
@[simp] theorem upRelay_house (s : State) (f : RelayRec → RelayRec) : (upRelay s f).house = s.house := rfl
@[simp] theorem upRelay_scales (s : State) (f : RelayRec → RelayRec) : (upRelay s f).scales = s.scales := rfl
@[simp] theorem upRelay_well (s : State) (f : RelayRec → RelayRec) : (upRelay s f).well = s.well := rfl
@[simp] theorem upRelay_tollgate (s : State) (f : RelayRec → RelayRec) : (upRelay s f).tollgate = s.tollgate := rfl
@[simp] theorem upRelay_porter (s : State) (f : RelayRec → RelayRec) : (upRelay s f).porter = s.porter := rfl
@[simp] theorem upRelay_relay (s : State) (f : RelayRec → RelayRec) : (upRelay s f).relay = f s.relay := rfl
@[simp] theorem upRelay_almanac (s : State) (f : RelayRec → RelayRec) : (upRelay s f).almanac = s.almanac := rfl
@[simp] theorem upRelay_ledger (s : State) (f : RelayRec → RelayRec) : (upRelay s f).ledger = s.ledger := rfl
@[simp] theorem upRelay_ai (s : State) (f : RelayRec → RelayRec) : (upRelay s f).ai = s.ai := rfl
@[simp] theorem upRelay_ports (s : State) (f : RelayRec → RelayRec) : (upRelay s f).ports = s.ports := rfl
@[simp] theorem upRelay_mode (s : State) (f : RelayRec → RelayRec) : (upRelay s f).mode = s.mode := rfl
@[simp] theorem upRelay_fuse (s : State) (f : RelayRec → RelayRec) : (upRelay s f).fuse = s.fuse := rfl
@[simp] theorem upRelay_safe (s : State) (f : RelayRec → RelayRec) : (upRelay s f).safe = s.safe := rfl
@[simp] theorem upRelay_watch (s : State) (f : RelayRec → RelayRec) : (upRelay s f).watch = s.watch := rfl
@[simp] theorem upRelay_ration (s : State) (f : RelayRec → RelayRec) : (upRelay s f).ration = s.ration := rfl
@[simp] theorem upRelay_pins (s : State) (f : RelayRec → RelayRec) : (upRelay s f).pins = s.pins := rfl
@[simp] theorem upRelay_cycle (s : State) (f : RelayRec → RelayRec) : (upRelay s f).cycle = s.cycle := rfl
@[simp] theorem upRelay_free (s : State) (f : RelayRec → RelayRec) : (upRelay s f).free = s.free := rfl

/-! ### upAlmanac -/

@[simp] theorem upAlmanac_pending (s : State) (f : AlmanacRec → AlmanacRec) : (upAlmanac s f).pending = s.pending := rfl
@[simp] theorem upAlmanac_units (s : State) (f : AlmanacRec → AlmanacRec) : (upAlmanac s f).units = s.units := rfl
@[simp] theorem upAlmanac_rings (s : State) (f : AlmanacRec → AlmanacRec) : (upAlmanac s f).rings = s.rings := rfl
@[simp] theorem upAlmanac_routes (s : State) (f : AlmanacRec → AlmanacRec) : (upAlmanac s f).routes = s.routes := rfl
@[simp] theorem upAlmanac_jobs (s : State) (f : AlmanacRec → AlmanacRec) : (upAlmanac s f).jobs = s.jobs := rfl
@[simp] theorem upAlmanac_nextJob (s : State) (f : AlmanacRec → AlmanacRec) : (upAlmanac s f).nextJob = s.nextJob := rfl
@[simp] theorem upAlmanac_lanes (s : State) (f : AlmanacRec → AlmanacRec) : (upAlmanac s f).lanes = s.lanes := rfl
@[simp] theorem upAlmanac_muster (s : State) (f : AlmanacRec → AlmanacRec) : (upAlmanac s f).muster = s.muster := rfl
@[simp] theorem upAlmanac_serai (s : State) (f : AlmanacRec → AlmanacRec) : (upAlmanac s f).serai = s.serai := rfl
@[simp] theorem upAlmanac_mint (s : State) (f : AlmanacRec → AlmanacRec) : (upAlmanac s f).mint = s.mint := rfl
@[simp] theorem upAlmanac_house (s : State) (f : AlmanacRec → AlmanacRec) : (upAlmanac s f).house = s.house := rfl
@[simp] theorem upAlmanac_scales (s : State) (f : AlmanacRec → AlmanacRec) : (upAlmanac s f).scales = s.scales := rfl
@[simp] theorem upAlmanac_well (s : State) (f : AlmanacRec → AlmanacRec) : (upAlmanac s f).well = s.well := rfl
@[simp] theorem upAlmanac_tollgate (s : State) (f : AlmanacRec → AlmanacRec) : (upAlmanac s f).tollgate = s.tollgate := rfl
@[simp] theorem upAlmanac_porter (s : State) (f : AlmanacRec → AlmanacRec) : (upAlmanac s f).porter = s.porter := rfl
@[simp] theorem upAlmanac_relay (s : State) (f : AlmanacRec → AlmanacRec) : (upAlmanac s f).relay = s.relay := rfl
@[simp] theorem upAlmanac_almanac (s : State) (f : AlmanacRec → AlmanacRec) : (upAlmanac s f).almanac = f s.almanac := rfl
@[simp] theorem upAlmanac_ledger (s : State) (f : AlmanacRec → AlmanacRec) : (upAlmanac s f).ledger = s.ledger := rfl
@[simp] theorem upAlmanac_ai (s : State) (f : AlmanacRec → AlmanacRec) : (upAlmanac s f).ai = s.ai := rfl
@[simp] theorem upAlmanac_ports (s : State) (f : AlmanacRec → AlmanacRec) : (upAlmanac s f).ports = s.ports := rfl
@[simp] theorem upAlmanac_mode (s : State) (f : AlmanacRec → AlmanacRec) : (upAlmanac s f).mode = s.mode := rfl
@[simp] theorem upAlmanac_fuse (s : State) (f : AlmanacRec → AlmanacRec) : (upAlmanac s f).fuse = s.fuse := rfl
@[simp] theorem upAlmanac_safe (s : State) (f : AlmanacRec → AlmanacRec) : (upAlmanac s f).safe = s.safe := rfl
@[simp] theorem upAlmanac_watch (s : State) (f : AlmanacRec → AlmanacRec) : (upAlmanac s f).watch = s.watch := rfl
@[simp] theorem upAlmanac_ration (s : State) (f : AlmanacRec → AlmanacRec) : (upAlmanac s f).ration = s.ration := rfl
@[simp] theorem upAlmanac_pins (s : State) (f : AlmanacRec → AlmanacRec) : (upAlmanac s f).pins = s.pins := rfl
@[simp] theorem upAlmanac_cycle (s : State) (f : AlmanacRec → AlmanacRec) : (upAlmanac s f).cycle = s.cycle := rfl
@[simp] theorem upAlmanac_free (s : State) (f : AlmanacRec → AlmanacRec) : (upAlmanac s f).free = s.free := rfl

/-! ### upLedger -/

@[simp] theorem upLedger_pending (s : State) (f : LedgerState → LedgerState) : (upLedger s f).pending = s.pending := rfl
@[simp] theorem upLedger_units (s : State) (f : LedgerState → LedgerState) : (upLedger s f).units = s.units := rfl
@[simp] theorem upLedger_rings (s : State) (f : LedgerState → LedgerState) : (upLedger s f).rings = s.rings := rfl
@[simp] theorem upLedger_routes (s : State) (f : LedgerState → LedgerState) : (upLedger s f).routes = s.routes := rfl
@[simp] theorem upLedger_jobs (s : State) (f : LedgerState → LedgerState) : (upLedger s f).jobs = s.jobs := rfl
@[simp] theorem upLedger_nextJob (s : State) (f : LedgerState → LedgerState) : (upLedger s f).nextJob = s.nextJob := rfl
@[simp] theorem upLedger_lanes (s : State) (f : LedgerState → LedgerState) : (upLedger s f).lanes = s.lanes := rfl
@[simp] theorem upLedger_muster (s : State) (f : LedgerState → LedgerState) : (upLedger s f).muster = s.muster := rfl
@[simp] theorem upLedger_serai (s : State) (f : LedgerState → LedgerState) : (upLedger s f).serai = s.serai := rfl
@[simp] theorem upLedger_mint (s : State) (f : LedgerState → LedgerState) : (upLedger s f).mint = s.mint := rfl
@[simp] theorem upLedger_house (s : State) (f : LedgerState → LedgerState) : (upLedger s f).house = s.house := rfl
@[simp] theorem upLedger_scales (s : State) (f : LedgerState → LedgerState) : (upLedger s f).scales = s.scales := rfl
@[simp] theorem upLedger_well (s : State) (f : LedgerState → LedgerState) : (upLedger s f).well = s.well := rfl
@[simp] theorem upLedger_tollgate (s : State) (f : LedgerState → LedgerState) : (upLedger s f).tollgate = s.tollgate := rfl
@[simp] theorem upLedger_porter (s : State) (f : LedgerState → LedgerState) : (upLedger s f).porter = s.porter := rfl
@[simp] theorem upLedger_relay (s : State) (f : LedgerState → LedgerState) : (upLedger s f).relay = s.relay := rfl
@[simp] theorem upLedger_almanac (s : State) (f : LedgerState → LedgerState) : (upLedger s f).almanac = s.almanac := rfl
@[simp] theorem upLedger_ledger (s : State) (f : LedgerState → LedgerState) : (upLedger s f).ledger = f s.ledger := rfl
@[simp] theorem upLedger_ai (s : State) (f : LedgerState → LedgerState) : (upLedger s f).ai = s.ai := rfl
@[simp] theorem upLedger_ports (s : State) (f : LedgerState → LedgerState) : (upLedger s f).ports = s.ports := rfl
@[simp] theorem upLedger_mode (s : State) (f : LedgerState → LedgerState) : (upLedger s f).mode = s.mode := rfl
@[simp] theorem upLedger_fuse (s : State) (f : LedgerState → LedgerState) : (upLedger s f).fuse = s.fuse := rfl
@[simp] theorem upLedger_safe (s : State) (f : LedgerState → LedgerState) : (upLedger s f).safe = s.safe := rfl
@[simp] theorem upLedger_watch (s : State) (f : LedgerState → LedgerState) : (upLedger s f).watch = s.watch := rfl
@[simp] theorem upLedger_ration (s : State) (f : LedgerState → LedgerState) : (upLedger s f).ration = s.ration := rfl
@[simp] theorem upLedger_pins (s : State) (f : LedgerState → LedgerState) : (upLedger s f).pins = s.pins := rfl
@[simp] theorem upLedger_cycle (s : State) (f : LedgerState → LedgerState) : (upLedger s f).cycle = s.cycle := rfl
@[simp] theorem upLedger_free (s : State) (f : LedgerState → LedgerState) : (upLedger s f).free = s.free := rfl

/-! ### upAi -/

@[simp] theorem upAi_pending (s : State) (f : AdapterRec → AdapterRec) : (upAi s f).pending = s.pending := rfl
@[simp] theorem upAi_units (s : State) (f : AdapterRec → AdapterRec) : (upAi s f).units = s.units := rfl
@[simp] theorem upAi_rings (s : State) (f : AdapterRec → AdapterRec) : (upAi s f).rings = s.rings := rfl
@[simp] theorem upAi_routes (s : State) (f : AdapterRec → AdapterRec) : (upAi s f).routes = s.routes := rfl
@[simp] theorem upAi_jobs (s : State) (f : AdapterRec → AdapterRec) : (upAi s f).jobs = s.jobs := rfl
@[simp] theorem upAi_nextJob (s : State) (f : AdapterRec → AdapterRec) : (upAi s f).nextJob = s.nextJob := rfl
@[simp] theorem upAi_lanes (s : State) (f : AdapterRec → AdapterRec) : (upAi s f).lanes = s.lanes := rfl
@[simp] theorem upAi_muster (s : State) (f : AdapterRec → AdapterRec) : (upAi s f).muster = s.muster := rfl
@[simp] theorem upAi_serai (s : State) (f : AdapterRec → AdapterRec) : (upAi s f).serai = s.serai := rfl
@[simp] theorem upAi_mint (s : State) (f : AdapterRec → AdapterRec) : (upAi s f).mint = s.mint := rfl
@[simp] theorem upAi_house (s : State) (f : AdapterRec → AdapterRec) : (upAi s f).house = s.house := rfl
@[simp] theorem upAi_scales (s : State) (f : AdapterRec → AdapterRec) : (upAi s f).scales = s.scales := rfl
@[simp] theorem upAi_well (s : State) (f : AdapterRec → AdapterRec) : (upAi s f).well = s.well := rfl
@[simp] theorem upAi_tollgate (s : State) (f : AdapterRec → AdapterRec) : (upAi s f).tollgate = s.tollgate := rfl
@[simp] theorem upAi_porter (s : State) (f : AdapterRec → AdapterRec) : (upAi s f).porter = s.porter := rfl
@[simp] theorem upAi_relay (s : State) (f : AdapterRec → AdapterRec) : (upAi s f).relay = s.relay := rfl
@[simp] theorem upAi_almanac (s : State) (f : AdapterRec → AdapterRec) : (upAi s f).almanac = s.almanac := rfl
@[simp] theorem upAi_ledger (s : State) (f : AdapterRec → AdapterRec) : (upAi s f).ledger = s.ledger := rfl
@[simp] theorem upAi_ai (s : State) (f : AdapterRec → AdapterRec) : (upAi s f).ai = f s.ai := rfl
@[simp] theorem upAi_ports (s : State) (f : AdapterRec → AdapterRec) : (upAi s f).ports = s.ports := rfl
@[simp] theorem upAi_mode (s : State) (f : AdapterRec → AdapterRec) : (upAi s f).mode = s.mode := rfl
@[simp] theorem upAi_fuse (s : State) (f : AdapterRec → AdapterRec) : (upAi s f).fuse = s.fuse := rfl
@[simp] theorem upAi_safe (s : State) (f : AdapterRec → AdapterRec) : (upAi s f).safe = s.safe := rfl
@[simp] theorem upAi_watch (s : State) (f : AdapterRec → AdapterRec) : (upAi s f).watch = s.watch := rfl
@[simp] theorem upAi_ration (s : State) (f : AdapterRec → AdapterRec) : (upAi s f).ration = s.ration := rfl
@[simp] theorem upAi_pins (s : State) (f : AdapterRec → AdapterRec) : (upAi s f).pins = s.pins := rfl
@[simp] theorem upAi_cycle (s : State) (f : AdapterRec → AdapterRec) : (upAi s f).cycle = s.cycle := rfl
@[simp] theorem upAi_free (s : State) (f : AdapterRec → AdapterRec) : (upAi s f).free = s.free := rfl

/-! ### upMode -/

@[simp] theorem upMode_pending (s : State) (f : ModeRec → ModeRec) : (upMode s f).pending = s.pending := rfl
@[simp] theorem upMode_units (s : State) (f : ModeRec → ModeRec) : (upMode s f).units = s.units := rfl
@[simp] theorem upMode_rings (s : State) (f : ModeRec → ModeRec) : (upMode s f).rings = s.rings := rfl
@[simp] theorem upMode_routes (s : State) (f : ModeRec → ModeRec) : (upMode s f).routes = s.routes := rfl
@[simp] theorem upMode_jobs (s : State) (f : ModeRec → ModeRec) : (upMode s f).jobs = s.jobs := rfl
@[simp] theorem upMode_nextJob (s : State) (f : ModeRec → ModeRec) : (upMode s f).nextJob = s.nextJob := rfl
@[simp] theorem upMode_lanes (s : State) (f : ModeRec → ModeRec) : (upMode s f).lanes = s.lanes := rfl
@[simp] theorem upMode_muster (s : State) (f : ModeRec → ModeRec) : (upMode s f).muster = s.muster := rfl
@[simp] theorem upMode_serai (s : State) (f : ModeRec → ModeRec) : (upMode s f).serai = s.serai := rfl
@[simp] theorem upMode_mint (s : State) (f : ModeRec → ModeRec) : (upMode s f).mint = s.mint := rfl
@[simp] theorem upMode_house (s : State) (f : ModeRec → ModeRec) : (upMode s f).house = s.house := rfl
@[simp] theorem upMode_scales (s : State) (f : ModeRec → ModeRec) : (upMode s f).scales = s.scales := rfl
@[simp] theorem upMode_well (s : State) (f : ModeRec → ModeRec) : (upMode s f).well = s.well := rfl
@[simp] theorem upMode_tollgate (s : State) (f : ModeRec → ModeRec) : (upMode s f).tollgate = s.tollgate := rfl
@[simp] theorem upMode_porter (s : State) (f : ModeRec → ModeRec) : (upMode s f).porter = s.porter := rfl
@[simp] theorem upMode_relay (s : State) (f : ModeRec → ModeRec) : (upMode s f).relay = s.relay := rfl
@[simp] theorem upMode_almanac (s : State) (f : ModeRec → ModeRec) : (upMode s f).almanac = s.almanac := rfl
@[simp] theorem upMode_ledger (s : State) (f : ModeRec → ModeRec) : (upMode s f).ledger = s.ledger := rfl
@[simp] theorem upMode_ai (s : State) (f : ModeRec → ModeRec) : (upMode s f).ai = s.ai := rfl
@[simp] theorem upMode_ports (s : State) (f : ModeRec → ModeRec) : (upMode s f).ports = s.ports := rfl
@[simp] theorem upMode_mode (s : State) (f : ModeRec → ModeRec) : (upMode s f).mode = f s.mode := rfl
@[simp] theorem upMode_fuse (s : State) (f : ModeRec → ModeRec) : (upMode s f).fuse = s.fuse := rfl
@[simp] theorem upMode_safe (s : State) (f : ModeRec → ModeRec) : (upMode s f).safe = s.safe := rfl
@[simp] theorem upMode_watch (s : State) (f : ModeRec → ModeRec) : (upMode s f).watch = s.watch := rfl
@[simp] theorem upMode_ration (s : State) (f : ModeRec → ModeRec) : (upMode s f).ration = s.ration := rfl
@[simp] theorem upMode_pins (s : State) (f : ModeRec → ModeRec) : (upMode s f).pins = s.pins := rfl
@[simp] theorem upMode_cycle (s : State) (f : ModeRec → ModeRec) : (upMode s f).cycle = s.cycle := rfl
@[simp] theorem upMode_free (s : State) (f : ModeRec → ModeRec) : (upMode s f).free = s.free := rfl

/-! ### upFuse -/

@[simp] theorem upFuse_pending (s : State) (f : FuseRec → FuseRec) : (upFuse s f).pending = s.pending := rfl
@[simp] theorem upFuse_units (s : State) (f : FuseRec → FuseRec) : (upFuse s f).units = s.units := rfl
@[simp] theorem upFuse_rings (s : State) (f : FuseRec → FuseRec) : (upFuse s f).rings = s.rings := rfl
@[simp] theorem upFuse_routes (s : State) (f : FuseRec → FuseRec) : (upFuse s f).routes = s.routes := rfl
@[simp] theorem upFuse_jobs (s : State) (f : FuseRec → FuseRec) : (upFuse s f).jobs = s.jobs := rfl
@[simp] theorem upFuse_nextJob (s : State) (f : FuseRec → FuseRec) : (upFuse s f).nextJob = s.nextJob := rfl
@[simp] theorem upFuse_lanes (s : State) (f : FuseRec → FuseRec) : (upFuse s f).lanes = s.lanes := rfl
@[simp] theorem upFuse_muster (s : State) (f : FuseRec → FuseRec) : (upFuse s f).muster = s.muster := rfl
@[simp] theorem upFuse_serai (s : State) (f : FuseRec → FuseRec) : (upFuse s f).serai = s.serai := rfl
@[simp] theorem upFuse_mint (s : State) (f : FuseRec → FuseRec) : (upFuse s f).mint = s.mint := rfl
@[simp] theorem upFuse_house (s : State) (f : FuseRec → FuseRec) : (upFuse s f).house = s.house := rfl
@[simp] theorem upFuse_scales (s : State) (f : FuseRec → FuseRec) : (upFuse s f).scales = s.scales := rfl
@[simp] theorem upFuse_well (s : State) (f : FuseRec → FuseRec) : (upFuse s f).well = s.well := rfl
@[simp] theorem upFuse_tollgate (s : State) (f : FuseRec → FuseRec) : (upFuse s f).tollgate = s.tollgate := rfl
@[simp] theorem upFuse_porter (s : State) (f : FuseRec → FuseRec) : (upFuse s f).porter = s.porter := rfl
@[simp] theorem upFuse_relay (s : State) (f : FuseRec → FuseRec) : (upFuse s f).relay = s.relay := rfl
@[simp] theorem upFuse_almanac (s : State) (f : FuseRec → FuseRec) : (upFuse s f).almanac = s.almanac := rfl
@[simp] theorem upFuse_ledger (s : State) (f : FuseRec → FuseRec) : (upFuse s f).ledger = s.ledger := rfl
@[simp] theorem upFuse_ai (s : State) (f : FuseRec → FuseRec) : (upFuse s f).ai = s.ai := rfl
@[simp] theorem upFuse_ports (s : State) (f : FuseRec → FuseRec) : (upFuse s f).ports = s.ports := rfl
@[simp] theorem upFuse_mode (s : State) (f : FuseRec → FuseRec) : (upFuse s f).mode = s.mode := rfl
@[simp] theorem upFuse_fuse (s : State) (f : FuseRec → FuseRec) : (upFuse s f).fuse = f s.fuse := rfl
@[simp] theorem upFuse_safe (s : State) (f : FuseRec → FuseRec) : (upFuse s f).safe = s.safe := rfl
@[simp] theorem upFuse_watch (s : State) (f : FuseRec → FuseRec) : (upFuse s f).watch = s.watch := rfl
@[simp] theorem upFuse_ration (s : State) (f : FuseRec → FuseRec) : (upFuse s f).ration = s.ration := rfl
@[simp] theorem upFuse_pins (s : State) (f : FuseRec → FuseRec) : (upFuse s f).pins = s.pins := rfl
@[simp] theorem upFuse_cycle (s : State) (f : FuseRec → FuseRec) : (upFuse s f).cycle = s.cycle := rfl
@[simp] theorem upFuse_free (s : State) (f : FuseRec → FuseRec) : (upFuse s f).free = s.free := rfl

/-! ### upSafe -/

@[simp] theorem upSafe_pending (s : State) (f : SafeRec → SafeRec) : (upSafe s f).pending = s.pending := rfl
@[simp] theorem upSafe_units (s : State) (f : SafeRec → SafeRec) : (upSafe s f).units = s.units := rfl
@[simp] theorem upSafe_rings (s : State) (f : SafeRec → SafeRec) : (upSafe s f).rings = s.rings := rfl
@[simp] theorem upSafe_routes (s : State) (f : SafeRec → SafeRec) : (upSafe s f).routes = s.routes := rfl
@[simp] theorem upSafe_jobs (s : State) (f : SafeRec → SafeRec) : (upSafe s f).jobs = s.jobs := rfl
@[simp] theorem upSafe_nextJob (s : State) (f : SafeRec → SafeRec) : (upSafe s f).nextJob = s.nextJob := rfl
@[simp] theorem upSafe_lanes (s : State) (f : SafeRec → SafeRec) : (upSafe s f).lanes = s.lanes := rfl
@[simp] theorem upSafe_muster (s : State) (f : SafeRec → SafeRec) : (upSafe s f).muster = s.muster := rfl
@[simp] theorem upSafe_serai (s : State) (f : SafeRec → SafeRec) : (upSafe s f).serai = s.serai := rfl
@[simp] theorem upSafe_mint (s : State) (f : SafeRec → SafeRec) : (upSafe s f).mint = s.mint := rfl
@[simp] theorem upSafe_house (s : State) (f : SafeRec → SafeRec) : (upSafe s f).house = s.house := rfl
@[simp] theorem upSafe_scales (s : State) (f : SafeRec → SafeRec) : (upSafe s f).scales = s.scales := rfl
@[simp] theorem upSafe_well (s : State) (f : SafeRec → SafeRec) : (upSafe s f).well = s.well := rfl
@[simp] theorem upSafe_tollgate (s : State) (f : SafeRec → SafeRec) : (upSafe s f).tollgate = s.tollgate := rfl
@[simp] theorem upSafe_porter (s : State) (f : SafeRec → SafeRec) : (upSafe s f).porter = s.porter := rfl
@[simp] theorem upSafe_relay (s : State) (f : SafeRec → SafeRec) : (upSafe s f).relay = s.relay := rfl
@[simp] theorem upSafe_almanac (s : State) (f : SafeRec → SafeRec) : (upSafe s f).almanac = s.almanac := rfl
@[simp] theorem upSafe_ledger (s : State) (f : SafeRec → SafeRec) : (upSafe s f).ledger = s.ledger := rfl
@[simp] theorem upSafe_ai (s : State) (f : SafeRec → SafeRec) : (upSafe s f).ai = s.ai := rfl
@[simp] theorem upSafe_ports (s : State) (f : SafeRec → SafeRec) : (upSafe s f).ports = s.ports := rfl
@[simp] theorem upSafe_mode (s : State) (f : SafeRec → SafeRec) : (upSafe s f).mode = s.mode := rfl
@[simp] theorem upSafe_fuse (s : State) (f : SafeRec → SafeRec) : (upSafe s f).fuse = s.fuse := rfl
@[simp] theorem upSafe_safe (s : State) (f : SafeRec → SafeRec) : (upSafe s f).safe = f s.safe := rfl
@[simp] theorem upSafe_watch (s : State) (f : SafeRec → SafeRec) : (upSafe s f).watch = s.watch := rfl
@[simp] theorem upSafe_ration (s : State) (f : SafeRec → SafeRec) : (upSafe s f).ration = s.ration := rfl
@[simp] theorem upSafe_pins (s : State) (f : SafeRec → SafeRec) : (upSafe s f).pins = s.pins := rfl
@[simp] theorem upSafe_cycle (s : State) (f : SafeRec → SafeRec) : (upSafe s f).cycle = s.cycle := rfl
@[simp] theorem upSafe_free (s : State) (f : SafeRec → SafeRec) : (upSafe s f).free = s.free := rfl

/-! ### upWatch -/

@[simp] theorem upWatch_pending (s : State) (f : WatchRec → WatchRec) : (upWatch s f).pending = s.pending := rfl
@[simp] theorem upWatch_units (s : State) (f : WatchRec → WatchRec) : (upWatch s f).units = s.units := rfl
@[simp] theorem upWatch_rings (s : State) (f : WatchRec → WatchRec) : (upWatch s f).rings = s.rings := rfl
@[simp] theorem upWatch_routes (s : State) (f : WatchRec → WatchRec) : (upWatch s f).routes = s.routes := rfl
@[simp] theorem upWatch_jobs (s : State) (f : WatchRec → WatchRec) : (upWatch s f).jobs = s.jobs := rfl
@[simp] theorem upWatch_nextJob (s : State) (f : WatchRec → WatchRec) : (upWatch s f).nextJob = s.nextJob := rfl
@[simp] theorem upWatch_lanes (s : State) (f : WatchRec → WatchRec) : (upWatch s f).lanes = s.lanes := rfl
@[simp] theorem upWatch_muster (s : State) (f : WatchRec → WatchRec) : (upWatch s f).muster = s.muster := rfl
@[simp] theorem upWatch_serai (s : State) (f : WatchRec → WatchRec) : (upWatch s f).serai = s.serai := rfl
@[simp] theorem upWatch_mint (s : State) (f : WatchRec → WatchRec) : (upWatch s f).mint = s.mint := rfl
@[simp] theorem upWatch_house (s : State) (f : WatchRec → WatchRec) : (upWatch s f).house = s.house := rfl
@[simp] theorem upWatch_scales (s : State) (f : WatchRec → WatchRec) : (upWatch s f).scales = s.scales := rfl
@[simp] theorem upWatch_well (s : State) (f : WatchRec → WatchRec) : (upWatch s f).well = s.well := rfl
@[simp] theorem upWatch_tollgate (s : State) (f : WatchRec → WatchRec) : (upWatch s f).tollgate = s.tollgate := rfl
@[simp] theorem upWatch_porter (s : State) (f : WatchRec → WatchRec) : (upWatch s f).porter = s.porter := rfl
@[simp] theorem upWatch_relay (s : State) (f : WatchRec → WatchRec) : (upWatch s f).relay = s.relay := rfl
@[simp] theorem upWatch_almanac (s : State) (f : WatchRec → WatchRec) : (upWatch s f).almanac = s.almanac := rfl
@[simp] theorem upWatch_ledger (s : State) (f : WatchRec → WatchRec) : (upWatch s f).ledger = s.ledger := rfl
@[simp] theorem upWatch_ai (s : State) (f : WatchRec → WatchRec) : (upWatch s f).ai = s.ai := rfl
@[simp] theorem upWatch_ports (s : State) (f : WatchRec → WatchRec) : (upWatch s f).ports = s.ports := rfl
@[simp] theorem upWatch_mode (s : State) (f : WatchRec → WatchRec) : (upWatch s f).mode = s.mode := rfl
@[simp] theorem upWatch_fuse (s : State) (f : WatchRec → WatchRec) : (upWatch s f).fuse = s.fuse := rfl
@[simp] theorem upWatch_safe (s : State) (f : WatchRec → WatchRec) : (upWatch s f).safe = s.safe := rfl
@[simp] theorem upWatch_watch (s : State) (f : WatchRec → WatchRec) : (upWatch s f).watch = f s.watch := rfl
@[simp] theorem upWatch_ration (s : State) (f : WatchRec → WatchRec) : (upWatch s f).ration = s.ration := rfl
@[simp] theorem upWatch_pins (s : State) (f : WatchRec → WatchRec) : (upWatch s f).pins = s.pins := rfl
@[simp] theorem upWatch_cycle (s : State) (f : WatchRec → WatchRec) : (upWatch s f).cycle = s.cycle := rfl
@[simp] theorem upWatch_free (s : State) (f : WatchRec → WatchRec) : (upWatch s f).free = s.free := rfl

/-! ### upRation -/

@[simp] theorem upRation_pending (s : State) (f : RationRec → RationRec) : (upRation s f).pending = s.pending := rfl
@[simp] theorem upRation_units (s : State) (f : RationRec → RationRec) : (upRation s f).units = s.units := rfl
@[simp] theorem upRation_rings (s : State) (f : RationRec → RationRec) : (upRation s f).rings = s.rings := rfl
@[simp] theorem upRation_routes (s : State) (f : RationRec → RationRec) : (upRation s f).routes = s.routes := rfl
@[simp] theorem upRation_jobs (s : State) (f : RationRec → RationRec) : (upRation s f).jobs = s.jobs := rfl
@[simp] theorem upRation_nextJob (s : State) (f : RationRec → RationRec) : (upRation s f).nextJob = s.nextJob := rfl
@[simp] theorem upRation_lanes (s : State) (f : RationRec → RationRec) : (upRation s f).lanes = s.lanes := rfl
@[simp] theorem upRation_muster (s : State) (f : RationRec → RationRec) : (upRation s f).muster = s.muster := rfl
@[simp] theorem upRation_serai (s : State) (f : RationRec → RationRec) : (upRation s f).serai = s.serai := rfl
@[simp] theorem upRation_mint (s : State) (f : RationRec → RationRec) : (upRation s f).mint = s.mint := rfl
@[simp] theorem upRation_house (s : State) (f : RationRec → RationRec) : (upRation s f).house = s.house := rfl
@[simp] theorem upRation_scales (s : State) (f : RationRec → RationRec) : (upRation s f).scales = s.scales := rfl
@[simp] theorem upRation_well (s : State) (f : RationRec → RationRec) : (upRation s f).well = s.well := rfl
@[simp] theorem upRation_tollgate (s : State) (f : RationRec → RationRec) : (upRation s f).tollgate = s.tollgate := rfl
@[simp] theorem upRation_porter (s : State) (f : RationRec → RationRec) : (upRation s f).porter = s.porter := rfl
@[simp] theorem upRation_relay (s : State) (f : RationRec → RationRec) : (upRation s f).relay = s.relay := rfl
@[simp] theorem upRation_almanac (s : State) (f : RationRec → RationRec) : (upRation s f).almanac = s.almanac := rfl
@[simp] theorem upRation_ledger (s : State) (f : RationRec → RationRec) : (upRation s f).ledger = s.ledger := rfl
@[simp] theorem upRation_ai (s : State) (f : RationRec → RationRec) : (upRation s f).ai = s.ai := rfl
@[simp] theorem upRation_ports (s : State) (f : RationRec → RationRec) : (upRation s f).ports = s.ports := rfl
@[simp] theorem upRation_mode (s : State) (f : RationRec → RationRec) : (upRation s f).mode = s.mode := rfl
@[simp] theorem upRation_fuse (s : State) (f : RationRec → RationRec) : (upRation s f).fuse = s.fuse := rfl
@[simp] theorem upRation_safe (s : State) (f : RationRec → RationRec) : (upRation s f).safe = s.safe := rfl
@[simp] theorem upRation_watch (s : State) (f : RationRec → RationRec) : (upRation s f).watch = s.watch := rfl
@[simp] theorem upRation_ration (s : State) (f : RationRec → RationRec) : (upRation s f).ration = f s.ration := rfl
@[simp] theorem upRation_pins (s : State) (f : RationRec → RationRec) : (upRation s f).pins = s.pins := rfl
@[simp] theorem upRation_cycle (s : State) (f : RationRec → RationRec) : (upRation s f).cycle = s.cycle := rfl
@[simp] theorem upRation_free (s : State) (f : RationRec → RationRec) : (upRation s f).free = s.free := rfl

/-! ### upRoutes -/

@[simp] theorem upRoutes_pending (s : State) (f : RouteStore → RouteStore) : (upRoutes s f).pending = s.pending := rfl
@[simp] theorem upRoutes_units (s : State) (f : RouteStore → RouteStore) : (upRoutes s f).units = s.units := rfl
@[simp] theorem upRoutes_rings (s : State) (f : RouteStore → RouteStore) : (upRoutes s f).rings = s.rings := rfl
@[simp] theorem upRoutes_routes (s : State) (f : RouteStore → RouteStore) : (upRoutes s f).routes = f s.routes := rfl
@[simp] theorem upRoutes_jobs (s : State) (f : RouteStore → RouteStore) : (upRoutes s f).jobs = s.jobs := rfl
@[simp] theorem upRoutes_nextJob (s : State) (f : RouteStore → RouteStore) : (upRoutes s f).nextJob = s.nextJob := rfl
@[simp] theorem upRoutes_lanes (s : State) (f : RouteStore → RouteStore) : (upRoutes s f).lanes = s.lanes := rfl
@[simp] theorem upRoutes_muster (s : State) (f : RouteStore → RouteStore) : (upRoutes s f).muster = s.muster := rfl
@[simp] theorem upRoutes_serai (s : State) (f : RouteStore → RouteStore) : (upRoutes s f).serai = s.serai := rfl
@[simp] theorem upRoutes_mint (s : State) (f : RouteStore → RouteStore) : (upRoutes s f).mint = s.mint := rfl
@[simp] theorem upRoutes_house (s : State) (f : RouteStore → RouteStore) : (upRoutes s f).house = s.house := rfl
@[simp] theorem upRoutes_scales (s : State) (f : RouteStore → RouteStore) : (upRoutes s f).scales = s.scales := rfl
@[simp] theorem upRoutes_well (s : State) (f : RouteStore → RouteStore) : (upRoutes s f).well = s.well := rfl
@[simp] theorem upRoutes_tollgate (s : State) (f : RouteStore → RouteStore) : (upRoutes s f).tollgate = s.tollgate := rfl
@[simp] theorem upRoutes_porter (s : State) (f : RouteStore → RouteStore) : (upRoutes s f).porter = s.porter := rfl
@[simp] theorem upRoutes_relay (s : State) (f : RouteStore → RouteStore) : (upRoutes s f).relay = s.relay := rfl
@[simp] theorem upRoutes_almanac (s : State) (f : RouteStore → RouteStore) : (upRoutes s f).almanac = s.almanac := rfl
@[simp] theorem upRoutes_ledger (s : State) (f : RouteStore → RouteStore) : (upRoutes s f).ledger = s.ledger := rfl
@[simp] theorem upRoutes_ai (s : State) (f : RouteStore → RouteStore) : (upRoutes s f).ai = s.ai := rfl
@[simp] theorem upRoutes_ports (s : State) (f : RouteStore → RouteStore) : (upRoutes s f).ports = s.ports := rfl
@[simp] theorem upRoutes_mode (s : State) (f : RouteStore → RouteStore) : (upRoutes s f).mode = s.mode := rfl
@[simp] theorem upRoutes_fuse (s : State) (f : RouteStore → RouteStore) : (upRoutes s f).fuse = s.fuse := rfl
@[simp] theorem upRoutes_safe (s : State) (f : RouteStore → RouteStore) : (upRoutes s f).safe = s.safe := rfl
@[simp] theorem upRoutes_watch (s : State) (f : RouteStore → RouteStore) : (upRoutes s f).watch = s.watch := rfl
@[simp] theorem upRoutes_ration (s : State) (f : RouteStore → RouteStore) : (upRoutes s f).ration = s.ration := rfl
@[simp] theorem upRoutes_pins (s : State) (f : RouteStore → RouteStore) : (upRoutes s f).pins = s.pins := rfl
@[simp] theorem upRoutes_cycle (s : State) (f : RouteStore → RouteStore) : (upRoutes s f).cycle = s.cycle := rfl
@[simp] theorem upRoutes_free (s : State) (f : RouteStore → RouteStore) : (upRoutes s f).free = s.free := rfl

/-! ### upPins -/

@[simp] theorem upPins_pending (s : State) (f : Pins → Pins) : (upPins s f).pending = s.pending := rfl
@[simp] theorem upPins_units (s : State) (f : Pins → Pins) : (upPins s f).units = s.units := rfl
@[simp] theorem upPins_rings (s : State) (f : Pins → Pins) : (upPins s f).rings = s.rings := rfl
@[simp] theorem upPins_routes (s : State) (f : Pins → Pins) : (upPins s f).routes = s.routes := rfl
@[simp] theorem upPins_jobs (s : State) (f : Pins → Pins) : (upPins s f).jobs = s.jobs := rfl
@[simp] theorem upPins_nextJob (s : State) (f : Pins → Pins) : (upPins s f).nextJob = s.nextJob := rfl
@[simp] theorem upPins_lanes (s : State) (f : Pins → Pins) : (upPins s f).lanes = s.lanes := rfl
@[simp] theorem upPins_muster (s : State) (f : Pins → Pins) : (upPins s f).muster = s.muster := rfl
@[simp] theorem upPins_serai (s : State) (f : Pins → Pins) : (upPins s f).serai = s.serai := rfl
@[simp] theorem upPins_mint (s : State) (f : Pins → Pins) : (upPins s f).mint = s.mint := rfl
@[simp] theorem upPins_house (s : State) (f : Pins → Pins) : (upPins s f).house = s.house := rfl
@[simp] theorem upPins_scales (s : State) (f : Pins → Pins) : (upPins s f).scales = s.scales := rfl
@[simp] theorem upPins_well (s : State) (f : Pins → Pins) : (upPins s f).well = s.well := rfl
@[simp] theorem upPins_tollgate (s : State) (f : Pins → Pins) : (upPins s f).tollgate = s.tollgate := rfl
@[simp] theorem upPins_porter (s : State) (f : Pins → Pins) : (upPins s f).porter = s.porter := rfl
@[simp] theorem upPins_relay (s : State) (f : Pins → Pins) : (upPins s f).relay = s.relay := rfl
@[simp] theorem upPins_almanac (s : State) (f : Pins → Pins) : (upPins s f).almanac = s.almanac := rfl
@[simp] theorem upPins_ledger (s : State) (f : Pins → Pins) : (upPins s f).ledger = s.ledger := rfl
@[simp] theorem upPins_ai (s : State) (f : Pins → Pins) : (upPins s f).ai = s.ai := rfl
@[simp] theorem upPins_ports (s : State) (f : Pins → Pins) : (upPins s f).ports = s.ports := rfl
@[simp] theorem upPins_mode (s : State) (f : Pins → Pins) : (upPins s f).mode = s.mode := rfl
@[simp] theorem upPins_fuse (s : State) (f : Pins → Pins) : (upPins s f).fuse = s.fuse := rfl
@[simp] theorem upPins_safe (s : State) (f : Pins → Pins) : (upPins s f).safe = s.safe := rfl
@[simp] theorem upPins_watch (s : State) (f : Pins → Pins) : (upPins s f).watch = s.watch := rfl
@[simp] theorem upPins_ration (s : State) (f : Pins → Pins) : (upPins s f).ration = s.ration := rfl
@[simp] theorem upPins_pins (s : State) (f : Pins → Pins) : (upPins s f).pins = f s.pins := rfl
@[simp] theorem upPins_cycle (s : State) (f : Pins → Pins) : (upPins s f).cycle = s.cycle := rfl
@[simp] theorem upPins_free (s : State) (f : Pins → Pins) : (upPins s f).free = s.free := rfl

/-! ### upPorts -/

@[simp] theorem upPorts_pending (s : State) (f : PortsRec → PortsRec) : (upPorts s f).pending = s.pending := rfl
@[simp] theorem upPorts_units (s : State) (f : PortsRec → PortsRec) : (upPorts s f).units = s.units := rfl
@[simp] theorem upPorts_rings (s : State) (f : PortsRec → PortsRec) : (upPorts s f).rings = s.rings := rfl
@[simp] theorem upPorts_routes (s : State) (f : PortsRec → PortsRec) : (upPorts s f).routes = s.routes := rfl
@[simp] theorem upPorts_jobs (s : State) (f : PortsRec → PortsRec) : (upPorts s f).jobs = s.jobs := rfl
@[simp] theorem upPorts_nextJob (s : State) (f : PortsRec → PortsRec) : (upPorts s f).nextJob = s.nextJob := rfl
@[simp] theorem upPorts_lanes (s : State) (f : PortsRec → PortsRec) : (upPorts s f).lanes = s.lanes := rfl
@[simp] theorem upPorts_muster (s : State) (f : PortsRec → PortsRec) : (upPorts s f).muster = s.muster := rfl
@[simp] theorem upPorts_serai (s : State) (f : PortsRec → PortsRec) : (upPorts s f).serai = s.serai := rfl
@[simp] theorem upPorts_mint (s : State) (f : PortsRec → PortsRec) : (upPorts s f).mint = s.mint := rfl
@[simp] theorem upPorts_house (s : State) (f : PortsRec → PortsRec) : (upPorts s f).house = s.house := rfl
@[simp] theorem upPorts_scales (s : State) (f : PortsRec → PortsRec) : (upPorts s f).scales = s.scales := rfl
@[simp] theorem upPorts_well (s : State) (f : PortsRec → PortsRec) : (upPorts s f).well = s.well := rfl
@[simp] theorem upPorts_tollgate (s : State) (f : PortsRec → PortsRec) : (upPorts s f).tollgate = s.tollgate := rfl
@[simp] theorem upPorts_porter (s : State) (f : PortsRec → PortsRec) : (upPorts s f).porter = s.porter := rfl
@[simp] theorem upPorts_relay (s : State) (f : PortsRec → PortsRec) : (upPorts s f).relay = s.relay := rfl
@[simp] theorem upPorts_almanac (s : State) (f : PortsRec → PortsRec) : (upPorts s f).almanac = s.almanac := rfl
@[simp] theorem upPorts_ledger (s : State) (f : PortsRec → PortsRec) : (upPorts s f).ledger = s.ledger := rfl
@[simp] theorem upPorts_ai (s : State) (f : PortsRec → PortsRec) : (upPorts s f).ai = s.ai := rfl
@[simp] theorem upPorts_ports (s : State) (f : PortsRec → PortsRec) : (upPorts s f).ports = f s.ports := rfl
@[simp] theorem upPorts_mode (s : State) (f : PortsRec → PortsRec) : (upPorts s f).mode = s.mode := rfl
@[simp] theorem upPorts_fuse (s : State) (f : PortsRec → PortsRec) : (upPorts s f).fuse = s.fuse := rfl
@[simp] theorem upPorts_safe (s : State) (f : PortsRec → PortsRec) : (upPorts s f).safe = s.safe := rfl
@[simp] theorem upPorts_watch (s : State) (f : PortsRec → PortsRec) : (upPorts s f).watch = s.watch := rfl
@[simp] theorem upPorts_ration (s : State) (f : PortsRec → PortsRec) : (upPorts s f).ration = s.ration := rfl
@[simp] theorem upPorts_pins (s : State) (f : PortsRec → PortsRec) : (upPorts s f).pins = s.pins := rfl
@[simp] theorem upPorts_cycle (s : State) (f : PortsRec → PortsRec) : (upPorts s f).cycle = s.cycle := rfl
@[simp] theorem upPorts_free (s : State) (f : PortsRec → PortsRec) : (upPorts s f).free = s.free := rfl

/-! ### What a control port's access leaves (R459, R460) -/

@[simp] theorem respond_pending (s : State) (p : CtlPort) (e : Bool) : (respond s p e).pending = s.pending := by cases p <;> rfl
@[simp] theorem respond_units (s : State) (p : CtlPort) (e : Bool) : (respond s p e).units = s.units := by cases p <;> rfl
@[simp] theorem respond_rings (s : State) (p : CtlPort) (e : Bool) : (respond s p e).rings = s.rings := by cases p <;> rfl
@[simp] theorem respond_routes (s : State) (p : CtlPort) (e : Bool) : (respond s p e).routes = s.routes := by cases p <;> rfl
@[simp] theorem respond_jobs (s : State) (p : CtlPort) (e : Bool) : (respond s p e).jobs = s.jobs := by cases p <;> rfl
@[simp] theorem respond_nextJob (s : State) (p : CtlPort) (e : Bool) : (respond s p e).nextJob = s.nextJob := by cases p <;> rfl
@[simp] theorem respond_lanes (s : State) (p : CtlPort) (e : Bool) : (respond s p e).lanes = s.lanes := by cases p <;> rfl
@[simp] theorem respond_muster (s : State) (p : CtlPort) (e : Bool) : (respond s p e).muster = s.muster := by cases p <;> rfl
@[simp] theorem respond_serai (s : State) (p : CtlPort) (e : Bool) : (respond s p e).serai = s.serai := by cases p <;> rfl
@[simp] theorem respond_mint (s : State) (p : CtlPort) (e : Bool) : (respond s p e).mint = s.mint := by cases p <;> rfl
@[simp] theorem respond_house (s : State) (p : CtlPort) (e : Bool) : (respond s p e).house = s.house := by cases p <;> rfl
@[simp] theorem respond_scales (s : State) (p : CtlPort) (e : Bool) : (respond s p e).scales = s.scales := by cases p <;> rfl
@[simp] theorem respond_well (s : State) (p : CtlPort) (e : Bool) : (respond s p e).well = s.well := by cases p <;> rfl
@[simp] theorem respond_tollgate (s : State) (p : CtlPort) (e : Bool) : (respond s p e).tollgate = s.tollgate := by cases p <;> rfl
@[simp] theorem respond_porter (s : State) (p : CtlPort) (e : Bool) : (respond s p e).porter = s.porter := by cases p <;> rfl
@[simp] theorem respond_relay (s : State) (p : CtlPort) (e : Bool) : (respond s p e).relay = s.relay := by cases p <;> rfl
@[simp] theorem respond_almanac (s : State) (p : CtlPort) (e : Bool) : (respond s p e).almanac = s.almanac := by cases p <;> rfl
@[simp] theorem respond_ledger (s : State) (p : CtlPort) (e : Bool) : (respond s p e).ledger = s.ledger := by cases p <;> rfl
@[simp] theorem respond_ai (s : State) (p : CtlPort) (e : Bool) : (respond s p e).ai = s.ai := by cases p <;> rfl
@[simp] theorem respond_mode (s : State) (p : CtlPort) (e : Bool) : (respond s p e).mode = s.mode := by cases p <;> rfl
@[simp] theorem respond_fuse (s : State) (p : CtlPort) (e : Bool) : (respond s p e).fuse = s.fuse := by cases p <;> rfl
@[simp] theorem respond_safe (s : State) (p : CtlPort) (e : Bool) : (respond s p e).safe = s.safe := by cases p <;> rfl
@[simp] theorem respond_watch (s : State) (p : CtlPort) (e : Bool) : (respond s p e).watch = s.watch := by cases p <;> rfl
@[simp] theorem respond_ration (s : State) (p : CtlPort) (e : Bool) : (respond s p e).ration = s.ration := by cases p <;> rfl
@[simp] theorem respond_pins (s : State) (p : CtlPort) (e : Bool) : (respond s p e).pins = s.pins := by cases p <;> rfl
@[simp] theorem respond_cycle (s : State) (p : CtlPort) (e : Bool) : (respond s p e).cycle = s.cycle := by cases p <;> rfl
@[simp] theorem respond_free (s : State) (p : CtlPort) (e : Bool) : (respond s p e).free = s.free := by cases p <;> rfl

@[simp] theorem noteSide_pending (s : State) (p : CtlPort) (o n : Nat) : (noteSide s p o n).pending = s.pending := by
  unfold noteSide; split <;> rfl
@[simp] theorem noteSide_units (s : State) (p : CtlPort) (o n : Nat) : (noteSide s p o n).units = s.units := by
  unfold noteSide; split <;> rfl
@[simp] theorem noteSide_rings (s : State) (p : CtlPort) (o n : Nat) : (noteSide s p o n).rings = s.rings := by
  unfold noteSide; split <;> rfl
@[simp] theorem noteSide_routes (s : State) (p : CtlPort) (o n : Nat) : (noteSide s p o n).routes = s.routes := by
  unfold noteSide; split <;> rfl
@[simp] theorem noteSide_jobs (s : State) (p : CtlPort) (o n : Nat) : (noteSide s p o n).jobs = s.jobs := by
  unfold noteSide; split <;> rfl
@[simp] theorem noteSide_nextJob (s : State) (p : CtlPort) (o n : Nat) : (noteSide s p o n).nextJob = s.nextJob := by
  unfold noteSide; split <;> rfl
@[simp] theorem noteSide_lanes (s : State) (p : CtlPort) (o n : Nat) : (noteSide s p o n).lanes = s.lanes := by
  unfold noteSide; split <;> rfl
@[simp] theorem noteSide_muster (s : State) (p : CtlPort) (o n : Nat) : (noteSide s p o n).muster = s.muster := by
  unfold noteSide; split <;> rfl
@[simp] theorem noteSide_serai (s : State) (p : CtlPort) (o n : Nat) : (noteSide s p o n).serai = s.serai := by
  unfold noteSide; split <;> rfl
@[simp] theorem noteSide_mint (s : State) (p : CtlPort) (o n : Nat) : (noteSide s p o n).mint = s.mint := by
  unfold noteSide; split <;> rfl
@[simp] theorem noteSide_house (s : State) (p : CtlPort) (o n : Nat) : (noteSide s p o n).house = s.house := by
  unfold noteSide; split <;> rfl
@[simp] theorem noteSide_scales (s : State) (p : CtlPort) (o n : Nat) : (noteSide s p o n).scales = s.scales := by
  unfold noteSide; split <;> rfl
@[simp] theorem noteSide_well (s : State) (p : CtlPort) (o n : Nat) : (noteSide s p o n).well = s.well := by
  unfold noteSide; split <;> rfl
@[simp] theorem noteSide_tollgate (s : State) (p : CtlPort) (o n : Nat) : (noteSide s p o n).tollgate = s.tollgate := by
  unfold noteSide; split <;> rfl
@[simp] theorem noteSide_porter (s : State) (p : CtlPort) (o n : Nat) : (noteSide s p o n).porter = s.porter := by
  unfold noteSide; split <;> rfl
@[simp] theorem noteSide_relay (s : State) (p : CtlPort) (o n : Nat) : (noteSide s p o n).relay = s.relay := by
  unfold noteSide; split <;> rfl
@[simp] theorem noteSide_almanac (s : State) (p : CtlPort) (o n : Nat) : (noteSide s p o n).almanac = s.almanac := by
  unfold noteSide; split <;> rfl
@[simp] theorem noteSide_ledger (s : State) (p : CtlPort) (o n : Nat) : (noteSide s p o n).ledger = s.ledger := by
  unfold noteSide; split <;> rfl
@[simp] theorem noteSide_ai (s : State) (p : CtlPort) (o n : Nat) : (noteSide s p o n).ai = s.ai := by
  unfold noteSide; split <;> rfl
@[simp] theorem noteSide_mode (s : State) (p : CtlPort) (o n : Nat) : (noteSide s p o n).mode = s.mode := by
  unfold noteSide; split <;> rfl
@[simp] theorem noteSide_fuse (s : State) (p : CtlPort) (o n : Nat) : (noteSide s p o n).fuse = s.fuse := by
  unfold noteSide; split <;> rfl
@[simp] theorem noteSide_safe (s : State) (p : CtlPort) (o n : Nat) : (noteSide s p o n).safe = s.safe := by
  unfold noteSide; split <;> rfl
@[simp] theorem noteSide_watch (s : State) (p : CtlPort) (o n : Nat) : (noteSide s p o n).watch = s.watch := by
  unfold noteSide; split <;> rfl
@[simp] theorem noteSide_ration (s : State) (p : CtlPort) (o n : Nat) : (noteSide s p o n).ration = s.ration := by
  unfold noteSide; split <;> rfl
@[simp] theorem noteSide_pins (s : State) (p : CtlPort) (o n : Nat) : (noteSide s p o n).pins = s.pins := by
  unfold noteSide; split <;> rfl
@[simp] theorem noteSide_cycle (s : State) (p : CtlPort) (o n : Nat) : (noteSide s p o n).cycle = s.cycle := by
  unfold noteSide; split <;> rfl
@[simp] theorem noteSide_free (s : State) (p : CtlPort) (o n : Nat) : (noteSide s p o n).free = s.free := by
  unfold noteSide; split <;> rfl

/-- The host port notes nothing. -/
@[simp] theorem noteSide_host (s : State) (o n : Nat) : noteSide s .host o n = s := by simp [noteSide]

@[simp] theorem inMode_respond (s : State) (p : CtlPort) (e : Bool) (m : Mode) : inMode (respond s p e) m = inMode s m := by simp [inMode]
@[simp] theorem inMode_noteSide (s : State) (p : CtlPort) (o n : Nat) (m : Mode) : inMode (noteSide s p o n) m = inMode s m := by simp [inMode]

/-- A write that the port serves, and that the sideband port's write of the same cycle does not meet, acts. -/
theorem portWrite_acts {s : State} {p : CtlPort} {off n : Nat} {b : State → State} {act : State → Host.Outcome State Fault Refusal}
    (h : served s = true) (m : sideMeets s p off n = false) : portWrite s p off n b act = act (noteSide (respond s p false) p off n) := by
  have t : portThere s = true := by simp [served, portThere] at h ⊢; exact ⟨h.1.2, h.2⟩
  simp [portWrite, h, m, t]

/-- A write that the port does not serve has an error response and no other effect. -/
theorem portWrite_unserved {s : State} {p : CtlPort} {off n : Nat} {b : State → State} {act : State → Host.Outcome State Fault Refusal}
    (t : portThere s = true) (h : served s = false) : portWrite s p off n b act = .next (respond s p true) := by simp [portWrite, h, t]

/-! ### drewFree -/

@[simp] theorem drewFree_pending (s : State) (n : Nat) : (drewFree s n).pending = s.pending := rfl
@[simp] theorem drewFree_units (s : State) (n : Nat) : (drewFree s n).units = s.units := rfl
@[simp] theorem drewFree_rings (s : State) (n : Nat) : (drewFree s n).rings = s.rings := rfl
@[simp] theorem drewFree_routes (s : State) (n : Nat) : (drewFree s n).routes = s.routes := rfl
@[simp] theorem drewFree_jobs (s : State) (n : Nat) : (drewFree s n).jobs = s.jobs := rfl
@[simp] theorem drewFree_nextJob (s : State) (n : Nat) : (drewFree s n).nextJob = s.nextJob := rfl
@[simp] theorem drewFree_lanes (s : State) (n : Nat) : (drewFree s n).lanes = s.lanes := rfl
@[simp] theorem drewFree_muster (s : State) (n : Nat) : (drewFree s n).muster = s.muster := rfl
@[simp] theorem drewFree_serai (s : State) (n : Nat) : (drewFree s n).serai = s.serai := rfl
@[simp] theorem drewFree_mint (s : State) (n : Nat) : (drewFree s n).mint = s.mint := rfl
@[simp] theorem drewFree_house (s : State) (n : Nat) : (drewFree s n).house = s.house := rfl
@[simp] theorem drewFree_scales (s : State) (n : Nat) : (drewFree s n).scales = s.scales := rfl
@[simp] theorem drewFree_well (s : State) (n : Nat) : (drewFree s n).well = s.well := rfl
@[simp] theorem drewFree_tollgate (s : State) (n : Nat) : (drewFree s n).tollgate = s.tollgate := rfl
@[simp] theorem drewFree_porter (s : State) (n : Nat) : (drewFree s n).porter = s.porter := rfl
@[simp] theorem drewFree_relay (s : State) (n : Nat) : (drewFree s n).relay = s.relay := rfl
@[simp] theorem drewFree_almanac (s : State) (n : Nat) : (drewFree s n).almanac = s.almanac := rfl
@[simp] theorem drewFree_ledger (s : State) (n : Nat) : (drewFree s n).ledger = s.ledger := rfl
@[simp] theorem drewFree_ai (s : State) (n : Nat) : (drewFree s n).ai = s.ai := rfl
@[simp] theorem drewFree_ports (s : State) (n : Nat) : (drewFree s n).ports = s.ports := rfl
@[simp] theorem drewFree_mode (s : State) (n : Nat) : (drewFree s n).mode = s.mode := rfl
@[simp] theorem drewFree_fuse (s : State) (n : Nat) : (drewFree s n).fuse = s.fuse := rfl
@[simp] theorem drewFree_safe (s : State) (n : Nat) : (drewFree s n).safe = s.safe := rfl
@[simp] theorem drewFree_watch (s : State) (n : Nat) : (drewFree s n).watch = s.watch := rfl
@[simp] theorem drewFree_ration (s : State) (n : Nat) : (drewFree s n).ration = s.ration := rfl
@[simp] theorem drewFree_pins (s : State) (n : Nat) : (drewFree s n).pins = s.pins := rfl
@[simp] theorem drewFree_cycle (s : State) (n : Nat) : (drewFree s n).cycle = s.cycle := rfl
@[simp] theorem drewFree_free (s : State) (n : Nat) : (drewFree s n).free = s.free + n := rfl

/-! ### modUnit -/

@[simp] theorem modUnit_pending (s : State) (k : Nat) (f : UnitRec → UnitRec) : (modUnit s k f).pending = s.pending := rfl
@[simp] theorem modUnit_units (s : State) (k : Nat) (f : UnitRec → UnitRec) : (modUnit s k f).units = tmod {} s.units k f := rfl
@[simp] theorem modUnit_rings (s : State) (k : Nat) (f : UnitRec → UnitRec) : (modUnit s k f).rings = s.rings := rfl
@[simp] theorem modUnit_routes (s : State) (k : Nat) (f : UnitRec → UnitRec) : (modUnit s k f).routes = s.routes := rfl
@[simp] theorem modUnit_jobs (s : State) (k : Nat) (f : UnitRec → UnitRec) : (modUnit s k f).jobs = s.jobs := rfl
@[simp] theorem modUnit_nextJob (s : State) (k : Nat) (f : UnitRec → UnitRec) : (modUnit s k f).nextJob = s.nextJob := rfl
@[simp] theorem modUnit_lanes (s : State) (k : Nat) (f : UnitRec → UnitRec) : (modUnit s k f).lanes = s.lanes := rfl
@[simp] theorem modUnit_muster (s : State) (k : Nat) (f : UnitRec → UnitRec) : (modUnit s k f).muster = s.muster := rfl
@[simp] theorem modUnit_serai (s : State) (k : Nat) (f : UnitRec → UnitRec) : (modUnit s k f).serai = s.serai := rfl
@[simp] theorem modUnit_mint (s : State) (k : Nat) (f : UnitRec → UnitRec) : (modUnit s k f).mint = s.mint := rfl
@[simp] theorem modUnit_house (s : State) (k : Nat) (f : UnitRec → UnitRec) : (modUnit s k f).house = s.house := rfl
@[simp] theorem modUnit_scales (s : State) (k : Nat) (f : UnitRec → UnitRec) : (modUnit s k f).scales = s.scales := rfl
@[simp] theorem modUnit_well (s : State) (k : Nat) (f : UnitRec → UnitRec) : (modUnit s k f).well = s.well := rfl
@[simp] theorem modUnit_tollgate (s : State) (k : Nat) (f : UnitRec → UnitRec) : (modUnit s k f).tollgate = s.tollgate := rfl
@[simp] theorem modUnit_porter (s : State) (k : Nat) (f : UnitRec → UnitRec) : (modUnit s k f).porter = s.porter := rfl
@[simp] theorem modUnit_relay (s : State) (k : Nat) (f : UnitRec → UnitRec) : (modUnit s k f).relay = s.relay := rfl
@[simp] theorem modUnit_almanac (s : State) (k : Nat) (f : UnitRec → UnitRec) : (modUnit s k f).almanac = s.almanac := rfl
@[simp] theorem modUnit_ledger (s : State) (k : Nat) (f : UnitRec → UnitRec) : (modUnit s k f).ledger = s.ledger := rfl
@[simp] theorem modUnit_ai (s : State) (k : Nat) (f : UnitRec → UnitRec) : (modUnit s k f).ai = s.ai := rfl
@[simp] theorem modUnit_ports (s : State) (k : Nat) (f : UnitRec → UnitRec) : (modUnit s k f).ports = s.ports := rfl
@[simp] theorem modUnit_mode (s : State) (k : Nat) (f : UnitRec → UnitRec) : (modUnit s k f).mode = s.mode := rfl
@[simp] theorem modUnit_fuse (s : State) (k : Nat) (f : UnitRec → UnitRec) : (modUnit s k f).fuse = s.fuse := rfl
@[simp] theorem modUnit_safe (s : State) (k : Nat) (f : UnitRec → UnitRec) : (modUnit s k f).safe = s.safe := rfl
@[simp] theorem modUnit_watch (s : State) (k : Nat) (f : UnitRec → UnitRec) : (modUnit s k f).watch = s.watch := rfl
@[simp] theorem modUnit_ration (s : State) (k : Nat) (f : UnitRec → UnitRec) : (modUnit s k f).ration = s.ration := rfl
@[simp] theorem modUnit_pins (s : State) (k : Nat) (f : UnitRec → UnitRec) : (modUnit s k f).pins = s.pins := rfl
@[simp] theorem modUnit_cycle (s : State) (k : Nat) (f : UnitRec → UnitRec) : (modUnit s k f).cycle = s.cycle := rfl
@[simp] theorem modUnit_free (s : State) (k : Nat) (f : UnitRec → UnitRec) : (modUnit s k f).free = s.free := rfl

/-- A read of the element that was changed. -/
@[simp] theorem getUnit_modUnit_same (s : State) (k : Nat) (f : UnitRec → UnitRec) : getUnit (modUnit s k f) k = f (getUnit s k) := by simp [getUnit]

/-- A read of another element. -/
theorem getUnit_modUnit_other (s : State) {k m : Nat} (f : UnitRec → UnitRec) (h : m ≠ k) : getUnit (modUnit s k f) m = getUnit s m := by
  simp [getUnit, tget_tmod_other _ _ _ h]

/-! ### modRing -/

@[simp] theorem modRing_pending (s : State) (k : Nat) (f : RingRec → RingRec) : (modRing s k f).pending = s.pending := rfl
@[simp] theorem modRing_units (s : State) (k : Nat) (f : RingRec → RingRec) : (modRing s k f).units = s.units := rfl
@[simp] theorem modRing_rings (s : State) (k : Nat) (f : RingRec → RingRec) : (modRing s k f).rings = tmod {} s.rings k f := rfl
@[simp] theorem modRing_routes (s : State) (k : Nat) (f : RingRec → RingRec) : (modRing s k f).routes = s.routes := rfl
@[simp] theorem modRing_jobs (s : State) (k : Nat) (f : RingRec → RingRec) : (modRing s k f).jobs = s.jobs := rfl
@[simp] theorem modRing_nextJob (s : State) (k : Nat) (f : RingRec → RingRec) : (modRing s k f).nextJob = s.nextJob := rfl
@[simp] theorem modRing_lanes (s : State) (k : Nat) (f : RingRec → RingRec) : (modRing s k f).lanes = s.lanes := rfl
@[simp] theorem modRing_muster (s : State) (k : Nat) (f : RingRec → RingRec) : (modRing s k f).muster = s.muster := rfl
@[simp] theorem modRing_serai (s : State) (k : Nat) (f : RingRec → RingRec) : (modRing s k f).serai = s.serai := rfl
@[simp] theorem modRing_mint (s : State) (k : Nat) (f : RingRec → RingRec) : (modRing s k f).mint = s.mint := rfl
@[simp] theorem modRing_house (s : State) (k : Nat) (f : RingRec → RingRec) : (modRing s k f).house = s.house := rfl
@[simp] theorem modRing_scales (s : State) (k : Nat) (f : RingRec → RingRec) : (modRing s k f).scales = s.scales := rfl
@[simp] theorem modRing_well (s : State) (k : Nat) (f : RingRec → RingRec) : (modRing s k f).well = s.well := rfl
@[simp] theorem modRing_tollgate (s : State) (k : Nat) (f : RingRec → RingRec) : (modRing s k f).tollgate = s.tollgate := rfl
@[simp] theorem modRing_porter (s : State) (k : Nat) (f : RingRec → RingRec) : (modRing s k f).porter = s.porter := rfl
@[simp] theorem modRing_relay (s : State) (k : Nat) (f : RingRec → RingRec) : (modRing s k f).relay = s.relay := rfl
@[simp] theorem modRing_almanac (s : State) (k : Nat) (f : RingRec → RingRec) : (modRing s k f).almanac = s.almanac := rfl
@[simp] theorem modRing_ledger (s : State) (k : Nat) (f : RingRec → RingRec) : (modRing s k f).ledger = s.ledger := rfl
@[simp] theorem modRing_ai (s : State) (k : Nat) (f : RingRec → RingRec) : (modRing s k f).ai = s.ai := rfl
@[simp] theorem modRing_ports (s : State) (k : Nat) (f : RingRec → RingRec) : (modRing s k f).ports = s.ports := rfl
@[simp] theorem modRing_mode (s : State) (k : Nat) (f : RingRec → RingRec) : (modRing s k f).mode = s.mode := rfl
@[simp] theorem modRing_fuse (s : State) (k : Nat) (f : RingRec → RingRec) : (modRing s k f).fuse = s.fuse := rfl
@[simp] theorem modRing_safe (s : State) (k : Nat) (f : RingRec → RingRec) : (modRing s k f).safe = s.safe := rfl
@[simp] theorem modRing_watch (s : State) (k : Nat) (f : RingRec → RingRec) : (modRing s k f).watch = s.watch := rfl
@[simp] theorem modRing_ration (s : State) (k : Nat) (f : RingRec → RingRec) : (modRing s k f).ration = s.ration := rfl
@[simp] theorem modRing_pins (s : State) (k : Nat) (f : RingRec → RingRec) : (modRing s k f).pins = s.pins := rfl
@[simp] theorem modRing_cycle (s : State) (k : Nat) (f : RingRec → RingRec) : (modRing s k f).cycle = s.cycle := rfl
@[simp] theorem modRing_free (s : State) (k : Nat) (f : RingRec → RingRec) : (modRing s k f).free = s.free := rfl

/-- A read of the element that was changed. -/
@[simp] theorem getRing_modRing_same (s : State) (k : Nat) (f : RingRec → RingRec) : getRing (modRing s k f) k = f (getRing s k) := by simp [getRing]

/-- A read of another element. -/
theorem getRing_modRing_other (s : State) {k m : Nat} (f : RingRec → RingRec) (h : m ≠ k) : getRing (modRing s k f) m = getRing s m := by
  simp [getRing, tget_tmod_other _ _ _ h]

/-! ### modJob -/

@[simp] theorem modJob_pending (s : State) (k : Nat) (f : Job → Job) : (modJob s k f).pending = s.pending := rfl
@[simp] theorem modJob_units (s : State) (k : Nat) (f : Job → Job) : (modJob s k f).units = s.units := rfl
@[simp] theorem modJob_rings (s : State) (k : Nat) (f : Job → Job) : (modJob s k f).rings = s.rings := rfl
@[simp] theorem modJob_routes (s : State) (k : Nat) (f : Job → Job) : (modJob s k f).routes = s.routes := rfl
@[simp] theorem modJob_jobs (s : State) (k : Nat) (f : Job → Job) : (modJob s k f).jobs = tmod {} s.jobs k f := rfl
@[simp] theorem modJob_nextJob (s : State) (k : Nat) (f : Job → Job) : (modJob s k f).nextJob = s.nextJob := rfl
@[simp] theorem modJob_lanes (s : State) (k : Nat) (f : Job → Job) : (modJob s k f).lanes = s.lanes := rfl
@[simp] theorem modJob_muster (s : State) (k : Nat) (f : Job → Job) : (modJob s k f).muster = s.muster := rfl
@[simp] theorem modJob_serai (s : State) (k : Nat) (f : Job → Job) : (modJob s k f).serai = s.serai := rfl
@[simp] theorem modJob_mint (s : State) (k : Nat) (f : Job → Job) : (modJob s k f).mint = s.mint := rfl
@[simp] theorem modJob_house (s : State) (k : Nat) (f : Job → Job) : (modJob s k f).house = s.house := rfl
@[simp] theorem modJob_scales (s : State) (k : Nat) (f : Job → Job) : (modJob s k f).scales = s.scales := rfl
@[simp] theorem modJob_well (s : State) (k : Nat) (f : Job → Job) : (modJob s k f).well = s.well := rfl
@[simp] theorem modJob_tollgate (s : State) (k : Nat) (f : Job → Job) : (modJob s k f).tollgate = s.tollgate := rfl
@[simp] theorem modJob_porter (s : State) (k : Nat) (f : Job → Job) : (modJob s k f).porter = s.porter := rfl
@[simp] theorem modJob_relay (s : State) (k : Nat) (f : Job → Job) : (modJob s k f).relay = s.relay := rfl
@[simp] theorem modJob_almanac (s : State) (k : Nat) (f : Job → Job) : (modJob s k f).almanac = s.almanac := rfl
@[simp] theorem modJob_ledger (s : State) (k : Nat) (f : Job → Job) : (modJob s k f).ledger = s.ledger := rfl
@[simp] theorem modJob_ai (s : State) (k : Nat) (f : Job → Job) : (modJob s k f).ai = s.ai := rfl
@[simp] theorem modJob_ports (s : State) (k : Nat) (f : Job → Job) : (modJob s k f).ports = s.ports := rfl
@[simp] theorem modJob_mode (s : State) (k : Nat) (f : Job → Job) : (modJob s k f).mode = s.mode := rfl
@[simp] theorem modJob_fuse (s : State) (k : Nat) (f : Job → Job) : (modJob s k f).fuse = s.fuse := rfl
@[simp] theorem modJob_safe (s : State) (k : Nat) (f : Job → Job) : (modJob s k f).safe = s.safe := rfl
@[simp] theorem modJob_watch (s : State) (k : Nat) (f : Job → Job) : (modJob s k f).watch = s.watch := rfl
@[simp] theorem modJob_ration (s : State) (k : Nat) (f : Job → Job) : (modJob s k f).ration = s.ration := rfl
@[simp] theorem modJob_pins (s : State) (k : Nat) (f : Job → Job) : (modJob s k f).pins = s.pins := rfl
@[simp] theorem modJob_cycle (s : State) (k : Nat) (f : Job → Job) : (modJob s k f).cycle = s.cycle := rfl
@[simp] theorem modJob_free (s : State) (k : Nat) (f : Job → Job) : (modJob s k f).free = s.free := rfl

/-- A read of the element that was changed. -/
@[simp] theorem getJob_modJob_same (s : State) (k : Nat) (f : Job → Job) : getJob (modJob s k f) k = f (getJob s k) := by simp [getJob]

/-- A read of another element. -/
theorem getJob_modJob_other (s : State) {k m : Nat} (f : Job → Job) (h : m ≠ k) : getJob (modJob s k f) m = getJob s m := by
  simp [getJob, tget_tmod_other _ _ _ h]

/-! ### modLane -/

@[simp] theorem modLane_pending (s : State) (k : Nat) (f : LaneRec → LaneRec) : (modLane s k f).pending = s.pending := rfl
@[simp] theorem modLane_units (s : State) (k : Nat) (f : LaneRec → LaneRec) : (modLane s k f).units = s.units := rfl
@[simp] theorem modLane_rings (s : State) (k : Nat) (f : LaneRec → LaneRec) : (modLane s k f).rings = s.rings := rfl
@[simp] theorem modLane_routes (s : State) (k : Nat) (f : LaneRec → LaneRec) : (modLane s k f).routes = s.routes := rfl
@[simp] theorem modLane_jobs (s : State) (k : Nat) (f : LaneRec → LaneRec) : (modLane s k f).jobs = s.jobs := rfl
@[simp] theorem modLane_nextJob (s : State) (k : Nat) (f : LaneRec → LaneRec) : (modLane s k f).nextJob = s.nextJob := rfl
@[simp] theorem modLane_lanes (s : State) (k : Nat) (f : LaneRec → LaneRec) : (modLane s k f).lanes = tmod {} s.lanes k f := rfl
@[simp] theorem modLane_muster (s : State) (k : Nat) (f : LaneRec → LaneRec) : (modLane s k f).muster = s.muster := rfl
@[simp] theorem modLane_serai (s : State) (k : Nat) (f : LaneRec → LaneRec) : (modLane s k f).serai = s.serai := rfl
@[simp] theorem modLane_mint (s : State) (k : Nat) (f : LaneRec → LaneRec) : (modLane s k f).mint = s.mint := rfl
@[simp] theorem modLane_house (s : State) (k : Nat) (f : LaneRec → LaneRec) : (modLane s k f).house = s.house := rfl
@[simp] theorem modLane_scales (s : State) (k : Nat) (f : LaneRec → LaneRec) : (modLane s k f).scales = s.scales := rfl
@[simp] theorem modLane_well (s : State) (k : Nat) (f : LaneRec → LaneRec) : (modLane s k f).well = s.well := rfl
@[simp] theorem modLane_tollgate (s : State) (k : Nat) (f : LaneRec → LaneRec) : (modLane s k f).tollgate = s.tollgate := rfl
@[simp] theorem modLane_porter (s : State) (k : Nat) (f : LaneRec → LaneRec) : (modLane s k f).porter = s.porter := rfl
@[simp] theorem modLane_relay (s : State) (k : Nat) (f : LaneRec → LaneRec) : (modLane s k f).relay = s.relay := rfl
@[simp] theorem modLane_almanac (s : State) (k : Nat) (f : LaneRec → LaneRec) : (modLane s k f).almanac = s.almanac := rfl
@[simp] theorem modLane_ledger (s : State) (k : Nat) (f : LaneRec → LaneRec) : (modLane s k f).ledger = s.ledger := rfl
@[simp] theorem modLane_ai (s : State) (k : Nat) (f : LaneRec → LaneRec) : (modLane s k f).ai = s.ai := rfl
@[simp] theorem modLane_ports (s : State) (k : Nat) (f : LaneRec → LaneRec) : (modLane s k f).ports = s.ports := rfl
@[simp] theorem modLane_mode (s : State) (k : Nat) (f : LaneRec → LaneRec) : (modLane s k f).mode = s.mode := rfl
@[simp] theorem modLane_fuse (s : State) (k : Nat) (f : LaneRec → LaneRec) : (modLane s k f).fuse = s.fuse := rfl
@[simp] theorem modLane_safe (s : State) (k : Nat) (f : LaneRec → LaneRec) : (modLane s k f).safe = s.safe := rfl
@[simp] theorem modLane_watch (s : State) (k : Nat) (f : LaneRec → LaneRec) : (modLane s k f).watch = s.watch := rfl
@[simp] theorem modLane_ration (s : State) (k : Nat) (f : LaneRec → LaneRec) : (modLane s k f).ration = s.ration := rfl
@[simp] theorem modLane_pins (s : State) (k : Nat) (f : LaneRec → LaneRec) : (modLane s k f).pins = s.pins := rfl
@[simp] theorem modLane_cycle (s : State) (k : Nat) (f : LaneRec → LaneRec) : (modLane s k f).cycle = s.cycle := rfl
@[simp] theorem modLane_free (s : State) (k : Nat) (f : LaneRec → LaneRec) : (modLane s k f).free = s.free := rfl

/-- A read of the element that was changed. -/
@[simp] theorem getLane_modLane_same (s : State) (k : Nat) (f : LaneRec → LaneRec) : getLane (modLane s k f) k = f (getLane s k) := by simp [getLane]

/-- A read of another element. -/
theorem getLane_modLane_other (s : State) {k m : Nat} (f : LaneRec → LaneRec) (h : m ≠ k) : getLane (modLane s k f) m = getLane s m := by
  simp [getLane, tget_tmod_other _ _ _ h]

/-! ### modSlot -/

@[simp] theorem modSlot_pending (s : State) (k : Nat) (f : SlotRec → SlotRec) : (modSlot s k f).pending = s.pending := rfl
@[simp] theorem modSlot_units (s : State) (k : Nat) (f : SlotRec → SlotRec) : (modSlot s k f).units = s.units := rfl
@[simp] theorem modSlot_rings (s : State) (k : Nat) (f : SlotRec → SlotRec) : (modSlot s k f).rings = s.rings := rfl
@[simp] theorem modSlot_routes (s : State) (k : Nat) (f : SlotRec → SlotRec) : (modSlot s k f).routes = s.routes := rfl
@[simp] theorem modSlot_jobs (s : State) (k : Nat) (f : SlotRec → SlotRec) : (modSlot s k f).jobs = s.jobs := rfl
@[simp] theorem modSlot_nextJob (s : State) (k : Nat) (f : SlotRec → SlotRec) : (modSlot s k f).nextJob = s.nextJob := rfl
@[simp] theorem modSlot_lanes (s : State) (k : Nat) (f : SlotRec → SlotRec) : (modSlot s k f).lanes = s.lanes := rfl
@[simp] theorem modSlot_muster (s : State) (k : Nat) (f : SlotRec → SlotRec) : (modSlot s k f).muster = s.muster := rfl
@[simp] theorem modSlot_serai (s : State) (k : Nat) (f : SlotRec → SlotRec) : (modSlot s k f).serai = { s.serai with slots := tmod {} s.serai.slots k f } := rfl
@[simp] theorem modSlot_mint (s : State) (k : Nat) (f : SlotRec → SlotRec) : (modSlot s k f).mint = s.mint := rfl
@[simp] theorem modSlot_house (s : State) (k : Nat) (f : SlotRec → SlotRec) : (modSlot s k f).house = s.house := rfl
@[simp] theorem modSlot_scales (s : State) (k : Nat) (f : SlotRec → SlotRec) : (modSlot s k f).scales = s.scales := rfl
@[simp] theorem modSlot_well (s : State) (k : Nat) (f : SlotRec → SlotRec) : (modSlot s k f).well = s.well := rfl
@[simp] theorem modSlot_tollgate (s : State) (k : Nat) (f : SlotRec → SlotRec) : (modSlot s k f).tollgate = s.tollgate := rfl
@[simp] theorem modSlot_porter (s : State) (k : Nat) (f : SlotRec → SlotRec) : (modSlot s k f).porter = s.porter := rfl
@[simp] theorem modSlot_relay (s : State) (k : Nat) (f : SlotRec → SlotRec) : (modSlot s k f).relay = s.relay := rfl
@[simp] theorem modSlot_almanac (s : State) (k : Nat) (f : SlotRec → SlotRec) : (modSlot s k f).almanac = s.almanac := rfl
@[simp] theorem modSlot_ledger (s : State) (k : Nat) (f : SlotRec → SlotRec) : (modSlot s k f).ledger = s.ledger := rfl
@[simp] theorem modSlot_ai (s : State) (k : Nat) (f : SlotRec → SlotRec) : (modSlot s k f).ai = s.ai := rfl
@[simp] theorem modSlot_ports (s : State) (k : Nat) (f : SlotRec → SlotRec) : (modSlot s k f).ports = s.ports := rfl
@[simp] theorem modSlot_mode (s : State) (k : Nat) (f : SlotRec → SlotRec) : (modSlot s k f).mode = s.mode := rfl
@[simp] theorem modSlot_fuse (s : State) (k : Nat) (f : SlotRec → SlotRec) : (modSlot s k f).fuse = s.fuse := rfl
@[simp] theorem modSlot_safe (s : State) (k : Nat) (f : SlotRec → SlotRec) : (modSlot s k f).safe = s.safe := rfl
@[simp] theorem modSlot_watch (s : State) (k : Nat) (f : SlotRec → SlotRec) : (modSlot s k f).watch = s.watch := rfl
@[simp] theorem modSlot_ration (s : State) (k : Nat) (f : SlotRec → SlotRec) : (modSlot s k f).ration = s.ration := rfl
@[simp] theorem modSlot_pins (s : State) (k : Nat) (f : SlotRec → SlotRec) : (modSlot s k f).pins = s.pins := rfl
@[simp] theorem modSlot_cycle (s : State) (k : Nat) (f : SlotRec → SlotRec) : (modSlot s k f).cycle = s.cycle := rfl
@[simp] theorem modSlot_free (s : State) (k : Nat) (f : SlotRec → SlotRec) : (modSlot s k f).free = s.free := rfl

/-- A read of the element that was changed. -/
@[simp] theorem getSlot_modSlot_same (s : State) (k : Nat) (f : SlotRec → SlotRec) : getSlot (modSlot s k f) k = f (getSlot s k) := by simp [getSlot]

/-- A read of another element. -/
theorem getSlot_modSlot_other (s : State) {k m : Nat} (f : SlotRec → SlotRec) (h : m ≠ k) : getSlot (modSlot s k f) m = getSlot s m := by
  simp [getSlot, tget_tmod_other _ _ _ h]

/-! ### modFill -/

@[simp] theorem modFill_pending (s : State) (k : Nat) (f : FillRec → FillRec) : (modFill s k f).pending = s.pending := rfl
@[simp] theorem modFill_units (s : State) (k : Nat) (f : FillRec → FillRec) : (modFill s k f).units = s.units := rfl
@[simp] theorem modFill_rings (s : State) (k : Nat) (f : FillRec → FillRec) : (modFill s k f).rings = s.rings := rfl
@[simp] theorem modFill_routes (s : State) (k : Nat) (f : FillRec → FillRec) : (modFill s k f).routes = s.routes := rfl
@[simp] theorem modFill_jobs (s : State) (k : Nat) (f : FillRec → FillRec) : (modFill s k f).jobs = s.jobs := rfl
@[simp] theorem modFill_nextJob (s : State) (k : Nat) (f : FillRec → FillRec) : (modFill s k f).nextJob = s.nextJob := rfl
@[simp] theorem modFill_lanes (s : State) (k : Nat) (f : FillRec → FillRec) : (modFill s k f).lanes = s.lanes := rfl
@[simp] theorem modFill_muster (s : State) (k : Nat) (f : FillRec → FillRec) : (modFill s k f).muster = s.muster := rfl
@[simp] theorem modFill_serai (s : State) (k : Nat) (f : FillRec → FillRec) : (modFill s k f).serai = s.serai := rfl
@[simp] theorem modFill_mint (s : State) (k : Nat) (f : FillRec → FillRec) : (modFill s k f).mint = { s.mint with fills := tmod {} s.mint.fills k f } := rfl
@[simp] theorem modFill_house (s : State) (k : Nat) (f : FillRec → FillRec) : (modFill s k f).house = s.house := rfl
@[simp] theorem modFill_scales (s : State) (k : Nat) (f : FillRec → FillRec) : (modFill s k f).scales = s.scales := rfl
@[simp] theorem modFill_well (s : State) (k : Nat) (f : FillRec → FillRec) : (modFill s k f).well = s.well := rfl
@[simp] theorem modFill_tollgate (s : State) (k : Nat) (f : FillRec → FillRec) : (modFill s k f).tollgate = s.tollgate := rfl
@[simp] theorem modFill_porter (s : State) (k : Nat) (f : FillRec → FillRec) : (modFill s k f).porter = s.porter := rfl
@[simp] theorem modFill_relay (s : State) (k : Nat) (f : FillRec → FillRec) : (modFill s k f).relay = s.relay := rfl
@[simp] theorem modFill_almanac (s : State) (k : Nat) (f : FillRec → FillRec) : (modFill s k f).almanac = s.almanac := rfl
@[simp] theorem modFill_ledger (s : State) (k : Nat) (f : FillRec → FillRec) : (modFill s k f).ledger = s.ledger := rfl
@[simp] theorem modFill_ai (s : State) (k : Nat) (f : FillRec → FillRec) : (modFill s k f).ai = s.ai := rfl
@[simp] theorem modFill_ports (s : State) (k : Nat) (f : FillRec → FillRec) : (modFill s k f).ports = s.ports := rfl
@[simp] theorem modFill_mode (s : State) (k : Nat) (f : FillRec → FillRec) : (modFill s k f).mode = s.mode := rfl
@[simp] theorem modFill_fuse (s : State) (k : Nat) (f : FillRec → FillRec) : (modFill s k f).fuse = s.fuse := rfl
@[simp] theorem modFill_safe (s : State) (k : Nat) (f : FillRec → FillRec) : (modFill s k f).safe = s.safe := rfl
@[simp] theorem modFill_watch (s : State) (k : Nat) (f : FillRec → FillRec) : (modFill s k f).watch = s.watch := rfl
@[simp] theorem modFill_ration (s : State) (k : Nat) (f : FillRec → FillRec) : (modFill s k f).ration = s.ration := rfl
@[simp] theorem modFill_pins (s : State) (k : Nat) (f : FillRec → FillRec) : (modFill s k f).pins = s.pins := rfl
@[simp] theorem modFill_cycle (s : State) (k : Nat) (f : FillRec → FillRec) : (modFill s k f).cycle = s.cycle := rfl
@[simp] theorem modFill_free (s : State) (k : Nat) (f : FillRec → FillRec) : (modFill s k f).free = s.free := rfl

/-- A read of the element that was changed. -/
@[simp] theorem getFill_modFill_same (s : State) (k : Nat) (f : FillRec → FillRec) : getFill (modFill s k f) k = f (getFill s k) := by simp [getFill]

/-- A read of another element. -/
theorem getFill_modFill_other (s : State) {k m : Nat} (f : FillRec → FillRec) (h : m ≠ k) : getFill (modFill s k f) m = getFill s m := by
  simp [getFill, tget_tmod_other _ _ _ h]

/-! ### modBench -/

@[simp] theorem modBench_pending (s : State) (k : Nat) (f : BenchRec → BenchRec) : (modBench s k f).pending = s.pending := rfl
@[simp] theorem modBench_units (s : State) (k : Nat) (f : BenchRec → BenchRec) : (modBench s k f).units = s.units := rfl
@[simp] theorem modBench_rings (s : State) (k : Nat) (f : BenchRec → BenchRec) : (modBench s k f).rings = s.rings := rfl
@[simp] theorem modBench_routes (s : State) (k : Nat) (f : BenchRec → BenchRec) : (modBench s k f).routes = s.routes := rfl
@[simp] theorem modBench_jobs (s : State) (k : Nat) (f : BenchRec → BenchRec) : (modBench s k f).jobs = s.jobs := rfl
@[simp] theorem modBench_nextJob (s : State) (k : Nat) (f : BenchRec → BenchRec) : (modBench s k f).nextJob = s.nextJob := rfl
@[simp] theorem modBench_lanes (s : State) (k : Nat) (f : BenchRec → BenchRec) : (modBench s k f).lanes = s.lanes := rfl
@[simp] theorem modBench_muster (s : State) (k : Nat) (f : BenchRec → BenchRec) : (modBench s k f).muster = s.muster := rfl
@[simp] theorem modBench_serai (s : State) (k : Nat) (f : BenchRec → BenchRec) : (modBench s k f).serai = s.serai := rfl
@[simp] theorem modBench_mint (s : State) (k : Nat) (f : BenchRec → BenchRec) : (modBench s k f).mint = s.mint := rfl
@[simp] theorem modBench_house (s : State) (k : Nat) (f : BenchRec → BenchRec) : (modBench s k f).house = { s.house with benches := tmod {} s.house.benches k f } := rfl
@[simp] theorem modBench_scales (s : State) (k : Nat) (f : BenchRec → BenchRec) : (modBench s k f).scales = s.scales := rfl
@[simp] theorem modBench_well (s : State) (k : Nat) (f : BenchRec → BenchRec) : (modBench s k f).well = s.well := rfl
@[simp] theorem modBench_tollgate (s : State) (k : Nat) (f : BenchRec → BenchRec) : (modBench s k f).tollgate = s.tollgate := rfl
@[simp] theorem modBench_porter (s : State) (k : Nat) (f : BenchRec → BenchRec) : (modBench s k f).porter = s.porter := rfl
@[simp] theorem modBench_relay (s : State) (k : Nat) (f : BenchRec → BenchRec) : (modBench s k f).relay = s.relay := rfl
@[simp] theorem modBench_almanac (s : State) (k : Nat) (f : BenchRec → BenchRec) : (modBench s k f).almanac = s.almanac := rfl
@[simp] theorem modBench_ledger (s : State) (k : Nat) (f : BenchRec → BenchRec) : (modBench s k f).ledger = s.ledger := rfl
@[simp] theorem modBench_ai (s : State) (k : Nat) (f : BenchRec → BenchRec) : (modBench s k f).ai = s.ai := rfl
@[simp] theorem modBench_ports (s : State) (k : Nat) (f : BenchRec → BenchRec) : (modBench s k f).ports = s.ports := rfl
@[simp] theorem modBench_mode (s : State) (k : Nat) (f : BenchRec → BenchRec) : (modBench s k f).mode = s.mode := rfl
@[simp] theorem modBench_fuse (s : State) (k : Nat) (f : BenchRec → BenchRec) : (modBench s k f).fuse = s.fuse := rfl
@[simp] theorem modBench_safe (s : State) (k : Nat) (f : BenchRec → BenchRec) : (modBench s k f).safe = s.safe := rfl
@[simp] theorem modBench_watch (s : State) (k : Nat) (f : BenchRec → BenchRec) : (modBench s k f).watch = s.watch := rfl
@[simp] theorem modBench_ration (s : State) (k : Nat) (f : BenchRec → BenchRec) : (modBench s k f).ration = s.ration := rfl
@[simp] theorem modBench_pins (s : State) (k : Nat) (f : BenchRec → BenchRec) : (modBench s k f).pins = s.pins := rfl
@[simp] theorem modBench_cycle (s : State) (k : Nat) (f : BenchRec → BenchRec) : (modBench s k f).cycle = s.cycle := rfl
@[simp] theorem modBench_free (s : State) (k : Nat) (f : BenchRec → BenchRec) : (modBench s k f).free = s.free := rfl

/-- A read of the element that was changed. -/
@[simp] theorem getBench_modBench_same (s : State) (k : Nat) (f : BenchRec → BenchRec) : getBench (modBench s k f) k = f (getBench s k) := by simp [getBench]

/-- A read of another element. -/
theorem getBench_modBench_other (s : State) {k m : Nat} (f : BenchRec → BenchRec) (h : m ≠ k) : getBench (modBench s k f) m = getBench s m := by
  simp [getBench, tget_tmod_other _ _ _ h]

/-! ### modCtx -/

@[simp] theorem modCtx_pending (s : State) (k : Nat) (f : CtxRec → CtxRec) : (modCtx s k f).pending = s.pending := rfl
@[simp] theorem modCtx_units (s : State) (k : Nat) (f : CtxRec → CtxRec) : (modCtx s k f).units = s.units := rfl
@[simp] theorem modCtx_rings (s : State) (k : Nat) (f : CtxRec → CtxRec) : (modCtx s k f).rings = s.rings := rfl
@[simp] theorem modCtx_routes (s : State) (k : Nat) (f : CtxRec → CtxRec) : (modCtx s k f).routes = s.routes := rfl
@[simp] theorem modCtx_jobs (s : State) (k : Nat) (f : CtxRec → CtxRec) : (modCtx s k f).jobs = s.jobs := rfl
@[simp] theorem modCtx_nextJob (s : State) (k : Nat) (f : CtxRec → CtxRec) : (modCtx s k f).nextJob = s.nextJob := rfl
@[simp] theorem modCtx_lanes (s : State) (k : Nat) (f : CtxRec → CtxRec) : (modCtx s k f).lanes = s.lanes := rfl
@[simp] theorem modCtx_muster (s : State) (k : Nat) (f : CtxRec → CtxRec) : (modCtx s k f).muster = s.muster := rfl
@[simp] theorem modCtx_serai (s : State) (k : Nat) (f : CtxRec → CtxRec) : (modCtx s k f).serai = s.serai := rfl
@[simp] theorem modCtx_mint (s : State) (k : Nat) (f : CtxRec → CtxRec) : (modCtx s k f).mint = s.mint := rfl
@[simp] theorem modCtx_house (s : State) (k : Nat) (f : CtxRec → CtxRec) : (modCtx s k f).house = s.house := rfl
@[simp] theorem modCtx_scales (s : State) (k : Nat) (f : CtxRec → CtxRec) : (modCtx s k f).scales = { s.scales with ctxs := tmod {} s.scales.ctxs k f } := rfl
@[simp] theorem modCtx_well (s : State) (k : Nat) (f : CtxRec → CtxRec) : (modCtx s k f).well = s.well := rfl
@[simp] theorem modCtx_tollgate (s : State) (k : Nat) (f : CtxRec → CtxRec) : (modCtx s k f).tollgate = s.tollgate := rfl
@[simp] theorem modCtx_porter (s : State) (k : Nat) (f : CtxRec → CtxRec) : (modCtx s k f).porter = s.porter := rfl
@[simp] theorem modCtx_relay (s : State) (k : Nat) (f : CtxRec → CtxRec) : (modCtx s k f).relay = s.relay := rfl
@[simp] theorem modCtx_almanac (s : State) (k : Nat) (f : CtxRec → CtxRec) : (modCtx s k f).almanac = s.almanac := rfl
@[simp] theorem modCtx_ledger (s : State) (k : Nat) (f : CtxRec → CtxRec) : (modCtx s k f).ledger = s.ledger := rfl
@[simp] theorem modCtx_ai (s : State) (k : Nat) (f : CtxRec → CtxRec) : (modCtx s k f).ai = s.ai := rfl
@[simp] theorem modCtx_ports (s : State) (k : Nat) (f : CtxRec → CtxRec) : (modCtx s k f).ports = s.ports := rfl
@[simp] theorem modCtx_mode (s : State) (k : Nat) (f : CtxRec → CtxRec) : (modCtx s k f).mode = s.mode := rfl
@[simp] theorem modCtx_fuse (s : State) (k : Nat) (f : CtxRec → CtxRec) : (modCtx s k f).fuse = s.fuse := rfl
@[simp] theorem modCtx_safe (s : State) (k : Nat) (f : CtxRec → CtxRec) : (modCtx s k f).safe = s.safe := rfl
@[simp] theorem modCtx_watch (s : State) (k : Nat) (f : CtxRec → CtxRec) : (modCtx s k f).watch = s.watch := rfl
@[simp] theorem modCtx_ration (s : State) (k : Nat) (f : CtxRec → CtxRec) : (modCtx s k f).ration = s.ration := rfl
@[simp] theorem modCtx_pins (s : State) (k : Nat) (f : CtxRec → CtxRec) : (modCtx s k f).pins = s.pins := rfl
@[simp] theorem modCtx_cycle (s : State) (k : Nat) (f : CtxRec → CtxRec) : (modCtx s k f).cycle = s.cycle := rfl
@[simp] theorem modCtx_free (s : State) (k : Nat) (f : CtxRec → CtxRec) : (modCtx s k f).free = s.free := rfl

/-- A read of the element that was changed. -/
@[simp] theorem getCtx_modCtx_same (s : State) (k : Nat) (f : CtxRec → CtxRec) : getCtx (modCtx s k f) k = f (getCtx s k) := by simp [getCtx]

/-- A read of another element. -/
theorem getCtx_modCtx_other (s : State) {k m : Nat} (f : CtxRec → CtxRec) (h : m ≠ k) : getCtx (modCtx s k f) m = getCtx s m := by
  simp [getCtx, tget_tmod_other _ _ _ h]

/-! ### modTg -/

@[simp] theorem modTg_pending (s : State) (k : Nat) (f : TgCtx → TgCtx) : (modTg s k f).pending = s.pending := rfl
@[simp] theorem modTg_units (s : State) (k : Nat) (f : TgCtx → TgCtx) : (modTg s k f).units = s.units := rfl
@[simp] theorem modTg_rings (s : State) (k : Nat) (f : TgCtx → TgCtx) : (modTg s k f).rings = s.rings := rfl
@[simp] theorem modTg_routes (s : State) (k : Nat) (f : TgCtx → TgCtx) : (modTg s k f).routes = s.routes := rfl
@[simp] theorem modTg_jobs (s : State) (k : Nat) (f : TgCtx → TgCtx) : (modTg s k f).jobs = s.jobs := rfl
@[simp] theorem modTg_nextJob (s : State) (k : Nat) (f : TgCtx → TgCtx) : (modTg s k f).nextJob = s.nextJob := rfl
@[simp] theorem modTg_lanes (s : State) (k : Nat) (f : TgCtx → TgCtx) : (modTg s k f).lanes = s.lanes := rfl
@[simp] theorem modTg_muster (s : State) (k : Nat) (f : TgCtx → TgCtx) : (modTg s k f).muster = s.muster := rfl
@[simp] theorem modTg_serai (s : State) (k : Nat) (f : TgCtx → TgCtx) : (modTg s k f).serai = s.serai := rfl
@[simp] theorem modTg_mint (s : State) (k : Nat) (f : TgCtx → TgCtx) : (modTg s k f).mint = s.mint := rfl
@[simp] theorem modTg_house (s : State) (k : Nat) (f : TgCtx → TgCtx) : (modTg s k f).house = s.house := rfl
@[simp] theorem modTg_scales (s : State) (k : Nat) (f : TgCtx → TgCtx) : (modTg s k f).scales = s.scales := rfl
@[simp] theorem modTg_well (s : State) (k : Nat) (f : TgCtx → TgCtx) : (modTg s k f).well = s.well := rfl
@[simp] theorem modTg_tollgate (s : State) (k : Nat) (f : TgCtx → TgCtx) : (modTg s k f).tollgate = { s.tollgate with ctxs := tmod {} s.tollgate.ctxs k f } := rfl
@[simp] theorem modTg_porter (s : State) (k : Nat) (f : TgCtx → TgCtx) : (modTg s k f).porter = s.porter := rfl
@[simp] theorem modTg_relay (s : State) (k : Nat) (f : TgCtx → TgCtx) : (modTg s k f).relay = s.relay := rfl
@[simp] theorem modTg_almanac (s : State) (k : Nat) (f : TgCtx → TgCtx) : (modTg s k f).almanac = s.almanac := rfl
@[simp] theorem modTg_ledger (s : State) (k : Nat) (f : TgCtx → TgCtx) : (modTg s k f).ledger = s.ledger := rfl
@[simp] theorem modTg_ai (s : State) (k : Nat) (f : TgCtx → TgCtx) : (modTg s k f).ai = s.ai := rfl
@[simp] theorem modTg_ports (s : State) (k : Nat) (f : TgCtx → TgCtx) : (modTg s k f).ports = s.ports := rfl
@[simp] theorem modTg_mode (s : State) (k : Nat) (f : TgCtx → TgCtx) : (modTg s k f).mode = s.mode := rfl
@[simp] theorem modTg_fuse (s : State) (k : Nat) (f : TgCtx → TgCtx) : (modTg s k f).fuse = s.fuse := rfl
@[simp] theorem modTg_safe (s : State) (k : Nat) (f : TgCtx → TgCtx) : (modTg s k f).safe = s.safe := rfl
@[simp] theorem modTg_watch (s : State) (k : Nat) (f : TgCtx → TgCtx) : (modTg s k f).watch = s.watch := rfl
@[simp] theorem modTg_ration (s : State) (k : Nat) (f : TgCtx → TgCtx) : (modTg s k f).ration = s.ration := rfl
@[simp] theorem modTg_pins (s : State) (k : Nat) (f : TgCtx → TgCtx) : (modTg s k f).pins = s.pins := rfl
@[simp] theorem modTg_cycle (s : State) (k : Nat) (f : TgCtx → TgCtx) : (modTg s k f).cycle = s.cycle := rfl
@[simp] theorem modTg_free (s : State) (k : Nat) (f : TgCtx → TgCtx) : (modTg s k f).free = s.free := rfl

/-- A read of the element that was changed. -/
@[simp] theorem getTg_modTg_same (s : State) (k : Nat) (f : TgCtx → TgCtx) : getTg (modTg s k f) k = f (getTg s k) := by simp [getTg]

/-- A read of another element. -/
theorem getTg_modTg_other (s : State) {k m : Nat} (f : TgCtx → TgCtx) (h : m ≠ k) : getTg (modTg s k f) m = getTg s m := by
  simp [getTg, tget_tmod_other _ _ _ h]

/-! ### modChan -/

@[simp] theorem modChan_pending (s : State) (k : Nat) (f : PtChan → PtChan) : (modChan s k f).pending = s.pending := rfl
@[simp] theorem modChan_units (s : State) (k : Nat) (f : PtChan → PtChan) : (modChan s k f).units = s.units := rfl
@[simp] theorem modChan_rings (s : State) (k : Nat) (f : PtChan → PtChan) : (modChan s k f).rings = s.rings := rfl
@[simp] theorem modChan_routes (s : State) (k : Nat) (f : PtChan → PtChan) : (modChan s k f).routes = s.routes := rfl
@[simp] theorem modChan_jobs (s : State) (k : Nat) (f : PtChan → PtChan) : (modChan s k f).jobs = s.jobs := rfl
@[simp] theorem modChan_nextJob (s : State) (k : Nat) (f : PtChan → PtChan) : (modChan s k f).nextJob = s.nextJob := rfl
@[simp] theorem modChan_lanes (s : State) (k : Nat) (f : PtChan → PtChan) : (modChan s k f).lanes = s.lanes := rfl
@[simp] theorem modChan_muster (s : State) (k : Nat) (f : PtChan → PtChan) : (modChan s k f).muster = s.muster := rfl
@[simp] theorem modChan_serai (s : State) (k : Nat) (f : PtChan → PtChan) : (modChan s k f).serai = s.serai := rfl
@[simp] theorem modChan_mint (s : State) (k : Nat) (f : PtChan → PtChan) : (modChan s k f).mint = s.mint := rfl
@[simp] theorem modChan_house (s : State) (k : Nat) (f : PtChan → PtChan) : (modChan s k f).house = s.house := rfl
@[simp] theorem modChan_scales (s : State) (k : Nat) (f : PtChan → PtChan) : (modChan s k f).scales = s.scales := rfl
@[simp] theorem modChan_well (s : State) (k : Nat) (f : PtChan → PtChan) : (modChan s k f).well = s.well := rfl
@[simp] theorem modChan_tollgate (s : State) (k : Nat) (f : PtChan → PtChan) : (modChan s k f).tollgate = s.tollgate := rfl
@[simp] theorem modChan_porter (s : State) (k : Nat) (f : PtChan → PtChan) : (modChan s k f).porter = { s.porter with chans := tmod {} s.porter.chans k f } := rfl
@[simp] theorem modChan_relay (s : State) (k : Nat) (f : PtChan → PtChan) : (modChan s k f).relay = s.relay := rfl
@[simp] theorem modChan_almanac (s : State) (k : Nat) (f : PtChan → PtChan) : (modChan s k f).almanac = s.almanac := rfl
@[simp] theorem modChan_ledger (s : State) (k : Nat) (f : PtChan → PtChan) : (modChan s k f).ledger = s.ledger := rfl
@[simp] theorem modChan_ai (s : State) (k : Nat) (f : PtChan → PtChan) : (modChan s k f).ai = s.ai := rfl
@[simp] theorem modChan_ports (s : State) (k : Nat) (f : PtChan → PtChan) : (modChan s k f).ports = s.ports := rfl
@[simp] theorem modChan_mode (s : State) (k : Nat) (f : PtChan → PtChan) : (modChan s k f).mode = s.mode := rfl
@[simp] theorem modChan_fuse (s : State) (k : Nat) (f : PtChan → PtChan) : (modChan s k f).fuse = s.fuse := rfl
@[simp] theorem modChan_safe (s : State) (k : Nat) (f : PtChan → PtChan) : (modChan s k f).safe = s.safe := rfl
@[simp] theorem modChan_watch (s : State) (k : Nat) (f : PtChan → PtChan) : (modChan s k f).watch = s.watch := rfl
@[simp] theorem modChan_ration (s : State) (k : Nat) (f : PtChan → PtChan) : (modChan s k f).ration = s.ration := rfl
@[simp] theorem modChan_pins (s : State) (k : Nat) (f : PtChan → PtChan) : (modChan s k f).pins = s.pins := rfl
@[simp] theorem modChan_cycle (s : State) (k : Nat) (f : PtChan → PtChan) : (modChan s k f).cycle = s.cycle := rfl
@[simp] theorem modChan_free (s : State) (k : Nat) (f : PtChan → PtChan) : (modChan s k f).free = s.free := rfl

/-- A read of the element that was changed. -/
@[simp] theorem getChan_modChan_same (s : State) (k : Nat) (f : PtChan → PtChan) : getChan (modChan s k f) k = f (getChan s k) := by simp [getChan]

/-- A read of another element. -/
theorem getChan_modChan_other (s : State) {k m : Nat} (f : PtChan → PtChan) (h : m ≠ k) : getChan (modChan s k f) m = getChan s m := by
  simp [getChan, tget_tmod_other _ _ _ h]

/-! ### modSink -/

@[simp] theorem modSink_pending (s : State) (k : Nat) (f : SinkRec → SinkRec) : (modSink s k f).pending = s.pending := rfl
@[simp] theorem modSink_units (s : State) (k : Nat) (f : SinkRec → SinkRec) : (modSink s k f).units = s.units := rfl
@[simp] theorem modSink_rings (s : State) (k : Nat) (f : SinkRec → SinkRec) : (modSink s k f).rings = s.rings := rfl
@[simp] theorem modSink_routes (s : State) (k : Nat) (f : SinkRec → SinkRec) : (modSink s k f).routes = s.routes := rfl
@[simp] theorem modSink_jobs (s : State) (k : Nat) (f : SinkRec → SinkRec) : (modSink s k f).jobs = s.jobs := rfl
@[simp] theorem modSink_nextJob (s : State) (k : Nat) (f : SinkRec → SinkRec) : (modSink s k f).nextJob = s.nextJob := rfl
@[simp] theorem modSink_lanes (s : State) (k : Nat) (f : SinkRec → SinkRec) : (modSink s k f).lanes = s.lanes := rfl
@[simp] theorem modSink_muster (s : State) (k : Nat) (f : SinkRec → SinkRec) : (modSink s k f).muster = s.muster := rfl
@[simp] theorem modSink_serai (s : State) (k : Nat) (f : SinkRec → SinkRec) : (modSink s k f).serai = s.serai := rfl
@[simp] theorem modSink_mint (s : State) (k : Nat) (f : SinkRec → SinkRec) : (modSink s k f).mint = s.mint := rfl
@[simp] theorem modSink_house (s : State) (k : Nat) (f : SinkRec → SinkRec) : (modSink s k f).house = s.house := rfl
@[simp] theorem modSink_scales (s : State) (k : Nat) (f : SinkRec → SinkRec) : (modSink s k f).scales = s.scales := rfl
@[simp] theorem modSink_well (s : State) (k : Nat) (f : SinkRec → SinkRec) : (modSink s k f).well = s.well := rfl
@[simp] theorem modSink_tollgate (s : State) (k : Nat) (f : SinkRec → SinkRec) : (modSink s k f).tollgate = s.tollgate := rfl
@[simp] theorem modSink_porter (s : State) (k : Nat) (f : SinkRec → SinkRec) : (modSink s k f).porter = s.porter := rfl
@[simp] theorem modSink_relay (s : State) (k : Nat) (f : SinkRec → SinkRec) : (modSink s k f).relay = { s.relay with sinks := tmod {} s.relay.sinks k f } := rfl
@[simp] theorem modSink_almanac (s : State) (k : Nat) (f : SinkRec → SinkRec) : (modSink s k f).almanac = s.almanac := rfl
@[simp] theorem modSink_ledger (s : State) (k : Nat) (f : SinkRec → SinkRec) : (modSink s k f).ledger = s.ledger := rfl
@[simp] theorem modSink_ai (s : State) (k : Nat) (f : SinkRec → SinkRec) : (modSink s k f).ai = s.ai := rfl
@[simp] theorem modSink_ports (s : State) (k : Nat) (f : SinkRec → SinkRec) : (modSink s k f).ports = s.ports := rfl
@[simp] theorem modSink_mode (s : State) (k : Nat) (f : SinkRec → SinkRec) : (modSink s k f).mode = s.mode := rfl
@[simp] theorem modSink_fuse (s : State) (k : Nat) (f : SinkRec → SinkRec) : (modSink s k f).fuse = s.fuse := rfl
@[simp] theorem modSink_safe (s : State) (k : Nat) (f : SinkRec → SinkRec) : (modSink s k f).safe = s.safe := rfl
@[simp] theorem modSink_watch (s : State) (k : Nat) (f : SinkRec → SinkRec) : (modSink s k f).watch = s.watch := rfl
@[simp] theorem modSink_ration (s : State) (k : Nat) (f : SinkRec → SinkRec) : (modSink s k f).ration = s.ration := rfl
@[simp] theorem modSink_pins (s : State) (k : Nat) (f : SinkRec → SinkRec) : (modSink s k f).pins = s.pins := rfl
@[simp] theorem modSink_cycle (s : State) (k : Nat) (f : SinkRec → SinkRec) : (modSink s k f).cycle = s.cycle := rfl
@[simp] theorem modSink_free (s : State) (k : Nat) (f : SinkRec → SinkRec) : (modSink s k f).free = s.free := rfl

/-- A read of the element that was changed. -/
@[simp] theorem getSink_modSink_same (s : State) (k : Nat) (f : SinkRec → SinkRec) : getSink (modSink s k f) k = f (getSink s k) := by simp [getSink]

/-- A read of another element. -/
theorem getSink_modSink_other (s : State) {k m : Nat} (f : SinkRec → SinkRec) (h : m ≠ k) : getSink (modSink s k f) m = getSink s m := by
  simp [getSink, tget_tmod_other _ _ _ h]

/-! ### modTimer -/

@[simp] theorem modTimer_pending (s : State) (k : Nat) (f : TimerRec → TimerRec) : (modTimer s k f).pending = s.pending := rfl
@[simp] theorem modTimer_units (s : State) (k : Nat) (f : TimerRec → TimerRec) : (modTimer s k f).units = s.units := rfl
@[simp] theorem modTimer_rings (s : State) (k : Nat) (f : TimerRec → TimerRec) : (modTimer s k f).rings = s.rings := rfl
@[simp] theorem modTimer_routes (s : State) (k : Nat) (f : TimerRec → TimerRec) : (modTimer s k f).routes = s.routes := rfl
@[simp] theorem modTimer_jobs (s : State) (k : Nat) (f : TimerRec → TimerRec) : (modTimer s k f).jobs = s.jobs := rfl
@[simp] theorem modTimer_nextJob (s : State) (k : Nat) (f : TimerRec → TimerRec) : (modTimer s k f).nextJob = s.nextJob := rfl
@[simp] theorem modTimer_lanes (s : State) (k : Nat) (f : TimerRec → TimerRec) : (modTimer s k f).lanes = s.lanes := rfl
@[simp] theorem modTimer_muster (s : State) (k : Nat) (f : TimerRec → TimerRec) : (modTimer s k f).muster = s.muster := rfl
@[simp] theorem modTimer_serai (s : State) (k : Nat) (f : TimerRec → TimerRec) : (modTimer s k f).serai = s.serai := rfl
@[simp] theorem modTimer_mint (s : State) (k : Nat) (f : TimerRec → TimerRec) : (modTimer s k f).mint = s.mint := rfl
@[simp] theorem modTimer_house (s : State) (k : Nat) (f : TimerRec → TimerRec) : (modTimer s k f).house = s.house := rfl
@[simp] theorem modTimer_scales (s : State) (k : Nat) (f : TimerRec → TimerRec) : (modTimer s k f).scales = s.scales := rfl
@[simp] theorem modTimer_well (s : State) (k : Nat) (f : TimerRec → TimerRec) : (modTimer s k f).well = s.well := rfl
@[simp] theorem modTimer_tollgate (s : State) (k : Nat) (f : TimerRec → TimerRec) : (modTimer s k f).tollgate = s.tollgate := rfl
@[simp] theorem modTimer_porter (s : State) (k : Nat) (f : TimerRec → TimerRec) : (modTimer s k f).porter = s.porter := rfl
@[simp] theorem modTimer_relay (s : State) (k : Nat) (f : TimerRec → TimerRec) : (modTimer s k f).relay = { s.relay with timers := tmod {} s.relay.timers k f } := rfl
@[simp] theorem modTimer_almanac (s : State) (k : Nat) (f : TimerRec → TimerRec) : (modTimer s k f).almanac = s.almanac := rfl
@[simp] theorem modTimer_ledger (s : State) (k : Nat) (f : TimerRec → TimerRec) : (modTimer s k f).ledger = s.ledger := rfl
@[simp] theorem modTimer_ai (s : State) (k : Nat) (f : TimerRec → TimerRec) : (modTimer s k f).ai = s.ai := rfl
@[simp] theorem modTimer_ports (s : State) (k : Nat) (f : TimerRec → TimerRec) : (modTimer s k f).ports = s.ports := rfl
@[simp] theorem modTimer_mode (s : State) (k : Nat) (f : TimerRec → TimerRec) : (modTimer s k f).mode = s.mode := rfl
@[simp] theorem modTimer_fuse (s : State) (k : Nat) (f : TimerRec → TimerRec) : (modTimer s k f).fuse = s.fuse := rfl
@[simp] theorem modTimer_safe (s : State) (k : Nat) (f : TimerRec → TimerRec) : (modTimer s k f).safe = s.safe := rfl
@[simp] theorem modTimer_watch (s : State) (k : Nat) (f : TimerRec → TimerRec) : (modTimer s k f).watch = s.watch := rfl
@[simp] theorem modTimer_ration (s : State) (k : Nat) (f : TimerRec → TimerRec) : (modTimer s k f).ration = s.ration := rfl
@[simp] theorem modTimer_pins (s : State) (k : Nat) (f : TimerRec → TimerRec) : (modTimer s k f).pins = s.pins := rfl
@[simp] theorem modTimer_cycle (s : State) (k : Nat) (f : TimerRec → TimerRec) : (modTimer s k f).cycle = s.cycle := rfl
@[simp] theorem modTimer_free (s : State) (k : Nat) (f : TimerRec → TimerRec) : (modTimer s k f).free = s.free := rfl

/-- A read of the element that was changed. -/
@[simp] theorem getTimer_modTimer_same (s : State) (k : Nat) (f : TimerRec → TimerRec) : getTimer (modTimer s k f) k = f (getTimer s k) := by simp [getTimer]

/-- A read of another element. -/
theorem getTimer_modTimer_other (s : State) {k m : Nat} (f : TimerRec → TimerRec) (h : m ≠ k) : getTimer (modTimer s k f) m = getTimer s m := by
  simp [getTimer, tget_tmod_other _ _ _ h]

/-! ### modAlarm -/

@[simp] theorem modAlarm_pending (s : State) (k : Nat) (f : AlarmRec → AlarmRec) : (modAlarm s k f).pending = s.pending := rfl
@[simp] theorem modAlarm_units (s : State) (k : Nat) (f : AlarmRec → AlarmRec) : (modAlarm s k f).units = s.units := rfl
@[simp] theorem modAlarm_rings (s : State) (k : Nat) (f : AlarmRec → AlarmRec) : (modAlarm s k f).rings = s.rings := rfl
@[simp] theorem modAlarm_routes (s : State) (k : Nat) (f : AlarmRec → AlarmRec) : (modAlarm s k f).routes = s.routes := rfl
@[simp] theorem modAlarm_jobs (s : State) (k : Nat) (f : AlarmRec → AlarmRec) : (modAlarm s k f).jobs = s.jobs := rfl
@[simp] theorem modAlarm_nextJob (s : State) (k : Nat) (f : AlarmRec → AlarmRec) : (modAlarm s k f).nextJob = s.nextJob := rfl
@[simp] theorem modAlarm_lanes (s : State) (k : Nat) (f : AlarmRec → AlarmRec) : (modAlarm s k f).lanes = s.lanes := rfl
@[simp] theorem modAlarm_muster (s : State) (k : Nat) (f : AlarmRec → AlarmRec) : (modAlarm s k f).muster = s.muster := rfl
@[simp] theorem modAlarm_serai (s : State) (k : Nat) (f : AlarmRec → AlarmRec) : (modAlarm s k f).serai = s.serai := rfl
@[simp] theorem modAlarm_mint (s : State) (k : Nat) (f : AlarmRec → AlarmRec) : (modAlarm s k f).mint = s.mint := rfl
@[simp] theorem modAlarm_house (s : State) (k : Nat) (f : AlarmRec → AlarmRec) : (modAlarm s k f).house = s.house := rfl
@[simp] theorem modAlarm_scales (s : State) (k : Nat) (f : AlarmRec → AlarmRec) : (modAlarm s k f).scales = s.scales := rfl
@[simp] theorem modAlarm_well (s : State) (k : Nat) (f : AlarmRec → AlarmRec) : (modAlarm s k f).well = s.well := rfl
@[simp] theorem modAlarm_tollgate (s : State) (k : Nat) (f : AlarmRec → AlarmRec) : (modAlarm s k f).tollgate = s.tollgate := rfl
@[simp] theorem modAlarm_porter (s : State) (k : Nat) (f : AlarmRec → AlarmRec) : (modAlarm s k f).porter = s.porter := rfl
@[simp] theorem modAlarm_relay (s : State) (k : Nat) (f : AlarmRec → AlarmRec) : (modAlarm s k f).relay = s.relay := rfl
@[simp] theorem modAlarm_almanac (s : State) (k : Nat) (f : AlarmRec → AlarmRec) : (modAlarm s k f).almanac = { s.almanac with alarms := tmod {} s.almanac.alarms k f } := rfl
@[simp] theorem modAlarm_ledger (s : State) (k : Nat) (f : AlarmRec → AlarmRec) : (modAlarm s k f).ledger = s.ledger := rfl
@[simp] theorem modAlarm_ai (s : State) (k : Nat) (f : AlarmRec → AlarmRec) : (modAlarm s k f).ai = s.ai := rfl
@[simp] theorem modAlarm_ports (s : State) (k : Nat) (f : AlarmRec → AlarmRec) : (modAlarm s k f).ports = s.ports := rfl
@[simp] theorem modAlarm_mode (s : State) (k : Nat) (f : AlarmRec → AlarmRec) : (modAlarm s k f).mode = s.mode := rfl
@[simp] theorem modAlarm_fuse (s : State) (k : Nat) (f : AlarmRec → AlarmRec) : (modAlarm s k f).fuse = s.fuse := rfl
@[simp] theorem modAlarm_safe (s : State) (k : Nat) (f : AlarmRec → AlarmRec) : (modAlarm s k f).safe = s.safe := rfl
@[simp] theorem modAlarm_watch (s : State) (k : Nat) (f : AlarmRec → AlarmRec) : (modAlarm s k f).watch = s.watch := rfl
@[simp] theorem modAlarm_ration (s : State) (k : Nat) (f : AlarmRec → AlarmRec) : (modAlarm s k f).ration = s.ration := rfl
@[simp] theorem modAlarm_pins (s : State) (k : Nat) (f : AlarmRec → AlarmRec) : (modAlarm s k f).pins = s.pins := rfl
@[simp] theorem modAlarm_cycle (s : State) (k : Nat) (f : AlarmRec → AlarmRec) : (modAlarm s k f).cycle = s.cycle := rfl
@[simp] theorem modAlarm_free (s : State) (k : Nat) (f : AlarmRec → AlarmRec) : (modAlarm s k f).free = s.free := rfl

/-- A read of the element that was changed. -/
@[simp] theorem getAlarm_modAlarm_same (s : State) (k : Nat) (f : AlarmRec → AlarmRec) : getAlarm (modAlarm s k f) k = f (getAlarm s k) := by simp [getAlarm]

/-- A read of another element. -/
theorem getAlarm_modAlarm_other (s : State) {k m : Nat} (f : AlarmRec → AlarmRec) (h : m ≠ k) : getAlarm (modAlarm s k f) m = getAlarm s m := by
  simp [getAlarm, tget_tmod_other _ _ _ h]

/-! ### modPort -/

@[simp] theorem modPort_pending (s : State) (k : Nat) (f : PortRec → PortRec) : (modPort s k f).pending = s.pending := rfl
@[simp] theorem modPort_units (s : State) (k : Nat) (f : PortRec → PortRec) : (modPort s k f).units = s.units := rfl
@[simp] theorem modPort_rings (s : State) (k : Nat) (f : PortRec → PortRec) : (modPort s k f).rings = s.rings := rfl
@[simp] theorem modPort_routes (s : State) (k : Nat) (f : PortRec → PortRec) : (modPort s k f).routes = s.routes := rfl
@[simp] theorem modPort_jobs (s : State) (k : Nat) (f : PortRec → PortRec) : (modPort s k f).jobs = s.jobs := rfl
@[simp] theorem modPort_nextJob (s : State) (k : Nat) (f : PortRec → PortRec) : (modPort s k f).nextJob = s.nextJob := rfl
@[simp] theorem modPort_lanes (s : State) (k : Nat) (f : PortRec → PortRec) : (modPort s k f).lanes = s.lanes := rfl
@[simp] theorem modPort_muster (s : State) (k : Nat) (f : PortRec → PortRec) : (modPort s k f).muster = s.muster := rfl
@[simp] theorem modPort_serai (s : State) (k : Nat) (f : PortRec → PortRec) : (modPort s k f).serai = s.serai := rfl
@[simp] theorem modPort_mint (s : State) (k : Nat) (f : PortRec → PortRec) : (modPort s k f).mint = s.mint := rfl
@[simp] theorem modPort_house (s : State) (k : Nat) (f : PortRec → PortRec) : (modPort s k f).house = s.house := rfl
@[simp] theorem modPort_scales (s : State) (k : Nat) (f : PortRec → PortRec) : (modPort s k f).scales = s.scales := rfl
@[simp] theorem modPort_well (s : State) (k : Nat) (f : PortRec → PortRec) : (modPort s k f).well = s.well := rfl
@[simp] theorem modPort_tollgate (s : State) (k : Nat) (f : PortRec → PortRec) : (modPort s k f).tollgate = s.tollgate := rfl
@[simp] theorem modPort_porter (s : State) (k : Nat) (f : PortRec → PortRec) : (modPort s k f).porter = s.porter := rfl
@[simp] theorem modPort_relay (s : State) (k : Nat) (f : PortRec → PortRec) : (modPort s k f).relay = s.relay := rfl
@[simp] theorem modPort_almanac (s : State) (k : Nat) (f : PortRec → PortRec) : (modPort s k f).almanac = s.almanac := rfl
@[simp] theorem modPort_ledger (s : State) (k : Nat) (f : PortRec → PortRec) : (modPort s k f).ledger = s.ledger := rfl
@[simp] theorem modPort_ai (s : State) (k : Nat) (f : PortRec → PortRec) : (modPort s k f).ai = { s.ai with ports := tmod {} s.ai.ports k f } := rfl
@[simp] theorem modPort_ports (s : State) (k : Nat) (f : PortRec → PortRec) : (modPort s k f).ports = s.ports := rfl
@[simp] theorem modPort_mode (s : State) (k : Nat) (f : PortRec → PortRec) : (modPort s k f).mode = s.mode := rfl
@[simp] theorem modPort_fuse (s : State) (k : Nat) (f : PortRec → PortRec) : (modPort s k f).fuse = s.fuse := rfl
@[simp] theorem modPort_safe (s : State) (k : Nat) (f : PortRec → PortRec) : (modPort s k f).safe = s.safe := rfl
@[simp] theorem modPort_watch (s : State) (k : Nat) (f : PortRec → PortRec) : (modPort s k f).watch = s.watch := rfl
@[simp] theorem modPort_ration (s : State) (k : Nat) (f : PortRec → PortRec) : (modPort s k f).ration = s.ration := rfl
@[simp] theorem modPort_pins (s : State) (k : Nat) (f : PortRec → PortRec) : (modPort s k f).pins = s.pins := rfl
@[simp] theorem modPort_cycle (s : State) (k : Nat) (f : PortRec → PortRec) : (modPort s k f).cycle = s.cycle := rfl
@[simp] theorem modPort_free (s : State) (k : Nat) (f : PortRec → PortRec) : (modPort s k f).free = s.free := rfl

/-- A read of the element that was changed. -/
@[simp] theorem getPort_modPort_same (s : State) (k : Nat) (f : PortRec → PortRec) : getPort (modPort s k f) k = f (getPort s k) := by simp [getPort]

/-- A read of another element. -/
theorem getPort_modPort_other (s : State) {k m : Nat} (f : PortRec → PortRec) (h : m ≠ k) : getPort (modPort s k f) m = getPort s m := by
  simp [getPort, tget_tmod_other _ _ _ h]

/-! ### modDom -/

@[simp] theorem modDom_pending (s : State) (k : Nat) (f : DomRec → DomRec) : (modDom s k f).pending = s.pending := rfl
@[simp] theorem modDom_units (s : State) (k : Nat) (f : DomRec → DomRec) : (modDom s k f).units = s.units := rfl
@[simp] theorem modDom_rings (s : State) (k : Nat) (f : DomRec → DomRec) : (modDom s k f).rings = s.rings := rfl
@[simp] theorem modDom_routes (s : State) (k : Nat) (f : DomRec → DomRec) : (modDom s k f).routes = s.routes := rfl
@[simp] theorem modDom_jobs (s : State) (k : Nat) (f : DomRec → DomRec) : (modDom s k f).jobs = s.jobs := rfl
@[simp] theorem modDom_nextJob (s : State) (k : Nat) (f : DomRec → DomRec) : (modDom s k f).nextJob = s.nextJob := rfl
@[simp] theorem modDom_lanes (s : State) (k : Nat) (f : DomRec → DomRec) : (modDom s k f).lanes = s.lanes := rfl
@[simp] theorem modDom_muster (s : State) (k : Nat) (f : DomRec → DomRec) : (modDom s k f).muster = s.muster := rfl
@[simp] theorem modDom_serai (s : State) (k : Nat) (f : DomRec → DomRec) : (modDom s k f).serai = s.serai := rfl
@[simp] theorem modDom_mint (s : State) (k : Nat) (f : DomRec → DomRec) : (modDom s k f).mint = s.mint := rfl
@[simp] theorem modDom_house (s : State) (k : Nat) (f : DomRec → DomRec) : (modDom s k f).house = s.house := rfl
@[simp] theorem modDom_scales (s : State) (k : Nat) (f : DomRec → DomRec) : (modDom s k f).scales = s.scales := rfl
@[simp] theorem modDom_well (s : State) (k : Nat) (f : DomRec → DomRec) : (modDom s k f).well = s.well := rfl
@[simp] theorem modDom_tollgate (s : State) (k : Nat) (f : DomRec → DomRec) : (modDom s k f).tollgate = s.tollgate := rfl
@[simp] theorem modDom_porter (s : State) (k : Nat) (f : DomRec → DomRec) : (modDom s k f).porter = s.porter := rfl
@[simp] theorem modDom_relay (s : State) (k : Nat) (f : DomRec → DomRec) : (modDom s k f).relay = s.relay := rfl
@[simp] theorem modDom_almanac (s : State) (k : Nat) (f : DomRec → DomRec) : (modDom s k f).almanac = s.almanac := rfl
@[simp] theorem modDom_ledger (s : State) (k : Nat) (f : DomRec → DomRec) : (modDom s k f).ledger = s.ledger := rfl
@[simp] theorem modDom_ai (s : State) (k : Nat) (f : DomRec → DomRec) : (modDom s k f).ai = s.ai := rfl
@[simp] theorem modDom_ports (s : State) (k : Nat) (f : DomRec → DomRec) : (modDom s k f).ports = s.ports := rfl
@[simp] theorem modDom_mode (s : State) (k : Nat) (f : DomRec → DomRec) : (modDom s k f).mode = s.mode := rfl
@[simp] theorem modDom_fuse (s : State) (k : Nat) (f : DomRec → DomRec) : (modDom s k f).fuse = s.fuse := rfl
@[simp] theorem modDom_safe (s : State) (k : Nat) (f : DomRec → DomRec) : (modDom s k f).safe = s.safe := rfl
@[simp] theorem modDom_watch (s : State) (k : Nat) (f : DomRec → DomRec) : (modDom s k f).watch = s.watch := rfl
@[simp] theorem modDom_ration (s : State) (k : Nat) (f : DomRec → DomRec) : (modDom s k f).ration = { s.ration with doms := tmod {} s.ration.doms k f } := rfl
@[simp] theorem modDom_pins (s : State) (k : Nat) (f : DomRec → DomRec) : (modDom s k f).pins = s.pins := rfl
@[simp] theorem modDom_cycle (s : State) (k : Nat) (f : DomRec → DomRec) : (modDom s k f).cycle = s.cycle := rfl
@[simp] theorem modDom_free (s : State) (k : Nat) (f : DomRec → DomRec) : (modDom s k f).free = s.free := rfl

/-- A read of the element that was changed. -/
@[simp] theorem getDom_modDom_same (s : State) (k : Nat) (f : DomRec → DomRec) : getDom (modDom s k f) k = f (getDom s k) := by simp [getDom]

/-- A read of another element. -/
theorem getDom_modDom_other (s : State) {k m : Nat} (f : DomRec → DomRec) (h : m ≠ k) : getDom (modDom s k f) m = getDom s m := by
  simp [getDom, tget_tmod_other _ _ _ h]

/-! ### modRoute -/

@[simp] theorem modRoute_pending (s : State) (k : Nat) (f : RouteRec → RouteRec) : (modRoute s k f).pending = s.pending := rfl
@[simp] theorem modRoute_units (s : State) (k : Nat) (f : RouteRec → RouteRec) : (modRoute s k f).units = s.units := rfl
@[simp] theorem modRoute_rings (s : State) (k : Nat) (f : RouteRec → RouteRec) : (modRoute s k f).rings = s.rings := rfl
@[simp] theorem modRoute_routes (s : State) (k : Nat) (f : RouteRec → RouteRec) : (modRoute s k f).routes = { s.routes with routes := tmod {} s.routes.routes k f } := rfl
@[simp] theorem modRoute_jobs (s : State) (k : Nat) (f : RouteRec → RouteRec) : (modRoute s k f).jobs = s.jobs := rfl
@[simp] theorem modRoute_nextJob (s : State) (k : Nat) (f : RouteRec → RouteRec) : (modRoute s k f).nextJob = s.nextJob := rfl
@[simp] theorem modRoute_lanes (s : State) (k : Nat) (f : RouteRec → RouteRec) : (modRoute s k f).lanes = s.lanes := rfl
@[simp] theorem modRoute_muster (s : State) (k : Nat) (f : RouteRec → RouteRec) : (modRoute s k f).muster = s.muster := rfl
@[simp] theorem modRoute_serai (s : State) (k : Nat) (f : RouteRec → RouteRec) : (modRoute s k f).serai = s.serai := rfl
@[simp] theorem modRoute_mint (s : State) (k : Nat) (f : RouteRec → RouteRec) : (modRoute s k f).mint = s.mint := rfl
@[simp] theorem modRoute_house (s : State) (k : Nat) (f : RouteRec → RouteRec) : (modRoute s k f).house = s.house := rfl
@[simp] theorem modRoute_scales (s : State) (k : Nat) (f : RouteRec → RouteRec) : (modRoute s k f).scales = s.scales := rfl
@[simp] theorem modRoute_well (s : State) (k : Nat) (f : RouteRec → RouteRec) : (modRoute s k f).well = s.well := rfl
@[simp] theorem modRoute_tollgate (s : State) (k : Nat) (f : RouteRec → RouteRec) : (modRoute s k f).tollgate = s.tollgate := rfl
@[simp] theorem modRoute_porter (s : State) (k : Nat) (f : RouteRec → RouteRec) : (modRoute s k f).porter = s.porter := rfl
@[simp] theorem modRoute_relay (s : State) (k : Nat) (f : RouteRec → RouteRec) : (modRoute s k f).relay = s.relay := rfl
@[simp] theorem modRoute_almanac (s : State) (k : Nat) (f : RouteRec → RouteRec) : (modRoute s k f).almanac = s.almanac := rfl
@[simp] theorem modRoute_ledger (s : State) (k : Nat) (f : RouteRec → RouteRec) : (modRoute s k f).ledger = s.ledger := rfl
@[simp] theorem modRoute_ai (s : State) (k : Nat) (f : RouteRec → RouteRec) : (modRoute s k f).ai = s.ai := rfl
@[simp] theorem modRoute_ports (s : State) (k : Nat) (f : RouteRec → RouteRec) : (modRoute s k f).ports = s.ports := rfl
@[simp] theorem modRoute_mode (s : State) (k : Nat) (f : RouteRec → RouteRec) : (modRoute s k f).mode = s.mode := rfl
@[simp] theorem modRoute_fuse (s : State) (k : Nat) (f : RouteRec → RouteRec) : (modRoute s k f).fuse = s.fuse := rfl
@[simp] theorem modRoute_safe (s : State) (k : Nat) (f : RouteRec → RouteRec) : (modRoute s k f).safe = s.safe := rfl
@[simp] theorem modRoute_watch (s : State) (k : Nat) (f : RouteRec → RouteRec) : (modRoute s k f).watch = s.watch := rfl
@[simp] theorem modRoute_ration (s : State) (k : Nat) (f : RouteRec → RouteRec) : (modRoute s k f).ration = s.ration := rfl
@[simp] theorem modRoute_pins (s : State) (k : Nat) (f : RouteRec → RouteRec) : (modRoute s k f).pins = s.pins := rfl
@[simp] theorem modRoute_cycle (s : State) (k : Nat) (f : RouteRec → RouteRec) : (modRoute s k f).cycle = s.cycle := rfl
@[simp] theorem modRoute_free (s : State) (k : Nat) (f : RouteRec → RouteRec) : (modRoute s k f).free = s.free := rfl

/-- A read of the element that was changed. -/
@[simp] theorem getRoute_modRoute_same (s : State) (k : Nat) (f : RouteRec → RouteRec) : getRoute (modRoute s k f) k = f (getRoute s k) := by simp [getRoute]

/-- A read of another element. -/
theorem getRoute_modRoute_other (s : State) {k m : Nat} (f : RouteRec → RouteRec) (h : m ≠ k) : getRoute (modRoute s k f) m = getRoute s m := by
  simp [getRoute, tget_tmod_other _ _ _ h]

end Sys2Proof.Machine
end

