-- ==== Sys2Proof/Tests/Slice0.lean ====
section
/-! SUPPORT. The model's own tests: ill-formed commands are told apart, a step runs the front command, a few results worked out by
hand, and for every clause of every obligation that has hypotheses a theorem `witness_<Obligation>_<clause>` with a state and operands
that meet all of them together. -/

namespace Sys2Proof.Tests

open Sys2Proof.Machine

set_option linter.unusedVariables false
set_option exponentiation.threshold 600

/-! ### States -/

def dOn : DomRec := { phase := .powered, req := true }

def inM (m : Mode) : State := {
  mode := { mode := m, pllLocked := true, holder := 1, nonce := 7 }
  ration := { doms := [(0, dOn), (1, dOn), (2, dOn)] }
  well := { state := .healthy, srcOk := 15, level := 2048 }
  serai := { hkeyDrawn := true }
  ai := { ports := [(0, { reqCrd := 9, dataCrd := 9 }), (1, { reqCrd := 9, dataCrd := 9 }), (2, { reqCrd := 9, dataCrd := 9 }), (3, { reqCrd := 9, dataCrd := 9 })] }
  watch := { box := { osN := BitVec.allOnes 256, verN := BitVec.allOnes 64, seqN := BitVec.allOnes 64, flagsN := BitVec.allOnes 8 } } }

def ring0 : RingRec :=
  { base := 0x10000, headAddr := 0x20000, spaceLocal := true, bound := true, tenant := 5, state := .running, irqEn := true }

def withRing (m : Mode) (g : RingRec) : State := { inM m with rings := [(3, g)] }

def svc := inM .service

def prov := inM .provision

def ins (op a b c imm : Nat) : W64 := BitVec.ofNat 64 (op + 256 * a + 65536 * b + 2 ^ 24 * c + 2 ^ 32 * imm)

def job1 (i : W64) : Job := { ring := 3, seat := .running 0, word0 := 0x101, slots := [i], started := true, onLane := true }

def runsJ (x : Job) : State := { withRing .service ring0 with jobs := [(1, x)], nextJob := 2, lanes := [(0, { run := some 1 })] }

def runs (i : W64) : State := runsJ (job1 i)

def frame (n : Nat) (bs : List Byte) : Table Byte := tfill 0 [] (256 * n) (leBytes 2 bs.length ++ bs)

def k0 : KeyRef := { slot := 100, tenant := 5, usage := 0xFFFF, gen := 0 }

def slotK (t : BitVec 6) : SlotRec :=
  { tenant := 5, kind := .privateKey, usage := 0x7FFF, ktype := t, leases := 1, notAfter := 0xFFFFFFFFFF#40, klen := 32,
    material := 0x1234 }

def runsK (i : W64) (t : BitVec 6) (f : Job → Job := id) : State :=
  let s := runsJ (f { job1 i with keys := [(0, some k0)] })
  { s with serai := { s.serai with slots := [(100, slotK t)] } }

def frag (addr len seg inst : Nat) (last : Bool) : BitVec 128 :=
  BitVec.ofNat 128 (addr + 2 ^ 64 * len + 2 ^ 96 * last.toNat + 2 ^ 112 * seg + 2 ^ 120 * inst)

/-- a job with a manifest of fragments and buffered bytes -/
def man (x : Job) (fr : List (BitVec 128)) (buf : List (Nat × List Byte)) : Job :=
  { x with word0 := x.word0 ||| 8, word1 := 0x1000, frags := (tfill 0 [] 0 fr), fragBlocks := 1, fragAsked := 1, buf := buf }

def host (s : State) : State := { s with fuse := { s.fuse with life := 3 }, mint := { s.mint with root := true } }

def withMode (s : State) (f : ModeRec → ModeRec) : State := { s with mode := f s.mode }

def dom (s : State) (d : Nat) (x : DomRec) : State := { s with ration := { s.ration with doms := tset {} s.ration.doms d x } }

def req : Req := { access := 0, write := false, addr := 0x100, busAddr := 0x100, len := 64, spaceLocal := true, beats := 1 }

def seg (s i : Nat) : Nat := 0xC0 + 8 * s + i

def bench (b : Nat) (x : BenchRec) (s : State) : State :=
  { s with house := { s.house with direct := 0xFF, benches := tset {} s.house.benches b x } }

/-- Operands A at 0, B at 64, M at 128, D at 192 (in limbs): 3, 2, 7 of one limb each. -/
def opsV : W64 := BitVec.ofNat 64 (0 + 2^12 * 64 + 2^24 * 128 + 2^36 * 192)

def opsMem : Table Byte := [(0, 3), (512, 2), (1024, 7)]

def ctx (c : Nat) (x : CtxRec) (s : State) : State := { s with scales := { s.scales with ctxs := tset {} s.scales.ctxs c x } }

def ser (s : State) (f : SeraiRec → SeraiRec) : State := { s with serai := f s.serai }

def owned (s : State) : State := { s with watch := { s.watch with box := { s.watch.box with flags := 1, flagsN := 0xFE } } }

def zs (n : Nat) : List Byte := List.replicate n 0

def recBytes : List Byte := leBytes 2 5 ++ [1, 10] ++ leBytes 4 2 ++ leBytes 8 0x40000 ++ [1] ++ zs 47

/-- The block has an owner and a box of version 1. -/
def withRec (s : State) : State :=
  { owned s with watch := { (owned s).watch with box := { (owned s).watch.box with ver := 1, verN := ~~~1 } } }

/-- The record of tenant 5 in its slot. -/
def recSlot : SlotRec :=
  { kind := .internal, tenant := 5, index := BitVec.ofNat 24 0x030005, notAfter := 0xFFFFFFFFFF#40
    material := BitVec.ofNat 512 (ofLe recBytes) }

/-- The record of tenant 5 is lent to job 1, in slot 204. -/
def lentRec (s : State) : State :=
  { withRec s with mint := { s.mint with lent := [(1, some 204)] }
                   serai := { s.serai with slots := s.serai.slots ++ [(204, recSlot)] } }

def bale : List Byte :=
  [1, 0x03, 3, 0, 0, 32] ++ leBytes 2 5 ++ leBytes 4 2 ++ leBytes 3 9 ++ zs 6 ++ leBytes 5 0xFFFFFFFFFF ++ zs 6 ++ zs 96

def fill0 : FillRec := { tenant := 5, index := 9, phase := .arrived, record := recBytes, bale := bale, joined := [1] }

def keyW := ins 0x01 0x80 0 0 9

def line : List Byte := [1] ++ zs 111 ++ lineTag (zs 32) 0x4000 5 ([1] ++ zs 111)

def strm (op : Nat) (x : Job → Job) : State :=
  runsJ (x (man (job1 (ins 3 (seg 5 0) (if op = 3 then 0x40 else 0) 0 (op + if op = 3 then 256 * 16 + 65536 * 4 else 0))) [frag 0x4000 128 5 0 true] [(bufKey 40 0, line)]))

def queued (m : MusterRec → MusterRec) (x : Job) (g : RingRec) : State :=
  let s := withRing .service g; { s with jobs := [(1, x)], nextJob := 2, muster := m s.muster }

def qjob (c : Nat) : Job := { ring := 3, seat := .arriving, word0 := BitVec.ofNat 64 (0x100 + 2 * c), slots := [ins 0x3F 0 0 0 0] }

def staged (x : Job) (n : LaneRec) : State := { withRing .service ring0 with jobs := [(1, x)], nextJob := 2, lanes := [(0, n)] }

def sealI := ins 0x10 0x41 0x40 0x80 (1 + 15 * 256 + 0x7000)

def openI2 := ins 0x11 0x41 0x40 0x80 (1 + 15 * 256 + 0x7000)

def fr (x : Job) : Job := { x with sat := tfill 0 (tfill 0 [] 0 (leBytes 2 4 ++ [1, 2, 3, 4])) (256 * 6) (leBytes 2 12 ++ zs 12) }

def fr16 (x : Job) : Job := { x with sat := tfill 0 [] 0 (leBytes 2 16 ++ (List.range 16).map (BitVec.ofNat 8)) }

def chBytes : List Byte :=
  leBytes 4 0x48435053 ++ [1, 1, 0, 0] ++ leBytes 8 0 ++ zs 5 ++ leBytes 5 0xFFFFFFFFFF ++ zs 2 ++ leBytes 4 24 ++ zs 2112 ++ ([1, 0, 16,
                                                                                                                                0, 0, 0, 0, 0] ++ leBytes 2 3 ++ leBytes 2 5 ++ zs 12)

def chS : State := ({ prov with mint := { chBusy := true } } : State)

def hsh : List Byte := stdBytes (.hash 0x22) [[], slice chBytes 96 2048] 48

def chS2 : State :=
  { chS with fuse := { array := tfill 0 [] 65 ((List.range 12).map (fun i => BitVec.ofNat 32 (ofLe (slice hsh (4 * i) 4))) ++ [BitVec.ofNat 32 (ofLe (stdBytes .fuseEcc [hsh] 2) % 1024)]) } }

def longH : List Byte :=
  [2, 0x12, 3, 0, 0, 0] ++ leBytes 2 5 ++ leBytes 4 0 ++ leBytes 3 9 ++ zs 6 ++ leBytes 5 0xFFFFFFFFFF ++ leBytes 4 72 ++ zs 34

def keyLongS : State := owned (runsJ (man (job1 (ins 0x01 0x80 (seg 1 0) 0 9)) [frag 0x4000 144 1 0 true] [(bufKey 8 0, longH ++ zs 80)]))

def kx (s : State) : State := { s with lanes := [(0, { run := some 1, ctxKeys := [(1, zs 64)] })] }

def well (s : State) (f : WellRec → WellRec) : State := { s with well := f s.well }

def tg (s : State) (c : Nat) (x : TgCtx) : State := { s with tollgate := { ctxs := tset {} s.tollgate.ctxs c x } }

def sink (s : State) (k : Nat) (x : SinkRec) : State := { s with relay := { s.relay with sinks := tset {} s.relay.sinks k x } }

def tim (s : State) (k : Nat) (x : TimerRec) : State := { s with relay := { s.relay with timers := tset {} s.relay.timers k x } }

def alm (s : State) (f : AlmanacRec → AlmanacRec) : State := { s with almanac := f s.almanac }

def led (s : State) (f : LedgerState → LedgerState) : State := { s with ledger := f s.ledger }

def fz (s : State) (f : FuseRec → FuseRec) : State := { s with fuse := f s.fuse }

def sf (s : State) (f : SafeRec → SafeRec) : State := { s with safe := f s.safe }

def lr : LedgerRec := { producer := 3, type := 0x201, code := 0, body := [1, 2] }

def draw1 : DrawRec := { draw := 4, cls := 4, who := .lane 1 0, need := 6 }

def sb (i : W64) (w : W64 :=
  0x101) : State := { withRing .service ring0 with jobs := [(1, { ring := 3, seat := .staged 0, word0 := w, slots := [i] })],
                                                   nextJob := 2, lanes := [(0, { staged := [1] })] }

def port (s : State) (p : PortRec) (a : Access) : State := { s with ai := { s.ai with ports := [(0, p)], accesses := [(0, some a)] } }

def unitsOn (s : State) : State :=
  { s with serai := { s.serai with slots := (List.range 64).map (fun k => (32704 + k, { kind := .unit, klen := 48, material := 3 })) } }

def mi (s : State) (f : MintRec → MintRec) : State := { s with mint := f s.mint }

def ctxMem (s : State) (bs : List Byte) : State :=
  { s with scales := { s.scales with ctxs := [(2, { mem := tfill 0 [] 0 (bs.take 16384) })] } }

def sfR : State := sf (unitsOn (host prov)) (fun f => { f with storeAddr := 0x1000, attAddr := 0x2000 })

def zl (n : Nat) : List Byte := List.replicate n 0

def ptq (s : State) (p : PortRec) : State := { s with ai := { s.ai with ports := [(0, p)], accesses := [] } }

/-- The last part of an access of 64 bytes at 0x1000, outstanding under tag 9 of port 0. -/
def lastReq (wr : Bool) : Req :=
  { access := 77, addr := 0x1000, busAddr := 0x1000, len := 64, write := wr, spaceLocal := true, beats := 1 }

def lastAcc (w : Requester) (wr : Bool) : Access := { who := w, addr := 0x1000, left := 1, len := 64, write := wr }

def atLast (s : State) (w : Requester) (wr : Bool) : State :=
  let p : PortRec := if wr then { writes := [(9, some (lastReq wr))] } else { reads := [(9, some (lastReq wr))] }
  { s with ai := { s.ai with accesses := [(77, some (lastAcc w wr))], ports := [(0, p)] } }

/-- A ring whose scan reads its first entry, and a Porter channel with a transfer. -/
def scans : State := modRing svc 3 (fun _ => { ring0 with scanning := true, logSize := 6 })

def noSlots : State := { scans with muster := { roFree := 0 } }

def moves : State := { svc with porter := { chans := [(3, { epoch := 2, xfer := some {} })] } }

def publishes (js : List Nat) : State := modRing (runs 0) 3 (fun g => { g with inflight := 1, order := js })

/-- The duty of 64 of 64 holds no engine. -/
theorem not_held (s : State) (e : Nat) (h : s.ration.dutyE = 64) : engineHeld s e = false := by
  simp only [engineHeld, h, decide_eq_false_iff_not]
  show ¬1500 * 64 ≤ _
  omega

def at_rst : State := {}
def at_cold : State := inM .cold
def at_sc : State := inM .selfCheck
def at_cont : State := inM .containment
def at_recov : State := { inM .recovery with mode := { (inM .recovery).mode with recov := some {} } }
def at_recov9 : State := { inM .recovery with mode := { (inM .recovery).mode with recov := some { step := 9 } } }
def at_cleared : State := inM .cleared
def at_prov3 : State := host prov
def at_prov1 : State := { prov with fuse := { life := 1, pdata := 5 } }
def at_prov2 : State := { prov with fuse := { life := 2, ownData := 77, ownerV := true } }
def at_svcStop : State := withMode svc (fun m => { m with stopping := true })
def at_svcStop1 : State :=
  withMode (withRing .service { ring0 with inflight := 1, state := .stopping }) (fun m => { m with stopping := true })
def at_svcAuto : State := withMode svc (fun m => { m with autoStr := true, strings := 5 })
def at_dWake : State := dom prov 0 { phase := .waking, req := true }
def at_dGating : State := dom prov 1 { phase := .gating }
def at_dGated : State := dom prov 1 { phase := .gated }
def at_dDrain : State := dom svc 1 { phase := .draining, req := true }
def at_svcAutoP : State := { svc with ration := { svc.ration with auto := 7 } }
def at_trainWake : State :=
  { (dom svc 0 {}) with ration := { (dom svc 0 {}).ration with auto := 7 }, units := [(7, { yoke := true })], jobs := [(0, { ring := 3,
                                                                                                                             seat := .queued, word0 := 0x110 })], muster := { postQ := [0] } }
def at_thermal : State := { svc with ration := { svc.ration with thermal := true, throttle := true }, muster := { throttle := true } }
def at_ring : State := withRing .service ring0
def at_ringProv : State := withRing .provision { ring0 with state := .disabled }
def at_ringPend : State := withRing .service { ring0 with pending := true }
def at_ringHeld : State := withRing .service { ring0 with scanHeld := true }
def at_ringWait : State := withRing .service { ring0 with scanning := true, waitSlot := true }
def at_ringWait2 : State :=
  withRing .service { ring0 with scanning := true, waitSlot := true, scanNext := 1, scanGot := [(0, [0x101, 0x2000, 0, 0, 0, 0, 0, 0])] }
def at_ringRst : State :=
  withRing .service { ring0 with state := .resetting, cmdBusy := true, rstTaken := 3, rstCount := 2, taken := 3, count := 2 }
def at_ringHold : State := withRing .service { ring0 with holding := true, msgHeld := true }
def at_ringHold2 : State := withRing .service { ring0 with holding := true }
def at_jobEnded : State :=
  { (withRing .service { ring0 with inflight := 1 }) with jobs := [(0, { ring := 3, seat := .ended })], nextJob := 1 }
def at_rtBusy : State :=
  { prov with routes := { busy := true, route := 1, rlen := 1, routes := [(1, { slots := [(0, ins 0x32 0 0 0 0)] })] } }
def at_icRst : State := { prov with pins := { icRst := true } }
def at_frz : State := { prov with pins := { freeze := true } }
def at_lost : State := { svc with pins := { linkLost := true } }
def at_inv : State := { prov with ai := { prov.ai with invs := [{ itag := some 3, uses := [] }] } }
def at_ats : State :=
  { svc with ai := { svc.ai with untranslated := [{ req with spaceLocal := false, addr := 0x5123, access := 1 }], accesses := [(1, some { who := .nobody, addr := 0x5123, left := 1, len := 64, spaceLocal := false })], atsOut := [(3, some { func := 0, pv := false, pasid := 0, write := false, addr := 0x5123 })] } }
def at_port : State :=
  { prov with ai := { prov.ai with ports := [(0, { reads := [(3, some req)], writes := [(5, some { req with write := true })],
                                                   quarReads := [(1, 5)], quarWrites := [(1, 6)], reqCrd := 255, dataCrd := 255 })] } }
def at_irq : State := { prov with ai := { prov.ai with irqPending := [(5, true), (4100, true)] } }
def at_tamper0 : State := { prov with watch := { prov.watch with act := 0 } }
def at_zero : State := { prov with pins := { zeroize := true } }
def at_brn : State := runs (ins 0x38 0 0 0 1)
def at_fence : State := runs (ins 0x3C 0 0 0 0)
def at_event : State := runs (ins 0x3D 0 0 0 300)
def at_end : State := runs (ins 0x3F 0 0 0 0)
def at_cmpEq : State := runs (ins 0x1A 0x40 0x41 0 (4 * 65536))
def at_xf1 : State := runsJ (fr (job1 (ins 0x13 0x41 0x40 0x46 (1 + 256 * 2 + 65536 * 4))))
def at_xfBad : State := runsJ (fr (job1 (ins 0x13 0x40 0 0 (5 + 256 * 200 + 65536 * 57))))
def at_move : State := runsJ (fr (job1 (ins 0x30 0x41 0x40 0 0)))
def at_loads : State :=
  runsJ (man (job1 (ins 0x31 0x42 (seg 1 0) 0 (250 + 256 * 6))) [frag 0x4000 300 1 0 true] [(bufKey 8 0,
                                                                                             (List.range 16).map (BitVec.ofNat 8))])
def at_stores : State := runsJ (man (fr (job1 (ins 0x32 (seg 2 1) 0x40 0 (0 + 256 * 6)))) [frag 0x4000 300 2 1 true] [])
def at_rand : State := runs (ins 0x28 0x41 0 0 (32 * 65536))
def at_seal : State := runsK sealI 1 fr
def at_open : State := runsK openI2 1 fr
def at_openZero : State :=
  runsK (ins 0x11 (seg 2 0) (seg 1 0) 0x80 (1 + 15 * 256 + 0x7000)) 1 (fun x => { man (fr x) [frag 0x4000 300 2 0 false,
                                                                                              frag 0x6000 4 1 0 true] [] with wait := .zeroing 1, wrote := some (16, 0, 4), cursors := [(8, 4), (16, 4)] })
def at_cipher : State := runsK (ins 0x12 0x41 0x40 0x80 8) 2 fr16
def at_mac : State := runsK (ins 0x18 0x41 0x40 0x80 0x19) 2 fr
def at_hash : State := runsJ (fr (job1 (ins 0x19 0x41 0x40 0 0x21)))
def at_noKey : State := runsJ (fr (job1 sealI))
def at_pk14 : State := runs (ins 0x20 0x41 0x40 0 (0x14 + 256 * 32))
def at_pkKept : State := runsJ { job1 (ins 0x20 0x41 0x40 0 (0x14 + 256 * 32)) with kept := some (zs 16) }
def at_pkSec : State := runsJ { job1 (ins 0x20 0x81 0x40 0x80 0x18) with kept := some (zs 32) }
def at_bRun : State :=
  bench 3 { run := some { job := 1, ring := 3, tenant := 5, fn := 0x14, param := 32, input := zs 160 }, mem := [(0x8000,
                                                                                                                 7)] } (runs (ins 0x20 0x41 0x40 0 (0x14 + 256 * 32)))
def at_lat1 : State := runsJ (man (job1 (ins 0x21 (seg 2 0) 0 0x81 (1 + 256))) [frag 0x4000 5000 2 0 true] [])
def at_latKept : State := runsJ { job1 (ins 0x21 0x41 (seg 2 0) 0 (0x12 + 256)) with kept := some (zs 16) }
def at_lat3 : State := runsJ { job1 (ins 0x21 0x81 (seg 2 0) 0x80 (3 + 256)) with kept := some (zs 32) }
def at_lat1K : State :=
  runsJ (man { job1 (ins 0x21 (seg 2 0) 0 0x81 (1 + 256)) with kept := some (zs 864) } [frag 0x4000 5000 2 0 true] [])
def at_cRun : State :=
  ctx 1 { run := some { job := 1, fn := 0x12, set := 1 }, mem := [(3, 3)] } (runs (ins 0x21 0x41 (seg 2 0) 0 (0x12 + 256)))
def at_cFault : State := ctx 1 { faulted := true } prov
def at_cKat : State := ctx 1 { kat := true } prov
def at_dirRun1 : State := bench 3 { ops := opsV, mem := opsMem, direct := some { op := 1, nlen := 1, elen := 0, ops := opsV } } svc
def at_lease : State :=
  bench 3 { cells := [(5, { live := true, gen := 4, curve := 1, ring := 3, tenant := 5, deadline := 0 })], mem := [(0xF000 + 128 * 5,
                                                                                                                    9)] } svc
def at_bKat : State := bench 3 { kat := true } svc
def at_flush : State :=
  ser prov (fun x => { x with cmdBusy := true, flush := some .all, slots := [(100, { slotK 1 with kind := .tenant }), (101,
                                                                                                                       { slotK 2 with kind := .tenant, leases := 0 })] })
def at_keyHit : State :=
  let s := owned (runs keyW); ser s (fun x => { x with slots := [(8 * setOf s .tenant 5 9, { slotK 1 with kind := .tenant, index := 9,
                                                                                                          leases := 0 })] })
def at_keyLong : State := keyLongS
def at_keyMiss : State := lentRec (runs keyW)
def at_fill : State := { withRec (runsJ { job1 keyW with wait := .mint 4 }) with mint := { fills := [(4, fill0)], nextFill := 5 } }
def at_fillBad : State :=
  let s := withRec (runsJ { job1 keyW with wait := .mint 4 }); { s with mint := { fills := [(4, { fill0 with phase := .failed .fabricError })], nextFill := 5 } }
def at_put : State := lentRec (runsK (ins 0x01 0x80 0 0 (9 + 2^24)) 2)
def at_derive : State := runsK (ins 0x02 0x81 0x80 0x40 (5 + 256 * 1 + 65536 * 3)) 0x0C fr
def at_ch0 : State := chS
def at_adm0 : State := queued (fun m => { m with arrCourier := [1] }) (qjob 0) { ring0 with courier := true, inflight := 1 }
def at_plc : State := queued (fun m => { m with postQ := [1] }) { qjob 1 with seat := .queued } ring0
def at_plcC : State :=
  queued (fun m => { m with courierQ := [1] }) { qjob 0 with seat := .queued, cls := .courier } { ring0 with courier := true }
def at_save : State := let s := runs (ins 0x3C 0 0 0 0); { s with lanes := [(0, { run := some 1, preempt := true })] }
def at_resume : State := let s := runsJ { job1 (ins 0x3C 0 0 0 0) with seat := .saved 0 }; { s with lanes := [(0, { saved := [1] })] }
def at_lag : State :=
  let s := runsJ { job1 (ins 0x3C 0 0 0 0) with ran := 100000 }; { s with jobs := s.jobs ++ [(2, { ring := 3, seat := .staged 0 })],
                                                                          lanes := [(0, { run := some 1, staged := [2] })] }
def at_prep : State := staged { qjob 1 with seat := .staged 0 } { staged := [1] }
def at_setup : State :=
  let s := runsK (ins 0x12 0x41 0x40 0x80 8) 1 (fun x => { fr x with seat := .staged 0, preparedTo := 1, pos := 0 });
  { s with lanes := [(0, { staged := [1], prep := some 1 })] }
def at_lkat : State := { prov with lanes := [(0, { kat := true })] }
def at_startBad : State := staged { qjob 1 with seat := .staged 0, slots := [0xFF] } { staged := [1] }
def at_over : State := runsJ { job1 0 with isOver := true, status := .encoding, ran := 1000, keys := [(0, some k0)] }
def at_ctxL : State := kx (strm 1 id)
def at_ctxS : State := kx (strm 2 id)
def at_ctxU : State := kx (strm 3 id)
def at_wCap : State := well prov (fun w => { w with cmd := some (.capture 2) })
def at_wReseed : State := well prov (fun w => { w with genCalls := 5000, inputOf := 3, input := List.replicate 600 true, inputNow := 1 })
def at_wDraw : State := well (runsJ { job1 (ins 0x28 0x41 0 0 (6 * 65536)) with wait := .well 4 }) (fun w => { w with draws := [draw1] })
def at_wDraw2 : State :=
  well (runsJ { job1 (ins 0x28 0x41 0 0 (6 * 65536)) with wait := .well 4 }) (fun w => { w with draws := [{ draw1 with got := [1, 2,
                                                                                                                               3] }] })
def at_tgIdle : State := tg prov 3 { alg := 0x21, src := 1 }
def at_tgRun : State := tg prov 3 { alg := 0x21, src := 1, state := .running, stream := [1], count := 1 }
def at_tgArmedW : State := tg prov 3 { alg := 0x21, src := 2, wstart := 0x100, wend := 0x200, next := 0x180, state := .armed }
def at_tgFin : State := tg prov 3 { alg := 0x21, src := 1, state := .finishing, stream := zs 64, count := 64, cmpEn := true }
def at_ptStop : State := { prov with porter := { stopped := true, cause := 2, errAddr := 5 } }
def at_snk300 : State := sink svc 300 { count := 2 }
def at_tmBad : State := tim svc 3 { periodic := true, period := 3 }
def at_tmDue : State := tim svc 3 { running := true, elapsed := 100, target := some 90, period := 30, periodic := true }
def at_tmProv : State :=
  alm (tim prov 3 { running := true, base := true, target := some 90, period := 30 }) (fun a => { a with state := .free,
                                                                                                         time := { sec := 3 } })
def at_alRoll : State := alm svc (fun a => { a with state := .free, time := { sec := 3, nsec := 999999999, frac := 5 } })
def at_alLock : State := { alm svc (fun a => { a with state := .locked, lastEdge := some 0 }) with cycle := 700000000 }
def at_alHold : State :=
  { alm svc (fun a => { a with state := .holdover, holdMax := 2, holdSince := 5 }) with cycle := 2000000000,
                                                                                        serai := { svc.serai with slots := [(100,
                                                                                                                             { slotK 1 with kind := .tenant })] } }
def at_alAlarm : State := alm svc (fun a => { a with state := .free, time := { sec := 3 }, alarms := [(3, { sec := 2, en := true })] })
def at_alHb : State := alm svc (fun a => { a with hbEn := true, hbAddr := 0x100 })
def at_alHbOut : State :=
  { alm svc (fun a => { a with hbEn := true }) with ai := { svc.ai with accesses := [(0, some { who := .heartbeat, addr := 0, left := 1,
                                                                                                len := 8, write := true })] } }
def at_ledFull : State :=
  led svc (fun l => { l with waiting := [lr], fill := List.replicate bankWords 1, drain := [{ data := 1, nbytes := 28 }] })
def at_ledSwap : State := led svc (fun l => { l with fill := List.replicate 9 7 })
def at_fzEnd : State :=
  fz prov (fun f => { f with array := [(100, 1)], cmd := some { op := 1, word := 100, acc := false, plan := [(100, 6)] } })
def at_sf0 : State := sf (host prov) (fun f => { f with storeAddr := 0x1000 })
def at_pf : State := withMode prov (fun m => { m with holder := 0 })
def at_sb1 : State := sb (ins 0x13 0x41 0x41 0x42 (6 + 65536*4))
def at_pendQ : State := { svc with pending := [.freeze] }
def at_frzAt : State := { (withMode prov (fun m => { m with freezeAt := some 7 })) with cycle := 7 }
def at_bEnded : State := { (bench 3 { endedAt := some 9, mem := [(0, 3)], owner := .direct } svc) with cycle := 9 }
def at_cEnded : State := { (ctx 1 { endedAt := some 9, mem := [(0, 3)] } svc) with cycle := 9 }
def at_fillRec : State := let s := withRec (runsJ { job1 keyW with wait := .mint 4 })
   let b := recordBody 5 {} 1
   { s with mint := { fills := [(4, { fill0 with recordOnly := true, index := 0x030005, bale := b ++ recordTag s b })], nextFill := 5 } }
def at_chBad : State := ctx 2 { faulted := true } prov
def at_chHere0 : State := mi (ctxMem prov [1]) (fun m => { m with chBusy := true, chStage := .here })
def at_chEng0 : State := mi prov (fun m => { m with chBusy := true, chStage := .engine 0, chRun := 3 })
def at_chFlt : State := mi (ctx 3 { faulted := true } prov) (fun m => { m with chBusy := true, chStage := .engine 1, chRun := 3 })
def at_chRef : State :=
  { (mi (ctxMem prov chBytes) (fun m => { m with chBusy := true, chStage := .refused .encoding 3 2,
                                                 chSeq := 9 })) with scales := { (ctxMem prov chBytes).scales with charter := true } }
def at_chRdy : State :=
  { (mi (ctxMem chS2 chBytes) (fun m => { m with chBusy := true, chStage := .ready })) with rings := [(3, {}), (16, {})] }
def at_admYoke : State := queued (fun m => { m with arrOther := [1] }) { qjob 1 with word0 := 0x112 } ring0
def at_plcR : State :=
  let s := queued (fun m => { m with postQ := [1], reserve := 1 }) { qjob 1 with seat := .queued } ring0;
  { s with muster := { s.muster with reserve := 0xFFFF } }
def at_keyRecMiss : State := withRec (runs keyW)

def at_wKat : State :=
  well prov (fun w => { w with genCalls := 5000, inputOf := 3, input := List.replicate 600 true, inputNow := 1, reseeds := 0xFFFFFF })
def at_ptLate : State :=
  { prov with cycle := 9, porter := { stopped := true, cause := 2, errAddr := 5, lateFail := some (9, true, 1, 77) } }
def at_ptOver : State :=
  { svc with porter := { chans := [(3, { act := { len := 64, en := true }, shadow := { arm := true, len := 128 },
                                         xfer := some { granted := 64, issued := 64, out := 64 } })] } }
def at_snkActed : State := { (sink svc 300 { count := 2, actedAt := some 9 }) with cycle := 9 }
def at_snkDue : State := { (sink svc 300 { count := 2, clearDue := true }) with cycle := 9 }
def at_ledNew : State := led svc (fun l => { l with waiting := [lr], fill := List.replicate bankWords 1 })
def at_ledOvf : State := led svc (fun l => { l with ovfDue := true, newDrops := 3, newDropBytes := 40, waiting := [lr] })
def at_ledUe : State := led svc (fun l => { l with drain := [{ data := 99, nbytes := 28, ue := true }, { data := 5, nbytes := 8 }] })
def at_wBad : State := well prov (fun w => { w with state := .failed })
def at_fzWait : State := fz prov (fun f => { f with cmd := some { op := 2, word := 0x1FF, acc := false, plan := [] } })
def at_sfRh : State := sf sfR (fun f => { f with held := true, store := [(1, 1)] })
def at_sfBad : State := well sfR (fun w => { w with state := .failed })
def at_sfS : State := sf sfR (fun f => { f with cmd := some .publish, stage := .signing, sigs := (List.range 64).map (fun k => (k, [1])) })
def at_sfA : State := sf sfR (fun f => { f with cmd := some (.attest 3), stage := .signing, body := [9, 9], sigs := [(0, [1]), (1, [2])] })
def at_sfW : State := sf sfR (fun f => { f with cmd := some (.attest 3), stage := .writing })
def at_sfOp : State := sf sfR (fun f => { f with cmd := some .publish, stage := .over .done })
def at_sfOa : State := sf sfR (fun f => { f with cmd := some (.attest 3), stage := .over .fabricError })
def at_hostStart : State :=
  { withRing .provision { ring0 with state := .stopped, logSize := 6, spaceLocal := false } with pins := { linkLost := true } }
def at_gGen : State :=
  { (well prov (fun w => { w with draws := [{ draw := 3, cls := 2, who := .genroot, need := 80, got := zl 60 }],
                                  nextDraw := 4 })) with fuse := { cmd := some { op := 2, word := 0, acc := false, plan := [] } } }
def at_gMask : State :=
  well prov (fun w => { w with draws := [{ draw := 3, cls := 1, who := .remask, need := 48, got := zl 30 }], nextDraw := 4 })
def at_randK : State := runsJ { job1 (ins 0x28 0x41 0 0 (32 * 65536)) with kept := some (zl 32) }
def at_pllZ : State := { State.reset with pins := { zeroize := true } }
def at_ctxSK : State := kx (strm 2 (fun x => { x with kept := some (zl 12) }))
def at_toR : State :=
  ptq prov { reads := [(3, some { req with age := 40000000 })], writes := [(3, some { req with write := true, age := 40000000,
                                                                                               spaceLocal := false, sawLost := true })] }
def at_quar : State := ptq prov { quarReads := [(1, 40000000), (3, 40000000)], quarWrites := [(1, 40000000), (5, 3)] }
def at_stopAt : State := { prov with cycle := 9, porter := { stopped := true, cause := 2, errAddr := 5, stopAt := some 9 } }
def at_fRep : State :=
  well prov (fun w => { w with sources := [(1, { run := 41, fail := 1 }), (3, { fail := 2 })], input := [true], inputOf := 15,
                               inputNow := 2 })
def at_rtDone : State := well prov (fun w => { w with cmd := some .retest, srcOk := 6, startPass := 1, startFail := 8 })
def at_capD : State := well prov (fun w => { w with cmd := some (.capture 3), capCount := 8192, capBits := [(0, 5)] })
def at_rsBar : State :=
  { (well prov (fun w => { w with genCalls := 5000, input := List.replicate 600 true, inputOf := 3, inputNow := 1, failedAt := 9,
                                  failedOf := 1 })) with cycle := 9 }
def at_fl : State := ser prov (fun x => { x with cmdBusy := true })
def at_moveN : State :=
  runsJ (man (job1 (ins 0x30 (seg 2 0) (seg 1 0) 0 (512 * 65536))) [frag 0x4000 512 1 0 false, frag 0x8000 512 2 0 true] [(bufKey 8 0,
                                                                                                                           zs 256)])
def at_putN : State := lentRec (runsK (ins 0x01 0x80 0 0 (9 + 2^24)) 2 (fun x => { x with kept := some (zl 12) }))

/-! ### Witnesses -/

theorem witness_ResetsLeaveTheResetState_2 : ∃ (s : State), (s.mode.pllLocked = true) :=
  ⟨at_cold, by decide⟩

theorem witness_ResetsLeaveTheResetState_3 : ∃ (p : CtlPort) (s : State), (((s.mode.mode = .cleared ∧ p = .sideband ∧ portThere s =
    true) ∨ (s.mode.mode ≠ .cleared ∧ served s = true ∧ holdsReins s p = true))) ∧ (s.pins.zeroize = false) :=
  ⟨Sys2Proof.CtlPort.host, at_sc, by decide, by decide⟩

theorem witness_StartUpEndsInProvision_1 : ∃ (s : State), (s.mode.mode = .inReset) ∧ (s.mode.pllLocked = false) ∧ (s.pins.zeroize =
    false) :=
  ⟨at_rst, by decide, by decide, by decide⟩

theorem witness_StartUpEndsInProvision_2 : ∃ (s : State), (s.mode.mode = .inReset) ∧ (s.mode.pllLocked = false) ∧ (s.pins.zeroize =
    true) :=
  ⟨at_pllZ, by decide, by decide, by decide⟩

theorem witness_StartUpEndsInProvision_3 : ∃ (s : State), (s.mode.mode = .cold) :=
  ⟨at_cold, by decide⟩

theorem witness_StartUpEndsInProvision_4 : ∃ (us : W32) (certsOk : Bool) (s : State), (s.mode.mode = .selfCheck) ∧ (katsOver s = true) ∧
    (wellCan s = true) ∧ (wellGives s 36000 = true) ∧ (s.mode.scFault = 0) ∧ (enginesOk s = true) ∧ ((s.fuse.life = 0 ∨ s.fuse.life = 4
    ∨ (certsOk = true ∧ selfSigned (selfSigns (unitKeys (seraiDraws (selfSteps s)))) = true))) :=
  ⟨0x00000000#32, false, at_sc, by decide, by decide, by decide, by decide, by decide, by decide, by decide⟩

theorem witness_ReinsClaimAndRelease_1 : ∃ (p : CtlPort) (nonce : W32) (s : State), (served s = true) ∧ (nonce ≠ 0) ∧ (¬(p = .host ∧
    s.mode.holder = 2)) :=
  ⟨Sys2Proof.CtlPort.host, 0x00000001#32, at_sc, by decide, by decide, by decide⟩

theorem witness_ReinsClaimAndRelease_2 : ∃ (p : CtlPort) (nonce : W32) (s : State), (served s = true) ∧ ((nonce = 0 ∨ (p = .host ∧
    s.mode.holder = 2))) :=
  ⟨Sys2Proof.CtlPort.host, 0x00000000#32, at_sc, by decide, by decide⟩

theorem witness_ReinsClaimAndRelease_3 : ∃ (p : CtlPort) (s : State), (served s = true) ∧ (holdsReins s p = true) :=
  ⟨Sys2Proof.CtlPort.host, at_sc, by decide, by decide⟩

theorem witness_ReinsClaimAndRelease_4 : ∃ (p : CtlPort) (nonce : W32) (s : State), (served s = true) ∧ ((holdsReins s p = false ∨
    s.mode.nonce ≠ nonce)) :=
  ⟨Sys2Proof.CtlPort.host, 0x00000000#32, at_sc, by decide, by decide⟩

theorem witness_ReinsClaimAndRelease_5 : ∃ (a b : W32) (s : State), (served s = true) ∧ (a ≠ 0) ∧ (b ≠ 0) ∧ (s.mode.holder = 0) :=
  ⟨0x00000001#32, 0x00000001#32, at_pf, by decide, by decide, by decide, by decide⟩

theorem witness_ServiceIsEnteredAndLeft_1 : ∃ (p : CtlPort) (s : State), (served s = true) ∧ (holdsReins s p = true) ∧ (freezeMeets s =
    false) ∧ (serviceOk s = true) :=
  ⟨Sys2Proof.CtlPort.host, at_prov3, by decide, by decide, by decide, by decide⟩

theorem witness_ServiceIsEnteredAndLeft_2 : ∃ (p : CtlPort) (s : State), (served s = true) ∧ (holdsReins s p = true) ∧ (s.mode.mode =
    .service) ∧ (s.mode.stopping = false) :=
  ⟨Sys2Proof.CtlPort.host, svc, by decide, by decide, by decide, by decide⟩

theorem witness_ServiceIsEnteredAndLeft_3 : ∃ (s : State), (draining s = true) ∧ (drained s = true) :=
  ⟨at_svcStop, by decide, by decide⟩

theorem witness_ServiceIsEnteredAndLeft_4 : ∃ (p : CtlPort) (s : State), (served s = true) ∧ (holdsReins s p = false) :=
  ⟨Sys2Proof.CtlPort.sideband, at_sc, by decide, by decide⟩

theorem witness_ServiceIsEnteredAndLeft_5 : ∃ (p : CtlPort) (s : State), (served s = true) ∧ (holdsReins s p = true) ∧ (freezeMeets s =
    true) :=
  ⟨Sys2Proof.CtlPort.host, at_frzAt, by decide, by decide, by decide⟩

theorem witness_ServiceIsEnteredAndLeft_6 : ∃ (p : CtlPort) (s : State), (served s = true) ∧ (holdsReins s p = true) ∧ (freezeMeets s =
    false) ∧ (serviceOk s = false) :=
  ⟨Sys2Proof.CtlPort.host, at_sc, by decide, by decide, by decide, by decide⟩

theorem witness_RecoveriesRun_1 : ∃ (p : CtlPort) (scope string : BitVec 2) (flush rlclr target : Bool) (s : State), (served s = true) ∧
    (holdsReins s p = true) ∧ (scope ≠ 3) ∧ (freezeMeets s = false) ∧ (recoverOk s scope string = true) ∧ ((scope = 0 → s.pins.freeze =
    false)) :=
  ⟨Sys2Proof.CtlPort.host, 0x0#2, 0x0#2, false, false, false, at_cont, by decide, by decide, by decide, by decide, by decide, by decide⟩

theorem witness_RecoveriesRun_2 : ∃ (s : State), (draining s = true) ∧ (drained s = false) ∧ (s.mode.recov = none) :=
  ⟨at_svcStop1, by decide, by decide, by decide⟩

theorem witness_RecoveriesRun_3 : ∃ (n : Fin 4) (s : State), (s.mode.autoStr = true) ∧ (s.mode.mode = .service) ∧ (s.mode.recov = none)
    ∧ (tb s.mode.strings n.val = true) :=
  ⟨0, at_svcAuto, by decide, by decide, by decide, by decide⟩

theorem witness_RecoveriesRun_4 : ∃ (v : Recov) (s : State), (s.mode.recov = some v) ∧ (stepOver s v = true) ∧ (v.abandonFreeze = false)
    ∧ (v.abandonDrain = false) ∧ (v.step ≠ 9) :=
  ⟨_, at_recov, rfl, by decide, by decide, by decide, by decide⟩

theorem witness_RecoveriesRun_5 : ∃ (v : Recov) (s : State), (s.mode.recov = some v) ∧ (v.abandonFreeze = false) ∧ (v.abandonDrain =
    false) ∧ (v.step = 9) :=
  ⟨_, at_recov9, rfl, by decide, by decide, by decide⟩

theorem witness_PowerSwitches_1 : ∃ (d : Fin 3) (s : State), (portsServed s = true) ∧ ((getDom s d.val).phase = .waking) ∧ ((getDom s
    d.val).req = true) :=
  ⟨0, at_dWake, by decide, by decide, by decide⟩

theorem witness_PowerSwitches_2 : ∃ (d : Fin 3) (s : State), (portsServed s = true) ∧ ((getDom s d.val).phase = .gating) ∧ ((getDom s
    d.val).wakeAfter = false) :=
  ⟨1, at_dGating, by decide, by decide, by decide⟩

theorem witness_PowerSwitches_3 : ∃ (d : Fin 3) (gating : Bool) (s : State), (portsServed s = true) ∧ ((getDom s d.val).phase = (if
    gating then .gating else .waking)) :=
  ⟨0, false, at_dWake, by decide, by decide⟩

theorem witness_GatingRuns_1 : ∃ (p : CtlPort) (d : BitVec 2) (s : State), (mayTake s p raCmd 4 = true) ∧ (raFault s d = none) ∧
    ((getDom s d.toNat).phase = .gated) ∧ ((getDom s d.toNat).fault = false) :=
  ⟨Sys2Proof.CtlPort.host, 0x1#2, at_dGated, by decide, by decide, by decide, by decide⟩

theorem witness_GatingRuns_2 : ∃ (p : CtlPort) (d : BitVec 2) (s : State), (mayTake s p raCmd 4 = true) ∧ (raFault s d = none) ∧
    ((getDom s d.toNat).phase = .powered) ∧ (domKept s d.toNat = false) :=
  ⟨Sys2Proof.CtlPort.host, 0x0#2, prov, by decide, by decide, by decide, by decide⟩

theorem witness_GatingRuns_3 : ∃ (d : Fin 3) (s : State), (drainMay s d.val = true) :=
  ⟨0, at_svcAutoP, by decide⟩

theorem witness_GatingRuns_4 : ∃ (d : Fin 3) (s : State), (portsServed s = true) ∧ ((getDom s d.val).phase = .draining) :=
  ⟨1, at_dDrain, by decide, by decide⟩

theorem witness_GatingRuns_5 : ∃ (d : Fin 3) (s : State), (portsServed s = true) ∧ ((getDom s d.val).phase = .draining) ∧ (domEmpty s
    d.val = true) ∧ (domKept s d.val = false) :=
  ⟨1, at_dDrain, by decide, by decide, by decide, by decide⟩

theorem witness_GatingRuns_6 : ∃ (n : Fin 2) (s : State), (s.mode.mode = .service) ∧ (tb s.ration.auto n.val = true) ∧ ((getDom s
    n.val).phase = .gated) ∧ ((getDom s n.val).fault = false) ∧ (yokeWants s n.val = true) :=
  ⟨0, at_trainWake, by decide, by decide, by decide, by decide, by decide⟩

theorem witness_EpochsAndThrottles_1 : ∃ (s : State), (awake s = true) :=
  ⟨at_cold, by decide⟩

theorem witness_EpochsAndThrottles_2 : ∃ (p : CtlPort) (s : State), (mayTake s p 0xC00038 4 = true) :=
  ⟨Sys2Proof.CtlPort.host, at_sc, by decide⟩

theorem witness_EpochsAndThrottles_3 : ∃ (s : State), (s.pins.thermal = false) ∧ (awake s = true) ∧ (s.ration.thermal = false) :=
  ⟨at_cold, by decide, by decide, by decide⟩

theorem witness_EpochsAndThrottles_5 : ∃ (s : State), (s.ration.thermal = true) ∧ (s.pins.thermal = false) :=
  ⟨at_thermal, by decide, by decide⟩

theorem witness_EpochsAndThrottles_6 : ∃ (s : State), ((s.ration.thermal = false ∨ s.pins.thermal = true)) :=
  ⟨at_rst, by decide⟩

theorem witness_DoorbellAndStart_1 : ∃ (p : CtlPort) (ring : Fin 4096) (s : State), (served s = true) ∧ ((getRing s ring.val).state =
    .running) :=
  ⟨Sys2Proof.CtlPort.host, 3, at_ring, by decide, by decide⟩

theorem witness_DoorbellAndStart_2 : ∃ (p : CtlPort) (ring : Fin 4096) (s : State), (served s = true) ∧ ((getRing s ring.val).state ≠
    .running) :=
  ⟨Sys2Proof.CtlPort.host, 0, at_sc, by decide, by decide⟩

theorem witness_DoorbellAndStart_3 : ∃ (p : CtlPort) (ring : Fin 4096) (s : State), (mayTake s p (wsCmd ring.val) 4 = true) ∧
    ((s.mode.mode = .provision ∨ s.mode.mode = .service)) ∧ (((getRing s ring.val).state = .disabled ∨ (getRing s ring.val).state =
    .stopped)) ∧ ((getRing s ring.val).bound = true) ∧ (6 ≤ (getRing s ring.val).logSize.toNat) ∧ ((getRing s ring.val).logSize.toNat ≤
    16) ∧ ((getRing s ring.val).base ≠ 0) ∧ ((getRing s ring.val).headAddr ≠ 0) ∧ (((getRing s ring.val).spaceLocal = true ∨
    s.pins.linkLost = false)) :=
  ⟨Sys2Proof.CtlPort.host, 3, at_ringProv, by decide, by decide, by decide, by decide, by decide, by decide, by decide, by decide, by
    decide⟩

theorem witness_DoorbellAndStart_4 : ∃ (p : CtlPort) (ring : Fin 4096) (s : State), (mayTake s p (wsCmd ring.val) 4 = true) ∧
    ((s.mode.mode = .provision ∨ s.mode.mode = .service)) ∧ (((getRing s ring.val).state = .disabled ∨ (getRing s ring.val).state =
    .stopped)) ∧ ((getRing s ring.val).bound = true) ∧ (6 ≤ (getRing s ring.val).logSize.toNat) ∧ ((getRing s ring.val).logSize.toNat ≤
    16) ∧ ((getRing s ring.val).base ≠ 0) ∧ ((getRing s ring.val).headAddr ≠ 0) ∧ ((getRing s ring.val).spaceLocal = false) ∧
    (s.pins.linkLost = true) :=
  ⟨.host, 3, at_hostStart, by decide, by decide, by decide, by decide, by decide, by decide, by decide, by decide, by decide, by decide⟩

theorem witness_ScansRun_1 : ∃ (ring : Fin 4096) (s : State), ((getRing s ring.val).pending = true) ∧ ((getRing s ring.val).scanning =
    false) ∧ ((getRing s ring.val).scanHeld = false) ∧ (scanMay s ring.val = true) ∧ ((getRing s ring.val).inflight < 1024) :=
  ⟨3, at_ringPend, by decide, by decide, by decide, by decide, by decide⟩

theorem witness_ScansRun_2 : ∃ (ring : Fin 4096) (s : State), ((getRing s ring.val).scanHeld = true) ∧ ((getRing s ring.val).inflight <
    1024) ∧ (scanMay s ring.val = true) :=
  ⟨3, at_ringHeld, by decide, by decide, by decide⟩

theorem witness_ScansRun_3 : ∃ (ring : Fin 4096) (s : State), ((getRing s ring.val).scanning = true) ∧ ((getRing s ring.val).waitSlot =
    true) ∧ (slotFree s ring.val = true) ∧ (scanMay s ring.val = true) ∧ (examined (getRing s ring.val) = none) :=
  ⟨3, at_ringWait, by decide, by decide, by decide, by decide, by decide⟩

theorem witness_ScansRun_4 : ∃ (ring : Fin 4096) (ws : List W64) (s : State), ((getRing s ring.val).scanning = true) ∧ ((getRing s
    ring.val).waitSlot = true) ∧ (slotFree s ring.val = true) ∧ (scanMay s ring.val = true) ∧ (examined (getRing s ring.val) = some ws)
    ∧ (e0Phase (ws.getD 0 0) = expectedPhase (getRing s ring.val).taken.toNat (getRing s ring.val).logSize.toNat) :=
  ⟨3, _, at_ringWait2, by decide, by decide, by decide, by decide, rfl, by decide⟩

theorem witness_StopResetAndStatus_1 : ∃ (p : CtlPort) (ring : Fin 4096) (s : State), (mayTake s p (wsCmd ring.val) 4 = true) ∧
    ((getRing s ring.val).state = .running) ∧ (twf none s.ai.accesses = true) :=
  ⟨Sys2Proof.CtlPort.host, 3, at_ring, by decide, by decide, by decide⟩

theorem witness_StopResetAndStatus_2 : ∃ (p : CtlPort) (ring : Fin 4096) (s : State), (mayTake s p (wsCmd ring.val) 4 = true) ∧
    ((getRing s ring.val).state ≠ .resetting) :=
  ⟨Sys2Proof.CtlPort.host, 0, at_sc, by decide, by decide⟩

theorem witness_StopResetAndStatus_3 : ∃ (ring : Fin 4096) (s : State), ((getRing s ring.val).state = .resetting) ∧ (resetOver s
    ring.val = true) :=
  ⟨3, at_ringRst, by decide, by decide⟩

theorem witness_StopResetAndStatus_4 : ∃ (ring : Fin 4096) (s : State), ((getRing s ring.val).holding = true) ∧ ((getRing s
    ring.val).msgHeld = true) ∧ ((getRing s ring.val).irqEn = true) :=
  ⟨3, at_ringHold, by decide, by decide, by decide⟩

theorem witness_StopResetAndStatus_5 : ∃ (ring : Fin 4096) (s : State), ((getRing s ring.val).holding = true) ∧ ((getRing s
    ring.val).msgHeld = false) :=
  ⟨3, at_ringHold2, by decide, by decide⟩

theorem witness_StopResetAndStatus_6 : ∃ (j : Nat) (s : State), (jobExists s j = true) ∧ ((getJob s j).seat = .ended) ∧ ((getJob s
    j).noStatus = false) ∧ (writesDone s j = true) ∧ (statusMay s (getJob s j).ring = true) :=
  ⟨0, at_jobEnded, by decide, by decide, by decide, by decide, by decide⟩

theorem witness_RoutesAndUnitControls_1 : ∃ (p : CtlPort) (route : BitVec 10) (slot : BitVec 5) (insn : W64) (s : State), (mayTake s p
    (rtSlot route.toNat slot.toNat) 8 = true) ∧ (s.mode.mode = .provision) ∧ (route ≠ 0) :=
  ⟨Sys2Proof.CtlPort.host, 0x001#10, 0x00#5, 0x0000000000000000#64, prov, by decide, by decide, by decide⟩

theorem witness_RoutesAndUnitControls_2 : ∃ (p : CtlPort) (route : BitVec 10) (rlen : BitVec 6) (s : State), (mayTake s p rtCmd 4 =
    true) ∧ (s.mode.mode = .provision) ∧ (s.routes.busy = false) :=
  ⟨Sys2Proof.CtlPort.host, 0x000#10, 0x00#6, prov, by decide, by decide, by decide⟩

theorem witness_RoutesAndUnitControls_3 : ∃ (s : State), (s.routes.busy = true) ∧ (1 ≤ s.routes.rlen) ∧ (s.routes.rlen ≤ 32) ∧
    (s.routes.route ≠ 0) :=
  ⟨at_rtBusy, by decide, by decide, by decide, by decide⟩

theorem witness_RoutesAndUnitControls_4 : ∃ (p : CtlPort) (route : BitVec 10) (s : State), (mayTake s p rtCmd 4 = true) ∧ (s.mode.mode =
    .provision) ∧ (s.routes.busy = false) ∧ (route ≠ 0) :=
  ⟨Sys2Proof.CtlPort.host, 0x001#10, prov, by decide, by decide, by decide, by decide⟩

theorem witness_RoutesAndUnitControls_5 : ∃ (p : CtlPort) (u : Fin 32) (v : Bool) (s : State), (mayTake s p (uwCtrl u.val) 4 = true) :=
  ⟨Sys2Proof.CtlPort.host, 0, false, at_sc, by decide⟩

theorem witness_RoutesAndUnitControls_6 : ∃ (p : CtlPort) (u : Fin 32) (s : State), (mayTake s p (uwCtrl u.val) 4 = true) ∧ (s.mode.mode
    = .provision) :=
  ⟨Sys2Proof.CtlPort.host, 0, prov, by decide, by decide⟩

theorem witness_RoutesAndUnitControls_7 : ∃ (p : CtlPort) (u : Fin 32) (s : State), (mayTake s p (uwCtrl u.val) 4 = true) ∧ (s.mode.mode
    = .provision) :=
  ⟨Sys2Proof.CtlPort.host, 0, prov, by decide, by decide⟩

theorem witness_RoutesAndUnitControls_8 : ∃ (p : CtlPort) (u : Fin 32) (s : State), (mayTake s p (uwCtrl u.val) 4 = true) ∧ (s.mode.mode
    ≠ .provision) ∧ (quarRead s u.val = false) :=
  ⟨Sys2Proof.CtlPort.host, 0, at_sc, by decide, by decide, by decide⟩

theorem witness_AdapterPinsAct_1 : ∃ (s : State), (s.pins.icRst = false) ∧ (awake s = true) ∧ ((∀ k, k < 4 → outstanding s k = [])) :=
  ⟨at_cold, by decide, by decide, by decide⟩

theorem witness_AdapterPinsAct_2 : ∃ (s : State), (s.pins.icRst = false) ∧ (awake s = true) ∧ (s.sided = true) :=
  ⟨atLast svc .heartbeat true, by decide, by decide, by decide⟩

theorem witness_AdapterPinsAct_3 : ∃ (s : State), (s.pins.icRst = true) ∧ (awake s = true) :=
  ⟨at_icRst, by decide, by decide⟩

theorem witness_AdapterPinsAct_4 : ∃ (s : State), (awake s = true) :=
  ⟨at_cold, by decide⟩

theorem witness_AdapterPinsAct_6 : ∃ (s : State), (s.pins.freeze = false) ∧ ((s.mode.mode = .provision ∨ s.mode.mode = .service)) :=
  ⟨prov, by decide, by decide⟩

theorem witness_AdapterPinsAct_7 : ∃ (v : Recov) (s : State), (s.pins.freeze = false) ∧ (s.mode.mode = .recovery) ∧ (s.mode.recov = some
    v) :=
  ⟨_, at_recov, by decide, by decide, rfl⟩

theorem witness_AdapterPinsAct_8 : ∃ (s : State), (s.pins.freeze = true) :=
  ⟨at_frz, by decide⟩

theorem witness_LinkLossFreezesHostRings_1 : ∃ (s : State), (s.pins.linkLost = false) ∧ (portsServed s = true) ∧ (s.ai.untranslated =
    []) ∧ ((∀ k, k < 4 → (getPort s k).queue = [])) ∧ (twf {} s.rings = true) :=
  ⟨svc, by decide, by decide, by decide, by decide, by decide⟩

theorem witness_LinkLossFreezesHostRings_2 : ∃ (s : State), (s.pins.linkLost = false) ∧ (portsServed s = true) :=
  ⟨at_sc, by decide, by decide⟩

theorem witness_LinkLossFreezesHostRings_3 : ∃ (s : State), (s.pins.linkLost = true) ∧ (portsServed s = true) :=
  ⟨at_lost, by decide, by decide⟩

theorem witness_FunctionLevelResetAndLatency_1 : ∃ (func : W16) (s : State), (portsServed s = true) ∧ (s.pins.icRst = false) ∧ (func ∉
    s.ai.flrs) ∧ (s.ai.flrs.length < 8) ∧ (twf {} s.rings = true) ∧ (twf {} s.jobs = true) :=
  ⟨7, svc, by decide, by decide, by decide, by decide, by decide, by decide⟩

theorem witness_FunctionLevelResetAndLatency_3 : ∃ (s : State), (s.mode.mode = .service) ∧ (ltrBusy s = false) ∧ (s.ai.ltr ≠
    s.ai.ltrIdle) :=
  ⟨{ svc with ai := { svc.ai with ltr := 5 } }, by decide, by decide, by decide⟩

theorem witness_TranslationCacheRuns_1 : ∃ (itag : BitVec 5) (func : W16) (pv : Bool) (pasid : BitVec 20) (global : Bool) (range : W64)
    (s : State), (awake s = true) ∧ (s.pins.icRst = false) ∧ ((s.ai.invs.filter (fun v => v.itag.isSome)).length < 32) :=
  ⟨0x00#5, 0x0000#16, false, 0x00000#20, false, 0x0000000000000000#64, at_cold, by decide, by decide, by decide⟩

theorem witness_TranslationCacheRuns_2 : ∃ (itag : BitVec 5) (s : State), (s.pins.icRst = false) ∧ (s.ai.icStop = false) ∧
    (s.ai.invs.any (fun v => v.itag = some itag && v.uses = []) = true) :=
  ⟨0x03#5, at_inv, by decide, by decide, by decide⟩

theorem witness_TranslationCacheRuns_3 : ∃ (p : CtlPort) (s : State), (mayTake s p 0x800018 4 = true) ∧ (s.ai.atcBusy = false) :=
  ⟨Sys2Proof.CtlPort.host, at_sc, by decide, by decide⟩

theorem witness_TranslationCacheRuns_4 : ∃ (p : CtlPort) (func : W16) (s : State), (mayTake s p 0x800018 4 = true) ∧ (s.ai.atcBusy =
    false) :=
  ⟨Sys2Proof.CtlPort.host, 0x0000#16, at_sc, by decide, by decide⟩

theorem witness_TranslationCacheRuns_5 : ∃ (tag : BitVec 6) (r w : Bool) (logSize : BitVec 6) (addr : W64) (q : AtsReq) (s : State), (12
    ≤ logSize.toNat) ∧ (logSize.toNat ≤ 30) ∧ (s.pins.icRst = false) ∧ (tget none s.ai.atsOut tag.toNat = some q) ∧ (q.dropped = false)
    ∧ (isStale q logSize.toNat = false) ∧ ((if q.write then w else r) = true) ∧ ((∀ x, x ∈ s.ai.untranslated → waitsFor q x = true → (if
    x.write then w else r) = true)) :=
  ⟨0x03#6, true, false, 0x0c#6, 0x0000000000000000#64, _, at_ats, by decide, by decide, by decide, rfl, by decide, by decide, by decide,
    by decide⟩

theorem witness_ResponsesEndRequests_1 : ∃ (port : Fin 4) (tag : Byte) (beat : BitVec 3) (data : BitVec 1024) (r : Req) (s : State),
    (s.pins.icRst = false) ∧ (tget 0 (getPort s port.val).quarReads tag.toNat = 0) ∧ (tget none (getPort s port.val).reads tag.toNat =
    some r) :=
  ⟨0, 9, 0, 0, lastReq false, { svc with ai := { ports := [(0, { reads := [(9, some (lastReq false))] })] } }, by decide, by decide, by
    decide⟩

theorem witness_ResponsesEndRequests_2 : ∃ (port : Fin 4) (tag : Byte) (beat : BitVec 3) (status : BitVec 2) (data : BitVec 1024) (r :
    Req) (s : State), (s.pins.icRst = false) ∧ (status ≠ 0) ∧ (tget 0 (getPort s port.val).quarReads tag.toNat = 0) ∧ (tget none
    (getPort s port.val).reads tag.toNat = some r) :=
  ⟨0, 9, 0, 1, 0, lastReq false, { svc with ai := { ports := [(0, { reads := [(9, some (lastReq false))] })] } }, by decide, by decide,
    by decide, by decide⟩

theorem witness_ResponsesEndRequests_3 : ∃ (port : Fin 4) (tag : Byte) (beat : BitVec 3) (status : BitVec 2) (data : BitVec 1024) (r :
    Req) (s : State), (s.pins.icRst = false) ∧ ((headersAllowed s = false ∨ ∀ k, k < 4 → (getPort s k).queue = [])) ∧ (tget 0 (getPort s
    port.val).quarReads tag.toNat = 0) ∧ (tget none (getPort s port.val).reads tag.toNat = some r) ∧ (r.write = false) ∧ (tget none
    s.ai.accesses r.access = none) :=
  ⟨0, 9, 0, 0, 0, lastReq false, { svc with ai := { ports := [(0, { reads := [(9, some (lastReq false))] })] } }, by decide, by decide,
    by decide, by decide, by decide, by decide⟩

theorem witness_ResponsesEndRequests_4 : ∃ (port : Fin 4) (tag : Byte) (beat : BitVec 3) (data : BitVec 1024) (r : Req) (a : Access) (s
    : State), (s.pins.icRst = false) ∧ ((headersAllowed s = false ∨ ∀ k, k < 4 → (getPort s k).queue = [])) ∧ (tget 0 (getPort s
    port.val).quarReads tag.toNat = 0) ∧ (tget none (getPort s port.val).reads tag.toNat = some r) ∧ (r.write = false) ∧ (r.fail = none)
    ∧ (tget none s.ai.accesses r.access = some a) ∧ (1 < a.left) :=
  ⟨0, 9, 0, 0, lastReq false, { lastAcc .heartbeat false with left := 2 }, { atLast svc .heartbeat false with ai := { (atLast svc
    .heartbeat false).ai with accesses := [(77, some { lastAcc .heartbeat false with left := 2 })] } }, by decide, by decide, by decide,
    by decide, by decide, by decide, by decide, by decide⟩

theorem witness_ResponsesEndRequests_5 : ∃ (port : Fin 4) (tag : Byte) (beat : BitVec 3) (status : BitVec 2) (data : BitVec 1024) (s :
    State), (s.pins.icRst = false) ∧ (tget 0 (getPort s port.val).quarReads tag.toNat ≠ 0) :=
  ⟨0, 9, 0, 0, 0, { svc with ai := { ports := [(0, { quarReads := [(9, 5)] })] } }, by decide, by decide⟩

theorem witness_ResponsesEndRequests_6 : ∃ (port : Fin 4) (tag : Byte) (status : BitVec 2) (r : Req) (s : State), (s.pins.icRst = false)
    ∧ ((headersAllowed s = false ∨ ∀ k, k < 4 → (getPort s k).queue = [])) ∧ (tget 0 (getPort s port.val).quarWrites tag.toNat = 0) ∧
    (tget none (getPort s port.val).writes tag.toNat = some r) ∧ (r.write = true) ∧ (tget none s.ai.accesses r.access = none) :=
  ⟨0, 9, 0, lastReq true, { svc with ai := { ports := [(0, { writes := [(9, some (lastReq true))] })] } }, by decide, by decide, by
    decide, by decide, by decide, by decide⟩

theorem witness_ResponsesEndRequests_7 : ∃ (port : Fin 4) (tag : Byte) (r : Req) (a : Access) (s : State), (s.pins.icRst = false) ∧
    ((headersAllowed s = false ∨ ∀ k, k < 4 → (getPort s k).queue = [])) ∧ (tget 0 (getPort s port.val).quarWrites tag.toNat = 0) ∧
    (tget none (getPort s port.val).writes tag.toNat = some r) ∧ (r.write = true) ∧ (tget none s.ai.accesses r.access = some a) ∧ (1 <
    a.left) :=
  ⟨0, 9, lastReq true, { lastAcc .heartbeat true with left := 2 }, { atLast svc .heartbeat true with ai := { (atLast svc .heartbeat
    true).ai with accesses := [(77, some { lastAcc .heartbeat true with left := 2 })] } }, by decide, by decide, by decide, by decide,
    by decide, by decide, by decide⟩

theorem witness_ResponsesEndRequests_8 : ∃ (port : Fin 4) (tag : Byte) (status : BitVec 2) (s : State), (s.pins.icRst = false) ∧ (tget 0
    (getPort s port.val).quarWrites tag.toNat ≠ 0) :=
  ⟨0, 9, 0, { svc with ai := { ports := [(0, { quarWrites := [(9, 5)] })] } }, by decide, by decide⟩

theorem witness_ResponsesEndRequests_10 : ∃ (port : Fin 4) (tag : Byte) (beat : BitVec 3) (status : BitVec 2) (data : BitVec 1024) (r :
    Req) (s : State), (s.pins.icRst = false) ∧ (tget 0 (getPort s port.val).quarReads tag.toNat = 0) ∧ (tget none (getPort s
    port.val).reads tag.toNat = some r) :=
  ⟨0, 9, 0, 0, 0, lastReq false, { svc with ai := { ports := [(0, { reads := [(9, some (lastReq false))] })] } }, by decide, by decide,
    by decide⟩

theorem witness_ResponsesEndRequests_11 : ∃ (port : Fin 4) (tag : Byte) (status : BitVec 2) (r : Req) (s : State), (s.pins.icRst =
    false) ∧ (tget 0 (getPort s port.val).quarWrites tag.toNat = 0) ∧ (tget none (getPort s port.val).writes tag.toNat = some r) :=
  ⟨0, 9, 0, lastReq true, { svc with ai := { ports := [(0, { writes := [(9, some (lastReq true))] })] } }, by decide, by decide, by
    decide⟩

theorem witness_ResponsesEndRequests_12 : ∃ (port : Fin 4) (tag : Byte) (beat : BitVec 3) (status : BitVec 2) (data : BitVec 1024) (r :
    Req) (a : Access) (f : Nat) (s : State), (lastPart s false port.val tag.toNat r a = true) ∧ (a.who = .record f) ∧ (lowerFail a.fail
    (beatFail r beat.toNat status) = none) ∧ (fillExists s f = true) :=
  ⟨0, 9, 0, 0, 0, lastReq false, lastAcc (.record 4) false, 4, atLast ({ prov with mint := { fills := [(4, {})], nextFill := 5 } })
    (.record 4) false, by decide, by decide, by decide, by decide⟩

theorem witness_ResponsesEndRequests_13 : ∃ (port : Fin 4) (tag : Byte) (beat : BitVec 3) (status : BitVec 2) (data : BitVec 1024) (r :
    Req) (a : Access) (f : Nat) (x : Nat) (st : Status) (s : State), (lastPart s false port.val tag.toNat r a = true) ∧ (a.who = .record
    f) ∧ (lowerFail a.fail (beatFail r beat.toNat status) = some (x, st)) ∧ (fillExists s f = true) :=
  ⟨0, 9, 0, 1, 0, lastReq false, lastAcc (.record 4) false, 4, _, _, atLast ({ prov with mint := { fills := [(4, {})], nextFill := 5 }
    }) (.record 4) false, by decide, by decide, rfl, by decide⟩

theorem witness_ResponsesEndRequests_14 : ∃ (port : Fin 4) (tag : Byte) (beat : BitVec 3) (status : BitVec 2) (data : BitVec 1024) (r :
    Req) (a : Access) (f : Nat) (s : State), (lastPart s false port.val tag.toNat r a = true) ∧ (a.who = .bale f) ∧ (lowerFail a.fail
    (beatFail r beat.toNat status) = none) ∧ (fillExists s f = true) :=
  ⟨0, 9, 0, 0, 0, lastReq false, lastAcc (.bale 4) false, 4, atLast ({ prov with mint := { fills := [(4, {})], nextFill := 5 } }) (.bale
    4) false, by decide, by decide, by decide, by decide⟩

theorem witness_ResponsesEndRequests_15 : ∃ (port : Fin 4) (tag : Byte) (beat : BitVec 3) (status : BitVec 2) (data : BitVec 1024) (r :
    Req) (a : Access) (f : Nat) (x : Nat) (st : Status) (s : State), (lastPart s false port.val tag.toNat r a = true) ∧ (a.who = .bale
    f) ∧ (lowerFail a.fail (beatFail r beat.toNat status) = some (x, st)) ∧ (fillExists s f = true) :=
  ⟨0, 9, 0, 1, 0, lastReq false, lastAcc (.bale 4) false, 4, _, _, atLast ({ prov with mint := { fills := [(4, {})], nextFill := 5 } })
    (.bale 4) false, by decide, by decide, rfl, by decide⟩

theorem witness_ResponsesEndRequests_16 : ∃ (port : Fin 4) (tag : Byte) (beat : BitVec 3) (status : BitVec 2) (data : BitVec 1024) (r :
    Req) (a : Access) (s : State), (lastPart s false port.val tag.toNat r a = true) ∧ (a.who = .charterRead) ∧ (lowerFail a.fail
    (beatFail r beat.toNat status) = none) ∧ (s.mint.chStage = .reading) :=
  ⟨0, 9, 0, 0, 0, lastReq false, lastAcc (.charterRead) false, atLast ({ prov with mint := { chStage := .reading } }) (.charterRead)
    false, by decide, by decide, by decide, by decide⟩

theorem witness_ResponsesEndRequests_17 : ∃ (port : Fin 4) (tag : Byte) (beat : BitVec 3) (status : BitVec 2) (data : BitVec 1024) (r :
    Req) (a : Access) (x : Nat) (st : Status) (s : State), (lastPart s false port.val tag.toNat r a = true) ∧ (a.who = .charterRead) ∧
    (lowerFail a.fail (beatFail r beat.toNat status) = some (x, st)) ∧ (s.mint.chStage = .reading) :=
  ⟨0, 9, 0, 1, 0, lastReq false, lastAcc (.charterRead) false, _, _, atLast ({ prov with mint := { chStage := .reading } })
    (.charterRead) false, by decide, by decide, rfl, by decide⟩

theorem witness_ResponsesEndRequests_18 : ∃ (port : Fin 4) (tag : Byte) (beat : BitVec 3) (status : BitVec 2) (data : BitVec 1024) (r :
    Req) (a : Access) (s : State), (lastPart s false port.val tag.toNat r a = true) ∧ (a.who = .tallyRead) ∧ (lowerFail a.fail (beatFail
    r beat.toNat status) = none) ∧ (s.mint.chStage = .tally) :=
  ⟨0, 9, 0, 0, 0, lastReq false, lastAcc (.tallyRead) false, atLast ({ prov with mint := { chStage := .tally } }) (.tallyRead) false, by
    decide, by decide, by decide, by decide⟩

theorem witness_ResponsesEndRequests_19 : ∃ (port : Fin 4) (tag : Byte) (beat : BitVec 3) (status : BitVec 2) (data : BitVec 1024) (r :
    Req) (a : Access) (x : Nat) (st : Status) (s : State), (lastPart s false port.val tag.toNat r a = true) ∧ (a.who = .tallyRead) ∧
    (lowerFail a.fail (beatFail r beat.toNat status) = some (x, st)) ∧ (s.mint.chStage = .tally) :=
  ⟨0, 9, 0, 1, 0, lastReq false, lastAcc (.tallyRead) false, _, _, atLast ({ prov with mint := { chStage := .tally } }) (.tallyRead)
    false, by decide, by decide, rfl, by decide⟩

theorem witness_ResponsesEndRequests_20 : ∃ (port : Fin 4) (tag : Byte) (beat : BitVec 3) (status : BitVec 2) (data : BitVec 1024) (r :
    Req) (a : Access) (j k off : Nat) (s : State), (lastPart s false port.val tag.toNat r a = true) ∧ (a.who = .jobRead j k off) ∧
    (lowerFail a.fail (beatFail r beat.toNat status) = none) ∧ (jobExists s j = true) :=
  ⟨0, 9, 0, 0, 0, lastReq false, lastAcc (.jobRead 1 2 64) false, 1, 2, 64, atLast (runs 0) (.jobRead 1 2 64) false, by decide, by
    decide, by decide, by decide⟩

theorem witness_ResponsesEndRequests_21 : ∃ (port : Fin 4) (tag : Byte) (beat : BitVec 3) (status : BitVec 2) (data : BitVec 1024) (r :
    Req) (a : Access) (j k off : Nat) (x : Nat) (st : Status) (s : State), (lastPart s false port.val tag.toNat r a = true) ∧ (a.who =
    .jobRead j k off) ∧ (lowerFail a.fail (beatFail r beat.toNat status) = some (x, st)) ∧ (jobExists s j = true) :=
  ⟨0, 9, 0, 1, 0, lastReq false, lastAcc (.jobRead 1 2 64) false, 1, 2, 64, _, _, atLast (runs 0) (.jobRead 1 2 64) false, by decide, by
    decide, rfl, by decide⟩

theorem witness_ResponsesEndRequests_22 : ∃ (port : Fin 4) (tag : Byte) (beat : BitVec 3) (status : BitVec 2) (data : BitVec 1024) (r :
    Req) (a : Access) (j b : Nat) (s : State), (lastPart s false port.val tag.toNat r a = true) ∧ (a.who = .manifest j b) ∧ (lowerFail
    a.fail (beatFail r beat.toNat status) = none) ∧ (jobExists s j = true) :=
  ⟨0, 9, 0, 0, 0, lastReq false, lastAcc (.manifest 1 0) false, 1, 0, atLast (runs 0) (.manifest 1 0) false, by decide, by decide, by
    decide, by decide⟩

theorem witness_ResponsesEndRequests_23 : ∃ (port : Fin 4) (tag : Byte) (beat : BitVec 3) (status : BitVec 2) (data : BitVec 1024) (r :
    Req) (a : Access) (j b : Nat) (x : Nat) (st : Status) (s : State), (lastPart s false port.val tag.toNat r a = true) ∧ (a.who =
    .manifest j b) ∧ (lowerFail a.fail (beatFail r beat.toNat status) = some (x, st)) ∧ (jobExists s j = true) :=
  ⟨0, 9, 0, 1, 0, lastReq false, lastAcc (.manifest 1 0) false, 1, 0, _, _, atLast (runs 0) (.manifest 1 0) false, by decide, by decide,
    rfl, by decide⟩

theorem witness_ResponsesEndRequests_24 : ∃ (port : Fin 4) (tag : Byte) (beat : BitVec 3) (status : BitVec 2) (data : BitVec 1024) (r :
    Req) (a : Access) (k first : Nat) (s : State), (lastPart s false port.val tag.toNat r a = true) ∧ (a.who = .scan k first) ∧
    (lowerFail a.fail (beatFail r beat.toNat status) = none) ∧ (a.len = 64) ∧ (first = (getRing s k).taken.toNat) ∧ ((getRing s
    k).scanning = true) ∧ ((getRing s k).waitSlot = false) ∧ ((getRing s k).scanGot = []) ∧ (scanMay s k = true) ∧ (e0Phase (w64 (ofLe
    (slice (hasRead a r beat.toNat data) 0 8))) ≠ expectedPhase (getRing s k).taken.toNat (getRing s k).logSize.toNat) :=
  ⟨0, 9, 0, 0, 0, lastReq false, lastAcc (.scan 3 0) false, 3, 0, atLast (scans) (.scan 3 0) false, by decide, by decide, by decide, by
    decide, by decide, by decide, by decide, by decide, by decide, by decide +kernel⟩

theorem witness_ResponsesEndRequests_25 : ∃ (port : Fin 4) (tag : Byte) (beat : BitVec 3) (status : BitVec 2) (data : BitVec 1024) (r :
    Req) (a : Access) (k first : Nat) (s : State), (lastPart s false port.val tag.toNat r a = true) ∧ (a.who = .scan k first) ∧
    (lowerFail a.fail (beatFail r beat.toNat status) = none) ∧ (a.len = 64) ∧ (first = (getRing s k).taken.toNat) ∧ ((getRing s
    k).scanning = true) ∧ ((getRing s k).waitSlot = false) ∧ ((getRing s k).scanGot = []) ∧ (scanMay s k = true) ∧ (e0Phase (w64 (ofLe
    (slice (hasRead a r beat.toNat data) 0 8))) = expectedPhase (getRing s k).taken.toNat (getRing s k).logSize.toNat) ∧ (slotFree s k =
    true) :=
  ⟨0, 9, 0, 0, 1, lastReq false, lastAcc (.scan 3 0) false, 3, 0, atLast (scans) (.scan 3 0) false, by decide, by decide, by decide, by
    decide, by decide, by decide, by decide, by decide, by decide, by decide +kernel, by decide⟩

theorem witness_ResponsesEndRequests_26 : ∃ (port : Fin 4) (tag : Byte) (beat : BitVec 3) (status : BitVec 2) (data : BitVec 1024) (r :
    Req) (a : Access) (k first : Nat) (s : State), (lastPart s false port.val tag.toNat r a = true) ∧ (a.who = .scan k first) ∧
    (lowerFail a.fail (beatFail r beat.toNat status) = none) ∧ (a.len = 64) ∧ (first = (getRing s k).taken.toNat) ∧ ((getRing s
    k).scanning = true) ∧ ((getRing s k).waitSlot = false) ∧ ((getRing s k).scanGot = []) ∧ (scanMay s k = true) ∧ (e0Phase (w64 (ofLe
    (slice (hasRead a r beat.toNat data) 0 8))) = expectedPhase (getRing s k).taken.toNat (getRing s k).logSize.toNat) ∧ (slotFree s k =
    false) :=
  ⟨0, 9, 0, 0, 1, lastReq false, lastAcc (.scan 3 0) false, 3, 0, atLast (noSlots) (.scan 3 0) false, by decide, by decide, by decide,
    by decide, by decide, by decide, by decide, by decide, by decide, by decide +kernel, by decide⟩

theorem witness_ResponsesEndRequests_27 : ∃ (port : Fin 4) (tag : Byte) (beat : BitVec 3) (status : BitVec 2) (data : BitVec 1024) (r :
    Req) (a : Access) (k first : Nat) (x : Nat) (st : Status) (s : State), (lastPart s false port.val tag.toNat r a = true) ∧ (a.who =
    .scan k first) ∧ (lowerFail a.fail (beatFail r beat.toNat status) = some (x, st)) ∧ (st ≠ .hostLost) ∧ ((getRing s k).state ≠
    .resetting) :=
  ⟨0, 9, 0, 1, 0, lastReq false, lastAcc (.scan 3 0) false, 3, 0, _, _, atLast (scans) (.scan 3 0) false, by decide, by decide, rfl, by
    decide, by decide⟩

theorem witness_ResponsesEndRequests_28 : ∃ (port : Fin 4) (tag : Byte) (beat : BitVec 3) (status : BitVec 2) (data : BitVec 1024) (r :
    Req) (a : Access) (k : Nat) (x : Nat) (st : Status) (s : State), (lastPart s false port.val tag.toNat r a = true) ∧ (a.who =
    .scanGone k) ∧ (lowerFail a.fail (beatFail r beat.toNat status) = some (x, st)) ∧ (st ≠ .hostLost) ∧ ((getRing s k).state ≠
    .resetting) :=
  ⟨0, 9, 0, 1, 0, lastReq false, lastAcc (.scanGone 3) false, 3, _, _, atLast (scans) (.scanGone 3) false, by decide, by decide, rfl, by
    decide, by decide⟩

theorem witness_ResponsesEndRequests_29 : ∃ (port : Fin 4) (tag : Byte) (beat : BitVec 3) (status : BitVec 2) (data : BitVec 1024) (r :
    Req) (a : Access) (n e b : Nat) (c : Xfer) (s : State), (lastPart s false port.val tag.toNat r a = true) ∧ (a.who = .ptIndex n e b)
    ∧ (lowerFail a.fail (beatFail r beat.toNat status) = none) ∧ ((getChan s n).xfer = some c) ∧ ((getChan s n).epoch = e) :=
  ⟨0, 9, 0, 0, 0, lastReq false, lastAcc (.ptIndex 3 2 0) false, 3, 2, 0, _, atLast (moves) (.ptIndex 3 2 0) false, by decide, by
    decide, by decide, rfl, by decide⟩

theorem witness_ResponsesEndRequests_30 : ∃ (port : Fin 4) (tag : Byte) (beat : BitVec 3) (status : BitVec 2) (data : BitVec 1024) (r :
    Req) (a : Access) (n e pos : Nat) (dst : W64) (c : Xfer) (s : State), (lastPart s false port.val tag.toNat r a = true) ∧ (a.who =
    .ptRead n e pos dst) ∧ (lowerFail a.fail (beatFail r beat.toNat status) = none) ∧ ((getChan s n).xfer = some c) ∧ ((getChan s
    n).epoch = e) :=
  ⟨0, 9, 0, 0, 0, lastReq false, lastAcc (.ptRead 3 2 0 0x4000) false, 3, 2, 0, 0x4000, _, atLast (moves) (.ptRead 3 2 0 0x4000) false,
    by decide, by decide, by decide, rfl, by decide⟩

theorem witness_ResponsesEndRequests_31 : ∃ (port : Fin 4) (tag : Byte) (beat : BitVec 3) (status : BitVec 2) (data : BitVec 1024) (r :
    Req) (a : Access) (n e b : Nat) (x : Nat) (st : Status) (s : State), (lastPart s false port.val tag.toNat r a = true) ∧ (a.who =
    .ptIndex n e b) ∧ (lowerFail a.fail (beatFail r beat.toNat status) = some (x, st)) ∧ (s.porter.stopped = false) ∧ (a.fail = none) :=
  ⟨0, 9, 0, 1, 0, lastReq false, lastAcc (.ptIndex 3 2 0) false, 3, 2, 0, _, _, atLast (moves) (.ptIndex 3 2 0) false, by decide, by
    decide, rfl, by decide, by decide⟩

theorem witness_ResponsesEndRequests_32 : ∃ (port : Fin 4) (tag : Byte) (beat : BitVec 3) (status : BitVec 2) (data : BitVec 1024) (r :
    Req) (a : Access) (n e pos : Nat) (dst : W64) (x : Nat) (st : Status) (s : State), (lastPart s false port.val tag.toNat r a = true)
    ∧ (a.who = .ptRead n e pos dst) ∧ (lowerFail a.fail (beatFail r beat.toNat status) = some (x, st)) ∧ (s.porter.stopped = false) ∧
    (a.fail = none) :=
  ⟨0, 9, 0, 1, 0, lastReq false, lastAcc (.ptRead 3 2 0 0x4000) false, 3, 2, 0, 0x4000, _, _, atLast (moves) (.ptRead 3 2 0 0x4000)
    false, by decide, by decide, rfl, by decide, by decide⟩

theorem witness_ResponsesEndRequests_33 : ∃ (port : Fin 4) (tag : Byte) (status : BitVec 2) (r : Req) (a : Access) (j k : Nat) (s :
    State), (lastPart s true port.val tag.toNat r a = true) ∧ (a.who = .status j) ∧ (lowerFail a.fail (ackFail r status) = none) ∧
    (jobExists s j = true) ∧ ((getJob s j).ring = k) ∧ (countOut s k = false) ∧ (publishMay s k = true) ∧ ((getRing s k).order.head? =
    some j) ∧ (((getRing s k).order.drop 1).all (fun i => (getJob s i).seat ≠ .acked) = true) ∧ (j ∉ (getRing s k).order.drop 1) :=
  ⟨0, 9, 0, lastReq true, lastAcc (.status 1) true, 1, 3, atLast (publishes [1]) (.status 1) true, by decide, by decide, by decide, by
    decide, by decide, by decide, by decide, by decide, by decide, by decide⟩

theorem witness_ResponsesEndRequests_34 : ∃ (port : Fin 4) (tag : Byte) (status : BitVec 2) (r : Req) (a : Access) (j k : Nat) (s :
    State), (lastPart s true port.val tag.toNat r a = true) ∧ (a.who = .status j) ∧ (lowerFail a.fail (ackFail r status) = none) ∧
    (jobExists s j = true) ∧ ((getJob s j).ring = k) ∧ ((getRing s k).order.head? ≠ some j) ∧ ((getRing s k).order.head?.all (fun i =>
    (getJob s i).seat ≠ .acked) = true) ∧ ((getRing s k).count = (getRing s k).countAcked) ∧ ((getRing s k).inflight ≠ 0) :=
  ⟨0, 9, 0, lastReq true, lastAcc (.status 1) true, 1, 3, atLast (publishes [5, 1]) (.status 1) true, by decide, by decide, by decide,
    by decide, by decide, by decide, by decide, by decide, by decide⟩

theorem witness_ResponsesEndRequests_35 : ∃ (port : Fin 4) (tag : Byte) (status : BitVec 2) (r : Req) (a : Access) (j k : Nat) (x : Nat)
    (st : Status) (s : State), (lastPart s true port.val tag.toNat r a = true) ∧ (a.who = .status j) ∧ (lowerFail a.fail (ackFail r
    status) = some (x, st)) ∧ (jobExists s j = true) ∧ ((getJob s j).ring = k) ∧ (st ≠ .hostLost) ∧ ((getRing s k).state ≠ .resetting)
    :=
  ⟨0, 9, 1, lastReq true, lastAcc (.status 1) true, 1, 3, _, _, atLast (publishes [1]) (.status 1) true, by decide, by decide, rfl, by
    decide, by decide, by decide, by decide⟩

theorem witness_ResponsesEndRequests_36 : ∃ (port : Fin 4) (tag : Byte) (status : BitVec 2) (r : Req) (a : Access) (k : Nat) (s :
    State), (lastPart s true port.val tag.toNat r a = true) ∧ (a.who = .count k) ∧ (lowerFail a.fail (ackFail r status) = none) :=
  ⟨0, 9, 0, lastReq true, lastAcc (.count 3) true, 3, atLast (publishes [1]) (.count 3) true, by decide, by decide, by decide⟩

theorem witness_ResponsesEndRequests_37 : ∃ (port : Fin 4) (tag : Byte) (status : BitVec 2) (r : Req) (a : Access) (k : Nat) (x : Nat)
    (st : Status) (s : State), (lastPart s true port.val tag.toNat r a = true) ∧ (a.who = .count k) ∧ (lowerFail a.fail (ackFail r
    status) = some (x, st)) ∧ (st ≠ .hostLost) ∧ ((getRing s k).state ≠ .resetting) :=
  ⟨0, 9, 1, lastReq true, lastAcc (.count 3) true, 3, _, _, atLast (publishes [1]) (.count 3) true, by decide, by decide, rfl, by
    decide, by decide⟩

theorem witness_ResponsesEndRequests_38 : ∃ (port : Fin 4) (tag : Byte) (status : BitVec 2) (r : Req) (a : Access) (j : Nat) (n : BitVec
    12) (i : BitVec 24) (s : State), (lastPart s true port.val tag.toNat r a = true) ∧ (a.who = .put j n i) ∧ (lowerFail a.fail (ackFail
    r status) = none) :=
  ⟨0, 9, 0, lastReq true, lastAcc (.put 1 5 9) true, 1, 5, 9, atLast (runs 0) (.put 1 5 9) true, by decide, by decide, by decide⟩

theorem witness_ResponsesEndRequests_39 : ∃ (port : Fin 4) (tag : Byte) (status : BitVec 2) (r : Req) (a : Access) (j : Nat) (n : BitVec
    12) (i : BitVec 24) (x : Nat) (st : Status) (s : State), (lastPart s true port.val tag.toNat r a = true) ∧ (a.who = .put j n i) ∧
    (lowerFail a.fail (ackFail r status) = some (x, st)) ∧ (jobExists s j = true) :=
  ⟨0, 9, 1, lastReq true, lastAcc (.put 1 5 9) true, 1, 5, 9, _, _, atLast (runs 0) (.put 1 5 9) true, by decide, by decide, rfl, by
    decide⟩

theorem witness_ResponsesEndRequests_40 : ∃ (port : Fin 4) (tag : Byte) (status : BitVec 2) (r : Req) (a : Access) (j pos : Nat) (s :
    State), (lastPart s true port.val tag.toNat r a = true) ∧ (a.who = .jobWrite j pos) ∧ (lowerFail a.fail (ackFail r status) = none)
    :=
  ⟨0, 9, 0, lastReq true, lastAcc (.jobWrite 1 0) true, 1, 0, atLast (runs 0) (.jobWrite 1 0) true, by decide, by decide, by decide⟩

theorem witness_ResponsesEndRequests_41 : ∃ (port : Fin 4) (tag : Byte) (status : BitVec 2) (r : Req) (a : Access) (j pos : Nat) (x :
    Nat) (st : Status) (s : State), (lastPart s true port.val tag.toNat r a = true) ∧ (a.who = .jobWrite j pos) ∧ (lowerFail a.fail
    (ackFail r status) = some (x, st)) ∧ (jobExists s j = true) :=
  ⟨0, 9, 1, lastReq true, lastAcc (.jobWrite 1 0) true, 1, 0, _, _, atLast (runs 0) (.jobWrite 1 0) true, by decide, by decide, rfl, by
    decide⟩

theorem witness_ResponsesEndRequests_42 : ∃ (port : Fin 4) (tag : Byte) (status : BitVec 2) (r : Req) (a : Access) (s : State),
    (lastPart s true port.val tag.toNat r a = true) ∧ (a.who = .storeWrite) ∧ (lowerFail a.fail (ackFail r status) = none) ∧
    (s.safe.stage = .writing) :=
  ⟨0, 9, 0, lastReq true, lastAcc (.storeWrite) true, atLast ({ prov with safe := { stage := .writing } }) (.storeWrite) true, by
    decide, by decide, by decide, by decide⟩

theorem witness_ResponsesEndRequests_43 : ∃ (port : Fin 4) (tag : Byte) (status : BitVec 2) (r : Req) (a : Access) (x : Nat) (st :
    Status) (s : State), (lastPart s true port.val tag.toNat r a = true) ∧ (a.who = .storeWrite) ∧ (lowerFail a.fail (ackFail r status)
    = some (x, st)) ∧ (s.safe.stage = .writing) :=
  ⟨0, 9, 1, lastReq true, lastAcc (.storeWrite) true, _, _, atLast ({ prov with safe := { stage := .writing } }) (.storeWrite) true, by
    decide, by decide, rfl, by decide⟩

theorem witness_ResponsesEndRequests_44 : ∃ (port : Fin 4) (tag : Byte) (status : BitVec 2) (r : Req) (a : Access) (s : State),
    (lastPart s true port.val tag.toNat r a = true) ∧ (a.who = .reportWrite) ∧ (lowerFail a.fail (ackFail r status) = none) ∧
    (s.safe.stage = .writing) :=
  ⟨0, 9, 0, lastReq true, lastAcc (.reportWrite) true, atLast ({ prov with safe := { stage := .writing } }) (.reportWrite) true, by
    decide, by decide, by decide, by decide⟩

theorem witness_ResponsesEndRequests_45 : ∃ (port : Fin 4) (tag : Byte) (status : BitVec 2) (r : Req) (a : Access) (x : Nat) (st :
    Status) (s : State), (lastPart s true port.val tag.toNat r a = true) ∧ (a.who = .reportWrite) ∧ (lowerFail a.fail (ackFail r status)
    = some (x, st)) ∧ (s.safe.stage = .writing) :=
  ⟨0, 9, 1, lastReq true, lastAcc (.reportWrite) true, _, _, atLast ({ prov with safe := { stage := .writing } }) (.reportWrite) true,
    by decide, by decide, rfl, by decide⟩

theorem witness_ResponsesEndRequests_46 : ∃ (port : Fin 4) (tag : Byte) (status : BitVec 2) (r : Req) (a : Access) (s : State),
    (lastPart s true port.val tag.toNat r a = true) ∧ (a.who = .tallyWrite) ∧ (lowerFail a.fail (ackFail r status) = none) ∧
    (s.mint.chStage = .writing) :=
  ⟨0, 9, 0, lastReq true, lastAcc (.tallyWrite) true, atLast ({ prov with mint := { chStage := .writing } }) (.tallyWrite) true, by
    decide, by decide, by decide, by decide⟩

theorem witness_ResponsesEndRequests_47 : ∃ (port : Fin 4) (tag : Byte) (status : BitVec 2) (r : Req) (a : Access) (x : Nat) (st :
    Status) (s : State), (lastPart s true port.val tag.toNat r a = true) ∧ (a.who = .tallyWrite) ∧ (lowerFail a.fail (ackFail r status)
    = some (x, st)) ∧ (s.mint.chStage = .writing) :=
  ⟨0, 9, 1, lastReq true, lastAcc (.tallyWrite) true, _, _, atLast ({ prov with mint := { chStage := .writing } }) (.tallyWrite) true,
    by decide, by decide, rfl, by decide⟩

theorem witness_ResponsesEndRequests_48 : ∃ (port : Fin 4) (tag : Byte) (status : BitVec 2) (r : Req) (a : Access) (n e : Nat) (x : Nat)
    (st : Status) (s : State), (lastPart s true port.val tag.toNat r a = true) ∧ (a.who = .ptWrite n e) ∧ (lowerFail a.fail (ackFail r
    status) = some (x, st)) ∧ (s.porter.stopped = false) ∧ (a.fail = none) :=
  ⟨0, 9, 1, lastReq true, lastAcc (.ptWrite 3 2) true, 3, 2, _, _, atLast (moves) (.ptWrite 3 2) true, by decide, by decide, rfl, by
    decide, by decide⟩

theorem witness_ResponsesEndRequests_49 : ∃ (port : Fin 4) (tag : Byte) (status : BitVec 2) (r : Req) (a : Access) (x : Nat) (st :
    Status) (s : State), (lastPart s true port.val tag.toNat r a = true) ∧ (a.who = .heartbeat) ∧ (lowerFail a.fail (ackFail r status) =
    some (x, st)) :=
  ⟨0, 9, 1, lastReq true, lastAcc (.heartbeat) true, _, _, atLast (svc) (.heartbeat) true, by decide, by decide, rfl⟩

theorem witness_TagsInterruptsAndInputs_1 : ∃ (port : Fin 4) (wd : Bool) (s : State), (awake s = true) ∧ (s.pins.icRst = false) ∧
    ((headersAllowed s = false ∨ ∀ k, k < 4 → (getPort s k).queue = [])) ∧ ((if wd then (getPort s port.val).dataCrd else (getPort s
    port.val).reqCrd) < 255) :=
  ⟨0, false, at_cold, by decide, by decide, by decide, by decide⟩

theorem witness_TagsInterruptsAndInputs_2 : ∃ (port : Fin 4) (wd : Bool) (s : State), (awake s = true) ∧ (s.pins.icRst = false) ∧ (255 ≤
    (if wd then (getPort s port.val).dataCrd else (getPort s port.val).reqCrd)) :=
  ⟨0, false, at_port, by decide, by decide, by decide⟩

theorem witness_TagsInterruptsAndInputs_3 : ∃ (port : Fin 4) (write : Bool) (tag : Byte) (r : Req) (s : State), (timersRun s = true) ∧
    (cplCycles s ≤ r.age) ∧ ((headersAllowed s = false ∨ ∀ k, k < 4 → (getPort s k).queue = [])) ∧ (r.write = write) ∧ (tget none (if
    write then (getPort s port.val).writes else (getPort s port.val).reads) tag.toNat = some r) ∧ (tget none s.ai.accesses r.access =
    none) :=
  ⟨0, false, 3, { req with age := 40000000 }, at_toR, by decide, by decide, by decide, by decide, by decide, by decide⟩

theorem witness_TagsInterruptsAndInputs_4 : ∃ (port : Fin 4) (write : Bool) (tag : Byte) (s : State), (cplCycles s < tget 0 (if write
    then (getPort s port.val).quarWrites else (getPort s port.val).quarReads) tag.toNat) :=
  ⟨0, false, 1, at_quar, by decide⟩

theorem witness_TagsInterruptsAndInputs_5 : ∃ (port : Fin 4) (write : Bool) (tag : Byte) (s : State), (tget 0 (if write then (getPort s
    port.val).quarWrites else (getPort s port.val).quarReads) tag.toNat ≤ cplCycles s) :=
  ⟨0, false, 0x00#8, at_rst, by decide⟩

theorem witness_TagsInterruptsAndInputs_6 : ∃ (v : Nat) (s : State), (s.pins.icRst = false) ∧ (tget false s.ai.irqPending v = true) :=
  ⟨5, at_irq, by decide, by decide⟩

theorem witness_TagsInterruptsAndInputs_7 : ∃ (line : Fin 256) (s : State), (s.pins.icRst = false) ∧ (s.ai.icStop = false) ∧
    (portsServed s = true) :=
  ⟨0, at_sc, by decide, by decide, by decide⟩

theorem witness_DirectOperationsCompute_1 : ∃ (bench : Fin 8) (d : DirectOp) (s : State), ((getBench s bench.val).direct = some d) ∧
    (engineHeld s bench.val = false) ∧ (1 ≤ d.nlen) ∧ (1 ≤ d.op) ∧ (d.op ≤ 7) ∧ ((d.op = 1 ∨ 2 ≤ limbsAt s bench.val d.ops 2 d.nlen)) ∧
    (opsField d.ops 3 + (if d.op = 1 then 2 else 1) * d.nlen ≤ 4096) :=
  ⟨3, _, at_dirRun1, rfl, not_held _ _ rfl, by decide, by decide, by decide, by decide, by decide⟩

theorem witness_OperandMemoryIsWritten_1 : ∃ (p : CtlPort) (b : Fin 8) (off : W16) (z : AccSize) (data : W64) (s : State), (mayTake s p
    (0x400000 + (0x10000 * b.val + off.toNat)) (accBytes z) = true) ∧ (off.toNat % accBytes z = 0) ∧ (isDirect s b.val = true) ∧ (domOn
    s 2 = true) ∧ (benchBusy s b.val = false) ∧ (off.toNat < 0x8000) :=
  ⟨Sys2Proof.CtlPort.host, 0, 0x0000#16, Sys2Proof.AccSize.b1, 0x0000000000000000#64, at_bRun, by decide, by decide, by decide, by
    decide, by decide, by decide⟩

theorem witness_BenchControl_1 : ∃ (p : CtlPort) (b : Fin 8) (s : State), (mayTake s p (chCmd b.val) 4 = true) ∧ (benchBusy s b.val =
    false) ∧ ((getBench s b.val).endedAt ≠ some s.cycle) ∧ (isDirect s b.val = true) :=
  ⟨Sys2Proof.CtlPort.host, 0, at_bRun, by decide, by decide, by decide, by decide⟩

theorem witness_BenchControl_2 : ∃ (p : CtlPort) (b : Fin 8) (s : State), (mayTake s p (chCmd b.val) 4 = true) ∧ (benchBusy s b.val =
    false) ∧ ((getBench s b.val).endedAt ≠ some s.cycle) ∧ (isDirect s b.val = false) :=
  ⟨Sys2Proof.CtlPort.host, 0, at_sc, by decide, by decide, by decide, by decide⟩

theorem witness_BenchControl_3 : ∃ (p : CtlPort) (b : Fin 8) (s : State), (mayTake s p (chCmd b.val) 4 = true) ∧ (benchBusy s b.val =
    false) ∧ ((getBench s b.val).endedAt = some s.cycle) ∧ (s.house.queue = []) :=
  ⟨Sys2Proof.CtlPort.host, 3, at_bEnded, by decide, by decide, by decide, by decide⟩

theorem witness_BenchControl_4 : ∃ (p : CtlPort) (b : Fin 8) (d : DirectOp) (s : State), (mayTake s p (chCmd b.val) 4 = true) ∧
    ((getBench s b.val).direct = some d) ∧ ((getBench s b.val).run = none) ∧ (s.house.queue = []) :=
  ⟨Sys2Proof.CtlPort.host, 3, _, at_dirRun1, by decide, rfl, by decide, by decide⟩

theorem witness_BenchControl_5 : ∃ (p : CtlPort) (b : Fin 8) (r : PkReq) (s : State), (mayTake s p (chCmd b.val) 4 = true) ∧ ((getBench
    s b.val).run = some r) ∧ (s.house.queue = []) :=
  ⟨Sys2Proof.CtlPort.host, 3, _, at_bRun, by decide, rfl, by decide⟩

theorem witness_BenchControl_6 : ∃ (p : CtlPort) (cfg : W32) (s : State), (mayTake s p chRowCfg 4 = true) ∧ (s.mode.mode = .provision) :=
  ⟨Sys2Proof.CtlPort.host, 0x00000000#32, prov, by decide, by decide⟩

theorem witness_BenchControl_7 : ∃ (b : Fin 8) (cell : Fin 32) (s : State), ((tget {} (getBench s b.val).cells cell.val).live = true) ∧
    ((tget {} (getBench s b.val).cells cell.val).deadline ≤ s.cycle) ∧ (s.house.queue = []) :=
  ⟨3, 5, at_lease, by decide, by decide, by decide⟩

theorem witness_BenchControl_8 : ∃ (b : Fin 8) (s : State), (portsServed s = true) ∧ (domOn s 2 = true) :=
  ⟨0, at_sc, by decide, by decide⟩

theorem witness_BenchControl_9 : ∃ (b : Fin 8) (pass : Bool) (s : State), (portsServed s = true) ∧ ((getBench s b.val).kat = true) :=
  ⟨3, false, at_bKat, by decide, by decide⟩

theorem witness_BenchQueueRuns_1 : ∃ (l : Fin 16) (j : Nat) (i : W64) (q : List Byte × List Byte × Job) (s : State), (laneTask s l.val
    (isOp .pkop) = some (j, i)) ∧ ((getJob s j).kept = none) ∧ ((getJob s j).wait = .nothing) ∧ (issueOk (getJob s j) i = true) ∧
    (pkKeyFault s j (keyNum (wC i)) (wFn i) (wParam i) = none) ∧ (rsaLenOk s j (keyNum (wC i)) (wFn i) (wLen i) = true) ∧ (oaepRoom (wFn
    i) (wParam i) (wLen i) = true) ∧ (pkReady (getJob s j) i = .ok q) ∧ ((wFn i = 0x29 → tokenOk q.1 = true)) ∧ ((pkDraws (wFn i) = true
    → wellCan s = true)) :=
  ⟨0, _, _, _, at_pk14, rfl, by decide, by decide, by decide, by decide, by decide, by decide, rfl, by decide, by decide⟩

theorem witness_BenchQueueRuns_2 : ∃ (l : Fin 16) (j : Nat) (i : W64) (bs : List Byte) (y : Job) (outs : List OutW) (s : State),
    (laneTask s l.val (isOp .pkop) = some (j, i)) ∧ ((getJob s j).kept = some bs) ∧ (accepts (wA i) [.k] = false) ∧ (putOut (getJob s j)
    (opd (wA i)) (decide (wFn i = 0x06)) bs = .ok (y, outs)) ∧ (outputsMay s j y outs) :=
  ⟨0, _, _, _, _, _, at_pkKept, rfl, rfl, by decide, rfl, fun h => absurd h (by decide)⟩

theorem witness_BenchQueueRuns_3 : ∃ (l : Fin 16) (j k : Nat) (i : W64) (bs : List Byte) (s2 s : State), (laneTask s l.val (isOp .pkop)
    = some (j, i)) ∧ ((getJob s j).kept = some bs) ∧ (accepts (wA i) [.k] = true) ∧ (privateWay (releaseKey (takeIncoming s j) j (keyNum
    (wA i))) = .way k s2) :=
  ⟨0, _, _, _, _, _, at_pkSec, rfl, rfl, by decide, rfl⟩

theorem witness_BenchQueueRuns_4 : ∃ (b : Fin 8) (r : PkReq) (s : State), ((getBench s b.val).run = some r) ∧ (s.house.queue = []) ∧
    ((getBench s b.val).holder = none) ∧ (pkDraw r.fn ≤ r.rnd.length) ∧ (engineHeld s b.val = false) :=
  ⟨3, _, at_bRun, rfl, by decide, by decide, by decide, not_held _ _ rfl⟩

theorem witness_ScalesRun_2 : ∃ (l : Fin 16) (j : Nat) (i : W64) (bs : List Byte) (y : Job) (outs : List OutW) (s : State), (laneTask s
    l.val (isOp .latop) = some (j, i)) ∧ ((getJob s j).kept = some bs) ∧ (wFn i ∉ [0x01, 0x02, 0x03]) ∧ (putOut (getJob s j) (opd (wA
    i)) false bs = .ok (y, outs)) ∧ (outputsMay s j y outs) :=
  ⟨0, _, _, _, _, _, at_latKept, rfl, rfl, by decide, rfl, fun h => absurd h (by decide)⟩

theorem witness_ScalesRun_3 : ∃ (l : Fin 16) (j k : Nat) (i : W64) (bs : List Byte) (s2 s : State), (laneTask s l.val (isOp .latop) =
    some (j, i)) ∧ ((getJob s j).kept = some bs) ∧ (wFn i = 0x03) ∧ (privateWay (releaseKey (takeIncoming s j) j (keyNum (wA i))) = .way
    k s2) :=
  ⟨0, _, _, _, _, _, at_lat3, rfl, rfl, by decide, rfl⟩

theorem witness_ScalesRun_5 : ∃ (c : Fin 4) (r : LatReq) (s : State), ((getCtx s c.val).run = some r) ∧ (s.scales.queue = []) ∧ ((getCtx
    s c.val).holder = none) ∧ (ctxMints s c.val = false) ∧ (latDraw r ≤ r.rnd.length) ∧ (engineHeld s (8 + c.val) = false) :=
  ⟨1, _, at_cRun, rfl, by decide, by decide, by decide, by decide, not_held _ _ rfl⟩

theorem witness_ScalesRun_6 : ∃ (p : CtlPort) (c : Fin 4) (s : State), (mayTake s p scCmd 4 = true) ∧ (ctxBusy s c.val = true) ∧
    (s.scales.queue = []) :=
  ⟨Sys2Proof.CtlPort.host, 1, at_cRun, by decide, by decide, by decide⟩

theorem witness_ScalesRun_7 : ∃ (p : CtlPort) (c : Fin 4) (s : State), (mayTake s p scCmd 4 = true) ∧ (ctxBusy s c.val = false) ∧
    ((getCtx s c.val).endedAt = some s.cycle) ∧ ((getCtx s c.val).holder = none) ∧ (s.scales.queue = []) :=
  ⟨Sys2Proof.CtlPort.host, 1, at_cEnded, by decide, by decide, by decide, by decide, by decide⟩

theorem witness_ScalesRun_8 : ∃ (p : CtlPort) (c : Fin 4) (s : State), (mayTake s p scCmd 4 = true) ∧ (ctxBusy s c.val = false) ∧
    ((getCtx s c.val).endedAt ≠ some s.cycle) :=
  ⟨Sys2Proof.CtlPort.host, 0, at_sc, by decide, by decide, by decide⟩

theorem witness_ScalesRun_9 : ∃ (p : CtlPort) (c : Fin 4) (s : State), (mayTake s p scCfg 4 = true) ∧ (s.mode.mode = .provision) ∧
    ((getCtx s c.val).faulted = true) ∧ (s.scales.queue = []) :=
  ⟨Sys2Proof.CtlPort.host, 1, at_cFault, by decide, by decide, by decide, by decide⟩

theorem witness_ScalesRun_10 : ∃ (c : Fin 4) (s : State), (portsServed s = true) :=
  ⟨0, at_sc, by decide⟩

theorem witness_ScalesRun_11 : ∃ (c : Fin 4) (pass : Bool) (s : State), ((getCtx s c.val).kat = true) ∧ ((pass = true → s.scales.queue =
    [])) :=
  ⟨1, false, at_cKat, by decide, by decide⟩

theorem witness_FlushesFreeOrRetire_1 : ∃ (p : CtlPort) (tenant : BitVec 12) (s : State), (mayTake s p serCmd 4 = true) ∧
    (s.serai.cmdBusy = false) ∧ (twf {} s.serai.slots = true) :=
  ⟨Sys2Proof.CtlPort.host, 0x000#12, at_sc, by decide, by decide, by decide⟩

theorem witness_FlushesFreeOrRetire_2 : ∃ (p : CtlPort) (tenant : BitVec 12) (s : State), (mayTake s p serCmd 4 = true) ∧
    (s.serai.cmdBusy = false) :=
  ⟨Sys2Proof.CtlPort.host, 0x000#12, at_sc, by decide, by decide⟩

theorem witness_FlushesFreeOrRetire_3 : ∃ (p : CtlPort) (tenant : BitVec 12) (s : State), (mayTake s p serCmd 4 = true) ∧
    (s.serai.cmdBusy = false) :=
  ⟨Sys2Proof.CtlPort.host, 0x000#12, at_sc, by decide, by decide⟩

theorem witness_FlushesFreeOrRetire_4 : ∃ (p : CtlPort) (s : State), (mayTake s p serCmd 4 = true) ∧ (s.serai.cmdBusy = false) :=
  ⟨Sys2Proof.CtlPort.host, at_sc, by decide, by decide⟩

theorem witness_FlushesFreeOrRetire_6 : ∃ (f : FlushOp) (s : State), (s.serai.flush = some f) ∧ (twf {} s.serai.slots = true) :=
  ⟨_, at_flush, rfl, by decide⟩

theorem witness_MasksAndDeadSlots_1 : ∃ (s : State), (s.serai.hkeyDrawn = true) ∧ (s.serai.zeroed = false) ∧ (wellCan s = true) ∧
    (s.well.draws.any (fun d => d.who = .remask) = false) :=
  ⟨at_cold, by decide, by decide, by decide, by decide⟩

theorem witness_MasksAndDeadSlots_2 : ∃ (d : DrawRec) (s : State), (wellCan s = true) ∧ (nextDraw s = some d) ∧ (d.who = .remask) ∧ (0 <
    grantSize s d) ∧ (d.need ≤ d.got.length + grantSize s d) ∧ (tget false s.serai.aged s.serai.remaskNext = false) :=
  ⟨_, at_gMask, by decide, rfl, by decide, by decide, by decide, by decide⟩

theorem witness_MasksAndDeadSlots_3 : ∃ (g : Fin 512) (s : State), (s.serai.hkeyDrawn = true) ∧ (s.serai.zeroed = false) ∧ (tget false
    s.serai.aged g.val = false) ∧ (4000 ≤ maskAge s g.val) :=
  ⟨0, at_alLock, by decide, by decide, by decide, by decide⟩

theorem witness_MasksAndDeadSlots_4 : ∃ (p : CtlPort) (slot : BitVec 15) (s : State), (mayTake s p 0x300070 4 = true) :=
  ⟨Sys2Proof.CtlPort.host, 0x0000#15, at_sc, by decide⟩

theorem witness_MasksAndDeadSlots_5 : ∃ (p : CtlPort) (s : State), (mayTake s p 0x300060 4 = true) :=
  ⟨Sys2Proof.CtlPort.host, at_sc, by decide⟩

theorem witness_MasksAndDeadSlots_7 : ∃ (slot : BitVec 15) (s : State), (s.serai.zeroed = false) :=
  ⟨0x0000#15, at_rst, by decide⟩

theorem witness_ChartersRun_1 : ∃ (p : CtlPort) (s : State), (served s = true) ∧ (s.mint.chBusy = false) ∧ (s.mode.mode = .provision) ∧
    ((getCtx s 2).faulted = false) ∧ ((getCtx s 3).faulted = false) ∧ (unitMaskDead s = false) :=
  ⟨.host, prov, by decide, by decide, by decide, by decide, by decide, by decide⟩

theorem witness_ChartersRun_2 : ∃ (p : CtlPort) (s : State), (served s = true) ∧ (s.mint.chBusy = true) :=
  ⟨Sys2Proof.CtlPort.host, at_ch0, by decide, by decide⟩

theorem witness_ChartersRun_3 : ∃ (p : CtlPort) (s : State), (served s = true) ∧ (s.mint.chBusy = false) ∧ (s.mode.mode ≠ .provision) :=
  ⟨Sys2Proof.CtlPort.host, at_sc, by decide, by decide, by decide⟩

theorem witness_ChartersRun_4 : ∃ (p : CtlPort) (s : State), (served s = true) ∧ (s.mint.chBusy = false) ∧ (s.mode.mode = .provision) ∧
    (((getCtx s 2).faulted = true ∨ (getCtx s 3).faulted = true ∨ unitMaskDead s = true)) :=
  ⟨Sys2Proof.CtlPort.host, at_chBad, by decide, by decide, by decide, by decide⟩

theorem witness_ChartersRun_5 : ∃ (s : State), (s.mint.chStage = .here) ∧ ((getCtx s 2).faulted = false) ∧ ((getCtx s 3).faulted =
    false) ∧ (unitMaskDead s = false) :=
  ⟨at_chHere0, by decide, by decide, by decide, by decide⟩

theorem witness_ChartersRun_6 : ∃ (n part : Nat) (verdict : List Byte) (s : State), (s.mint.chStage = .engine part) ∧ (s.mint.chRun = n)
    ∧ (part < 2) :=
  ⟨_, 0, [], at_chEng0, by decide, rfl, by decide⟩

theorem witness_ChartersRun_8 : ∃ (st : Status) (reason index : Nat) (s : State), (s.mint.chStage = .refused st reason index) ∧
    (charterAccess s = false) :=
  ⟨Sys2Proof.Machine.Status.encoding, 3, 2, at_chRef, by decide, by decide⟩

theorem witness_AdmissionClassifies_1 : ∃ (j : Nat) (s : State), ((s.muster.arrCourier ++ s.muster.arrOther).find? (admitMay s) = some
    j) ∧ (entryRefused (getJob s j).word0 = false) ∧ ((e0Yoke (getJob s j).word0 = true → anyYoke s = true)) :=
  ⟨_, at_adm0, rfl, by decide, by decide⟩

theorem witness_AdmissionClassifies_2 : ∃ (j : Nat) (s : State), ((s.muster.arrCourier ++ s.muster.arrOther).find? (admitMay s) = some
    j) ∧ ((entryRefused (getJob s j).word0 = true ∨ (e0Yoke (getJob s j).word0 = true ∧ anyYoke s = false))) :=
  ⟨_, at_admYoke, rfl, by decide⟩

theorem witness_PlacementSeatsJobs_1 : ∃ (j l : Nat) (s : State), (s.muster.courierQ.find? (placeMay s) = some j) ∧ (courierTarget s j =
    some l) :=
  ⟨_, _, at_plcC, rfl, rfl⟩

theorem witness_PlacementSeatsJobs_2 : ∃ (j l : Nat) (s : State), (s.muster.courierQ = []) ∧ ((classOrder s).findSome? (classJob s) =
    some j) ∧ (targetFor s j = some l) ∧ (anyReserved s l = false) :=
  ⟨_, _, at_plc, by decide, rfl, rfl, by decide⟩

theorem witness_PlacementSeatsJobs_3 : ∃ (j l : Nat) (s : State), (s.muster.courierQ = []) ∧ ((classOrder s).findSome? (classJob s) =
    some j) ∧ (targetFor s j = some l) ∧ (anyReserved s l = true) :=
  ⟨_, _, at_plcR, by decide, rfl, rfl, by decide⟩

theorem witness_PreemptionAndWindows_1 : ∃ (l : Fin 16) (j : Nat) (s : State), ((getLane s l.val).run = some j) ∧ ((getLane s
    l.val).preempt = true) ∧ (preemptable s l.val = true) ∧ (laneHeld s l.val = false) ∧ (l.val ∈ members s l.val) :=
  ⟨0, _, at_save, rfl, by decide, by decide, by decide, by decide⟩

theorem witness_PreemptionAndWindows_2 : ∃ (l : Fin 16) (j : Nat) (rest : List Nat) (s : State), ((getLane s l.val).saved = j :: rest) ∧
    (laneFree s l.val = true) ∧ (laneOut s l.val = false) ∧ (jobMoves s l.val j = true) ∧ (courierDue s l.val = false) ∧ (laneHeld s
    l.val = false) ∧ (l.val ∈ members s l.val) ∧ ((getJob s j).stop = none) :=
  ⟨0, _, _, at_resume, rfl, by decide, by decide, by decide, by decide, by decide, by decide, by decide⟩

theorem witness_PreemptionAndWindows_3 : ∃ (l : Fin 16) (s : State), (leadOf s l.val = l.val) ∧ (isLaggard s l.val = true) ∧ ((getLane s
    l.val).laggard = false) :=
  ⟨0, at_lag, by decide, by decide, by decide⟩

theorem witness_PreemptionAndWindows_4 : ∃ (s : State), (awake s = true) :=
  ⟨at_cold, by decide⟩

theorem witness_PreemptionAndWindows_5 : ∃ (p : CtlPort) (s : State), (mayTake s p 0x200060 4 = true) :=
  ⟨Sys2Proof.CtlPort.host, at_sc, by decide⟩

theorem witness_JobsRunThroughTheLane_1 : ∃ (l : Fin 16) (j : Nat) (s : State), ((getLane s l.val).staged.find? (fun k => (getLane s
    l.val).setup ≠ some k) = some j) ∧ ((getLane s l.val).prep = none) ∧ ((getLane s l.val).courier = none) ∧ ((getJob s j).started =
    false) ∧ (laneHeld s l.val = false) ∧ (jobMoves s l.val j = true) ∧ ((getJob s j).isOver = false) :=
  ⟨0, _, at_lag, rfl, by decide, by decide, by decide, by decide, by decide, by decide⟩

theorem witness_JobsRunThroughTheLane_2 : ∃ (l : Fin 16) (j : Nat) (s : State), ((getLane s l.val).prep = some j) ∧ ((getLane s
    l.val).setup = none) ∧ (laneHeld s l.val = false) ∧ (jobMoves s l.val j = true) ∧ (setupOk s j = true) :=
  ⟨0, _, at_setup, rfl, by decide, by decide, by decide, by decide⟩

theorem witness_JobsRunThroughTheLane_3 : ∃ (l : Fin 16) (pass : Bool) (s : State), (portsServed s = true) ∧ ((getLane s l.val).kat =
    true) :=
  ⟨0, false, at_lkat, by decide, by decide⟩

theorem witness_JobsRunThroughTheLane_4 : ∃ (l : Fin 16) (j : Nat) (s : State), (nextJobOf (getLane s l.val) = some j) ∧ ((getLane s
    l.val).run = none) ∧ (laneHeld s l.val = false) ∧ (laneOut s l.val = false) ∧ (jobMoves s l.val j = true) ∧ ((getJob s j).stop =
    none) ∧ (((getJob s j).started = true ∨ startFault s (getJob s j) = none)) ∧ (((getLane s l.val).courier ≠ none ∨ courierDue s l.val
    = false)) :=
  ⟨0, _, at_prep, rfl, by decide, by decide, by decide, by decide, by decide, by decide, by decide⟩

theorem witness_JobsRunThroughTheLane_5 : ∃ (l : Fin 16) (j : Nat) (st : Status) (s : State), (nextJobOf (getLane s l.val) = some j) ∧
    ((getLane s l.val).run = none) ∧ (laneHeld s l.val = false) ∧ (laneOut s l.val = false) ∧ (jobMoves s l.val j = true) ∧ ((getJob s
    j).started = false) ∧ (startFault s (getJob s j) = some st) ∧ (((getLane s l.val).courier ≠ none ∨ courierDue s l.val = false)) :=
  ⟨0, _, _, at_startBad, rfl, by decide, by decide, by decide, by decide, by decide, rfl, by decide⟩

theorem witness_JobsRunThroughTheLane_6 : ∃ (l : Fin 16) (j : Nat) (s : State), ((getLane s l.val).run = some j) ∧ ((getJob s j).isOver
    = true) ∧ (laneHeld s l.val = false) :=
  ⟨0, _, at_over, rfl, by decide, by decide⟩

theorem witness_ControlFlowRuns_1 : ∃ (l : Fin 16) (j : Nat) (i : W64) (s : State), (laneTask s l.val (isOp .branch) = some (j, i)) :=
  ⟨0, _, _, at_brn, rfl⟩

theorem witness_ControlFlowRuns_2 : ∃ (l : Fin 16) (j : Nat) (i : W64) (s : State), (laneTask s l.val (isOp .fence) = some (j, i)) ∧
    (writesDone s j = true) :=
  ⟨0, _, _, at_fence, rfl, by decide⟩

theorem witness_ControlFlowRuns_3 : ∃ (l : Fin 16) (j : Nat) (i : W64) (s : State), (laneTask s l.val (isOp .event) = some (j, i)) ∧
    (writesDone s j = true) :=
  ⟨0, _, _, at_event, rfl, by decide⟩

theorem witness_ControlFlowRuns_4 : ∃ (l : Fin 16) (j : Nat) (s : State), ((getLane s l.val).run = some j) ∧ ((getJob s j).isOver =
    false) ∧ ((getLane s l.val).preempt = false) ∧ (laneHeld s l.val = false) ∧ (jobMoves s l.val j = true) ∧ ((progLen s (getJob s j) ≤
    (getJob s j).pos ∨ isOp .endW (instrAt s (getJob s j) (getJob s j).pos) = true)) :=
  ⟨0, _, at_end, rfl, by decide, by decide, by decide, by decide, by decide⟩

theorem witness_ControlFlowRuns_5 : ∃ (l : Fin 16) (j : Nat) (i : W64) (p q : List Byte) (z : Job) (s : State), (laneTask s l.val (isOp
    .cmp) = some (j, i)) ∧ (issueOk (getJob s j) i = true) ∧ (cmpIn (getJob s j) i = .ok (p, q, z)) :=
  ⟨0, _, _, _, _, _, at_cmpEq, rfl, by decide, rfl⟩

theorem witness_XformComputes_1 : ∃ (l : Fin 16) (j : Nat) (i : W64) (s : State), (laneTask s l.val (isOp .xform) = some (j, i)) ∧ (1 ≤
    wFn i) ∧ (wFn i ≤ 5) ∧ (wParam i + len8 (wField2 i) ≤ 256) :=
  ⟨0, _, _, at_xf1, rfl, by decide, by decide, by decide⟩

theorem witness_XformComputes_2 : ∃ (l : Fin 16) (j : Nat) (i : W64) (s : State), (laneTask s l.val (isOp .xform) = some (j, i)) ∧ (256
    < wParam i + len8 (wField2 i)) :=
  ⟨0, _, _, at_xfBad, rfl, by decide⟩

theorem witness_MovesRun_1 : ∃ (l : Fin 16) (j : Nat) (i : W64) (bs : List Byte) (z y : Job) (outs : List OutW) (s : State), (laneTask s
    l.val (isOp .move) = some (j, i)) ∧ (issueOk (getJob s j) i = true) ∧ (takeIn (getJob s j) (opd (wB i)) (wLen i) = .ok (bs, z)) ∧
    (putOut z (opd (wA i)) false bs = .ok (y, outs)) ∧ (outputsMay s j y outs) :=
  ⟨0, _, _, _, _, _, _, at_move, rfl, by decide, rfl, rfl, fun h => absurd h (by decide)⟩

theorem witness_MovesRun_3 : ∃ (l : Fin 16) (j : Nat) (i : W64) (bs : List Byte) (z : Job) (s : State), (laneTask s l.val (isOp .loads)
    = some (j, i)) ∧ (issueOk (getJob s j) i = true) ∧ (wFn i + len8 (wParam i) ≤ 256) ∧ (takeIn (getJob s j) (opd (wB i)) (len8 (wParam
    i)) = .ok (bs, z)) ∧ (bs.length = len8 (wParam i)) :=
  ⟨0, _, _, _, _, at_loads, rfl, by decide, by decide, rfl, by decide⟩

theorem witness_MovesRun_4 : ∃ (l : Fin 16) (j : Nat) (i : W64) (y : Job) (outs : List OutW) (s : State), (laneTask s l.val (isOp
    .stores) = some (j, i)) ∧ (issueOk (getJob s j) i = true) ∧ (wFn i + len8 (wParam i) ≤ 256) ∧ (putOut (getJob s j) (opd (wA i))
    false (tread 0 (getJob s j).sat (256 * satNum (wB i) + wFn i) (len8 (wParam i))) = .ok (y, outs)) ∧ (outputsMay s j y outs) :=
  ⟨0, _, _, _, _, at_stores, rfl, by decide, by decide, rfl, fun h => absurd h (by decide)⟩

theorem witness_MovesRun_5 : ∃ (l : Fin 16) (j : Nat) (i : W64) (y : Job) (outs : List OutW) (s : State), (laneTask s l.val (isOp .rand)
    = some (j, i)) ∧ ((getJob s j).wait = .nothing) ∧ ((getJob s j).kept = none) ∧ (issueOk (getJob s j) i = true) ∧ (wellCan s = true)
    ∧ (putOut (getJob s j) (opd (wA i)) false (zeros (wLen i)) = .ok (y, outs)) ∧ (outputsMay s j y outs) :=
  ⟨0, _, _, _, _, at_rand, rfl, by decide, by decide, by decide, by decide, rfl, fun h => absurd h (by decide)⟩

theorem witness_MovesRun_6 : ∃ (l : Fin 16) (j : Nat) (i : W64) (bs : List Byte) (y : Job) (outs : List OutW) (s : State), (laneTask s
    l.val (isOp .rand) = some (j, i)) ∧ ((getJob s j).wait = .nothing) ∧ ((getJob s j).kept = some bs) ∧ (issueOk (getJob s j) i = true)
    ∧ (bs.length = wLen i) ∧ (putOut (getJob s j) (opd (wA i)) false bs = .ok (y, outs)) ∧ (outputsMay s j y outs) :=
  ⟨0, 1, _, zl 32, _, _, at_randK, rfl, by decide, by decide, by decide, by decide, rfl, fun h => absurd h (by decide)⟩

theorem witness_CiphersRun_1 : ∃ (l : Fin 16) (j : Nat) (n : Nat) (i : W64) (y : Job) (outs : List OutW) (s : State),
  let k := keyNum (wC i)
  (laneTask s l.val (isOp .sealW) = some (j, i)) ∧ (issueOk (getJob s j) i = true) ∧ (keyFault s j k 0 (wAlg i) (algTypes (wAlg i)) =
    none) ∧ (sealRun (getJob s j) i (keySlot s j k).ktype.toNat (keyBytes s j k) = .ok (n, y, outs)) ∧ (outputsMay s j y outs) :=
  ⟨0, _, _, _, _, _, at_seal, rfl, by decide, by decide, rfl, fun h => absurd h (by decide)⟩

theorem witness_CiphersRun_2 : ∃ (l : Fin 16) (j n : Nat) (i : W64) (y : Job) (outs : List OutW) (v : Option Bool) (s : State),
  let k := keyNum (wC i)
  (laneTask s l.val (isOp .openW) = some (j, i)) ∧ ((getJob s j).wait = .nothing) ∧ (issueOk (getJob s j) i = true) ∧ (keyFault s j k 1
    (wAlg i) (algTypes (wAlg i)) = none) ∧ (outputsMay s j y outs) ∧ (openRun (getJob s j) i (keySlot s j k).ktype.toNat (keyBytes s j
    k) = .ok (n, y, outs, v)) :=
  ⟨0, _, _, _, _, _, _, at_open, rfl, by decide, by decide, by decide, fun h => absurd h (by decide), rfl⟩

theorem witness_CiphersRun_3 : ∃ (l : Fin 16) (j st off n : Nat) (i : W64) (s : State), (laneTask s l.val (isOp .openW) = some (j, i)) ∧
    ((getJob s j).wait = .zeroing 1) ∧ ((getJob s j).wrote = some (st, off, n)) ∧ (writesDone s j = true) ∧ (jobLost s j = false) :=
  ⟨0, _, _, _, _, _, at_openZero, rfl, by decide, rfl, by decide, by decide⟩

theorem witness_CiphersRun_4 : ∃ (l : Fin 16) (j n : Nat) (i : W64) (y : Job) (outs : List OutW) (s : State),
  let k := keyNum (wC i)
  (laneTask s l.val (isOp .cipher) = some (j, i)) ∧ (issueOk (getJob s j) i = true) ∧ (keyFault s j k (bit (wDec i)) (wAlg i) (algTypes
    (wAlg i)) = none) ∧ (cipherRun (getJob s j) i (keySlot s j k).ktype.toNat (keyBytes s j k) = .ok (n, y, outs)) ∧ (outputsMay s j y
    outs) :=
  ⟨0, _, _, _, _, _, at_cipher, rfl, by decide, by decide, rfl, fun h => absurd h (by decide)⟩

theorem witness_CiphersRun_5 : ∃ (l : Fin 16) (j n : Nat) (i : W64) (y : Job) (outs : List OutW) (s : State),
  let k := keyNum (wC i)
  (laneTask s l.val (isOp .mac) = some (j, i)) ∧ (issueOk (getJob s j) i = true) ∧ (keyFault s j k (if wVerify i then 3 else 2) (wAlg i)
    (algTypes (wAlg i)) = none) ∧ (macRun (getJob s j) i (keySlot s j k).ktype.toNat (keyBytes s j k) = .ok (n, y, outs)) ∧ (outputsMay
    s j y outs) :=
  ⟨0, _, _, _, _, _, at_mac, rfl, by decide, by decide, rfl, fun h => absurd h (by decide)⟩

theorem witness_StreamLinesRun_2 : ∃ (l : Fin 16) (j : Nat) (i : W64) (p : Piece) (s : State), (streamTask s l.val 2 = some (j, i)) ∧
    (issueOk (getJob s j) i = true) ∧ ((ctxOf s l.val j) ≠ []) ∧ (lineOf (getJob s j) (ctxStream i) = .ok p) ∧ (jobLost s j = false) ∧
    ((getJob s j).kept = none) ∧ (wellCan s = true) :=
  ⟨0, 1, _, _, at_ctxS, rfl, by decide, by decide, rfl, by decide, by decide, by decide⟩

theorem witness_StreamLinesRun_3 : ∃ (l : Fin 16) (j : Nat) (i : W64) (p : Piece) (nonce : List Byte) (s : State), (streamTask s l.val 2
    = some (j, i)) ∧ (issueOk (getJob s j) i = true) ∧ ((ctxOf s l.val j) ≠ []) ∧ (lineOf (getJob s j) (ctxStream i) = .ok p) ∧ (jobLost
    s j = false) ∧ ((getJob s j).kept = some nonce) :=
  ⟨0, 1, _, _, zl 12, at_ctxSK, rfl, by decide, by decide, rfl, by decide, by decide⟩

theorem witness_LaneFaultsQuarantine_1 : ∃ (l : Fin 16) (c : Instr) (j : Nat) (s : State), (laneLive s l.val = true) ∧ ((getLane s
    (leadOf s l.val)).run = some j) ∧ ((getJob s j).isOver = false) ∧ (((c = .sequencerWatchdog l ∧ 2 ^ 20 ≤ (getJob s j).stuck) ∨ ∃ row
    : Fin 8, 2 ≤ row.val ∧ row.val ≤ 5 ∧ c = .fatalLaneFault l row)) :=
  ⟨0, Sys2Proof.Instr.fatalLaneFault 0 3, _, at_brn, by decide, rfl, by decide, by decide⟩

theorem witness_StorageFaultsAct_1 : ∃ (a : StorageArray) (index unit : Nat) (s : State), (portsServed s = true) :=
  ⟨.logicParity, 0, 0, svc, by decide⟩

theorem witness_WellRuns_2 : ∃ (p : CtlPort) (s : State), (mayTake s p wlCmd 4 = true) ∧ (s.well.cmd = none) :=
  ⟨Sys2Proof.CtlPort.host, at_sc, by decide, by decide⟩

theorem witness_WellRuns_3 : ∃ (pass : BitVec 4) (kat : Bool) (s : State),
  let tested := startSources s
    let good := tested &&& s.well.startPass &&& ~~~s.well.startFail
    let stays := s.well.state = .failed ∧ good = 0
  (s.well.cmd = some .retest) ∧ (s.well.zeroed = false) ∧ (tested &&& ~~~(good ||| s.well.startFail) = 0) ∧ (pass = good) :=
  ⟨_, true, at_rtDone, by decide, by decide, by decide, rfl⟩

theorem witness_WellRuns_4 : ∃ (n : Nat) (s : State), (n < 4) ∧ (s.cycle % 10 = 0) ∧ (s.well.zeroed = false) :=
  ⟨0, at_rst, by decide, by decide, by decide⟩

theorem witness_WellRuns_5 : ∃ (p : CtlPort) (source : BitVec 2) (s : State), (mayTake s p wlCmd 4 = true) ∧ (s.well.cmd = none) ∧
    (s.mode.mode = .provision) :=
  ⟨Sys2Proof.CtlPort.host, 0x0#2, prov, by decide, by decide, by decide⟩

theorem witness_WellRuns_6 : ∃ (n : Nat) (s : State), (s.well.cmd = some (.capture n)) ∧ (8192 ≤ s.well.capCount) :=
  ⟨3, at_capD, by decide, by decide⟩

theorem witness_WellRuns_7 : ∃ (n : Nat) (s : State), (s.well.cmd = some (.capture n)) ∧ (s.well.capCount < 8192) :=
  ⟨_, at_wCap, rfl, by decide⟩

theorem witness_WellRuns_8 : ∃ (s : State), (portsServed s = true) ∧ (wellCan s = true) ∧ (reseedInt s ≤ s.well.genCalls) ∧ (inputReady
    s = true) ∧ (reseedBarred s = false) ∧ (((s.well.reseeds + 1).toNat % 2 ^ 24 ≠ 0 ∨ Config.wellKat (s.well.reseeds + 1).toNat =
    true)) :=
  ⟨at_wReseed, by decide, by decide, by decide, by decide +kernel, by decide, by decide⟩

theorem witness_WellRuns_9 : ∃ (s : State), (portsServed s = true) ∧ (wellCan s = true) ∧ (reseedInt s ≤ s.well.genCalls) ∧ (inputReady
    s = true) ∧ (reseedBarred s = true) :=
  ⟨at_rsBar, by decide, by decide, by decide, by decide +kernel, by decide⟩

theorem witness_WellRuns_11 : ∃ (d : DrawRec) (s : State), (wellCan s = true) ∧ (nextDraw s = some d) ∧ (0 < grantSize s d) ∧ (d.need ≤
    d.got.length + grantSize s d) :=
  ⟨_, at_wDraw2, by decide, rfl, by decide, by decide⟩

theorem witness_WellRuns_12 : ∃ (d : DrawRec) (s : State), (wellCan s = true) ∧ (nextDraw s = some d) ∧ (0 < grantSize s d) ∧
    (d.got.length + grantSize s d < d.need) :=
  ⟨_, at_wDraw, by decide, rfl, by decide, by decide⟩

theorem witness_TollgateAndPorterRun_1 : ∃ (p : CtlPort) (c : Fin 8) (s : State), (mayTake s p (tgCmd c.val) 4 = true) ∧ (tgActive
    (getTg s c.val) = false) ∧ (tgArmOk (getTg s c.val) = true) :=
  ⟨Sys2Proof.CtlPort.host, 3, at_tgIdle, by decide, by decide, by decide⟩

theorem witness_TollgateAndPorterRun_2 : ∃ (p : CtlPort) (c : Fin 8) (s : State), (mayTake s p (tgCmd c.val) 4 = true) ∧ (tgActive
    (getTg s c.val) = true) :=
  ⟨Sys2Proof.CtlPort.host, 3, at_tgRun, by decide, by decide⟩

theorem witness_TollgateAndPorterRun_3 : ∃ (p : CtlPort) (c : Fin 8) (s : State), (mayTake s p (tgCmd c.val) 4 = true) ∧ (tgListening
    (getTg s c.val) = true) ∧ (((getTg s c.val).src = 2 → (getTg s c.val).next = (getTg s c.val).wend)) :=
  ⟨Sys2Proof.CtlPort.host, 3, at_tgRun, by decide, by decide, by decide⟩

theorem witness_TollgateAndPorterRun_4 : ∃ (p : CtlPort) (c : Fin 8) (s : State), (mayTake s p (tgCmd c.val) 4 = true) ∧ (tgListening
    (getTg s c.val) = true) ∧ ((getTg s c.val).src = 2) ∧ ((getTg s c.val).next ≠ (getTg s c.val).wend) :=
  ⟨Sys2Proof.CtlPort.host, 3, at_tgArmedW, by decide, by decide, by decide, by decide⟩

theorem witness_TollgateAndPorterRun_5 : ∃ (p : CtlPort) (c : Fin 8) (s : State), (mayTake s p (tgCmd c.val) 4 = true) ∧ (tgActive
    (getTg s c.val) = true) :=
  ⟨Sys2Proof.CtlPort.host, 3, at_tgRun, by decide, by decide⟩

theorem witness_TollgateAndPorterRun_6 : ∃ (c : Fin 8) (s : State), (tgFinishes s (getTg s c.val) = true) :=
  ⟨3, at_tgFin, by decide⟩

theorem witness_TollgateAndPorterRun_7 : ∃ (p : CtlPort) (s : State), (mayTake s p ptCmd 4 = true) ∧ (s.porter.stopped = true) ∧ ((∀ f,
    s.porter.lateFail = some f → f.1 ≠ s.cycle)) ∧ (s.porter.stopAt ≠ some s.cycle) :=
  ⟨Sys2Proof.CtlPort.host, at_ptStop, by decide, by decide, by decide, by decide⟩

theorem witness_TollgateAndPorterRun_8 : ∃ (p : CtlPort) (dir : Bool) (cause : Nat) (addr : W64) (s : State), (mayTake s p ptCmd 4 =
    true) ∧ (s.porter.stopped = true) ∧ (s.porter.lateFail = some (s.cycle, dir, cause, addr)) ∧ (s.porter.stopAt ≠ some s.cycle) :=
  ⟨Sys2Proof.CtlPort.host, _, _, _, at_ptLate, by decide, by decide, rfl, by decide⟩

theorem witness_TollgateAndPorterRun_9 : ∃ (p : CtlPort) (s : State), (mayTake s p ptCmd 4 = true) ∧ (s.porter.stopped = true) ∧
    (s.porter.stopAt = some s.cycle) :=
  ⟨.host, at_stopAt, by decide, by decide, by decide⟩

theorem witness_TollgateAndPorterRun_10 : ∃ (p : CtlPort) (s : State), (mayTake s p ptCmd 4 = true) ∧ (s.porter.stopped = false) :=
  ⟨Sys2Proof.CtlPort.host, at_sc, by decide, by decide⟩

theorem witness_TollgateAndPorterRun_11 : ∃ (n : Fin 32) (s : State), (ptFinished s n.val = true) :=
  ⟨3, at_ptOver, by decide⟩

theorem witness_SinksRun_1 : ∃ (p : CtlPort) (k : Fin 512) (n : W16) (s : State), (mayTake s p (rlSinkCmd k.val) 4 = true) ∧ (hasSink
    k.val = true) :=
  ⟨Sys2Proof.CtlPort.host, 0, 0x0000#16, at_sc, by decide, by decide⟩

theorem witness_SinksRun_2 : ∃ (p : CtlPort) (k : Fin 512) (s : State), (mayTake s p (rlSinkCmd k.val) 4 = true) ∧ (hasSink k.val =
    true) ∧ ((getSink s k.val).actedAt ≠ some s.cycle) :=
  ⟨Sys2Proof.CtlPort.host, 0, at_sc, by decide, by decide, by decide⟩

theorem witness_SinksRun_3 : ∃ (p : CtlPort) (k : Fin 512) (s : State), (mayTake s p (rlSinkCmd k.val) 4 = true) ∧ (hasSink k.val =
    true) ∧ ((getSink s k.val).actedAt = some s.cycle) :=
  ⟨Sys2Proof.CtlPort.host, 300, at_snkActed, by decide, by decide, by decide⟩

theorem witness_SinksRun_4 : ∃ (s : State), (relayOn s = true) :=
  ⟨at_sc, by decide⟩

theorem witness_SinksRun_5 : ∃ (k : Nat) (s : State), (twf {} s.relay.sinks = true) ∧ ((getSink s k).clearDue = false) :=
  ⟨0, at_rst, by decide, by decide⟩

theorem witness_SinksRun_6 : ∃ (k : Nat) (s : State), (twf {} s.relay.sinks = true) ∧ ((getSink s k).clearDue = true) :=
  ⟨300, at_snkDue, by decide, by decide⟩

theorem witness_SinksRun_7 : ∃ (k : Fin 512) (s : State), (relayOn s = true) ∧ (sinkMay s k.val = true) ∧ ((k.val < 32 → ptCanStart s
    k.val = true)) ∧ ((32 ≤ k.val → k.val < 96 → (getSink s k.val).en = true)) ∧ ((256 ≤ k.val → (getSink s k.val).pulseAfter ≤
    s.cycle)) :=
  ⟨300, at_snk300, by decide, by decide, by decide, by decide, by decide⟩

theorem witness_SinksRun_8 : ∃ (k : Fin 512) (s : State), ((sinkMay s k.val = false ∨ (k.val < 32 ∧ ptCanStart s k.val = false) ∨ (32 ≤
    k.val ∧ k.val < 96 ∧ (getSink s k.val).en = false) ∨ (256 ≤ k.val ∧ s.cycle < (getSink s k.val).pulseAfter))) :=
  ⟨0, at_rst, by decide⟩

theorem witness_TimersRun_1 : ∃ (p : CtlPort) (n : Fin 32) (s : State), (mayTake s p (rlTimerCmd n.val) 4 = true) ∧ (timerMay s = true)
    ∧ (timerBad (getTimer s n.val) = false) :=
  ⟨Sys2Proof.CtlPort.host, 0, prov, by decide, by decide, by decide⟩

theorem witness_TimersRun_2 : ∃ (p : CtlPort) (n : Fin 32) (s : State), (mayTake s p (rlTimerCmd n.val) 4 = true) ∧ (timerMay s = true)
    ∧ (timerBad (getTimer s n.val) = true) :=
  ⟨Sys2Proof.CtlPort.host, 3, at_tmBad, by decide, by decide, by decide⟩

theorem witness_TimersRun_3 : ∃ (p : CtlPort) (n : Fin 32) (s : State), (mayTake s p (rlTimerCmd n.val) 4 = true) ∧ (timerMay s = true)
    ∧ (((getTimer s n.val).running = false ∨ timerDue s (getTimer s n.val) = false)) :=
  ⟨Sys2Proof.CtlPort.host, 0, prov, by decide, by decide, by decide⟩

theorem witness_TimersRun_4 : ∃ (p : CtlPort) (n : Fin 32) (s : State), (mayTake s p (rlTimerCmd n.val) 4 = true) ∧ (s.mode.mode =
    .service) ∧ ((getTimer s n.val).running = true) ∧ (timerDue s (getTimer s n.val) = true) :=
  ⟨Sys2Proof.CtlPort.host, 3, at_tmDue, by decide, by decide, by decide, by decide⟩

theorem witness_TimersRun_5 : ∃ (n : Fin 32) (s : State), (s.mode.mode = .service) ∧ ((getTimer s n.val).running = true) ∧ (timerDue s
    (getTimer s n.val) = true) :=
  ⟨3, at_tmDue, by decide, by decide, by decide⟩

theorem witness_TimersRun_6 : ∃ (n : Fin 32) (s : State), (relayOn s = true) ∧ (s.mode.mode ≠ .service) ∧ ((getTimer s n.val).running =
    true) ∧ (timerDue s (getTimer s n.val) = true) :=
  ⟨3, at_tmProv, by decide, by decide, by decide, by decide⟩

theorem witness_TimeIsWritten_1 : ∃ (p : CtlPort) (h : PairHalf) (data : W64) (s : State), (served s = true) ∧ (s.almanac.wlock = false)
    :=
  ⟨Sys2Proof.CtlPort.host, Sys2Proof.PairHalf.low, 0x0000000000000000#64, at_sc, by decide, by decide⟩

theorem witness_TimeIsWritten_2 : ∃ (p : CtlPort) (data : W32) (s : State), (served s = true) ∧ (s.almanac.wlock = false) ∧ (data.toNat
    % 2 ^ 30 < 1000000000) ∧ (nsecBeaten s p = false) :=
  ⟨Sys2Proof.CtlPort.host, 0x00000000#32, at_sc, by decide, by decide, by decide, by decide⟩

theorem witness_TimeIsWritten_3 : ∃ (p : CtlPort) (data : W32) (s : State), (served s = true) ∧ ((s.almanac.wlock = true ∨ 1000000000 ≤
    data.toNat % 2 ^ 30 ∨ nsecBeaten s p = true)) :=
  ⟨Sys2Proof.CtlPort.host, 0x3b9aca00#32, at_sc, by decide, by decide⟩

theorem witness_TimeIsWritten_4 : ∃ (p : CtlPort) (byte : Fin 4) (size : AccSize) (s : State), (served s = true) ∧ (byte.val % accBytes
    size = 0) :=
  ⟨Sys2Proof.CtlPort.host, 0, Sys2Proof.AccSize.b1, at_sc, by decide, by decide⟩

theorem witness_TimeIsWritten_5 : ∃ (p : CtlPort) (byte : Fin 4) (size : AccSize) (s : State), (portThere s = true) ∧ ((served s = false
    ∨ byte.val % accBytes size ≠ 0)) :=
  ⟨Sys2Proof.CtlPort.host, 0, Sys2Proof.AccSize.b1, at_rst, by decide, by decide⟩

theorem witness_AlmanacRuns_1 : ∃ (s : State), (awake s = true) ∧ (rollsOver s.almanac = true) :=
  ⟨at_alRoll, by decide, by decide⟩

theorem witness_AlmanacRuns_2 : ∃ (tod : BitVec 48) (s : State), (awake s = true) ∧ (s.almanac.disc = true) ∧ (edgeSpaced s = true) ∧
    (timeSet s = false) ∧ (writeBeats s = false) :=
  ⟨0x000000000000#48, at_cold, by decide, by decide, by decide, by decide, by decide⟩

theorem witness_AlmanacRuns_3 : ∃ (tod : BitVec 48) (v : Bool) (s : State), (awake s = true) ∧ (s.almanac.disc = true) ∧ ((v = false ∨
    edgeSpaced s = false ∨ writeBeats s = true)) :=
  ⟨0x000000000000#48, false, at_cold, by decide, by decide, by decide⟩

theorem witness_AlmanacRuns_4 : ∃ (s : State), (s.almanac.state = .locked) ∧ (edgeLost s = true) :=
  ⟨at_alLock, by decide, by decide⟩

theorem witness_AlmanacRuns_5 : ∃ (s : State), (s.almanac.state = .holdover) ∧ (s.almanac.holdMax ≠ 0) ∧ (s.almanac.holdSince +
    500000000 * s.almanac.holdMax.toNat ≤ s.cycle) ∧ (twf {} s.serai.slots = true) :=
  ⟨at_alHold, by decide, by decide, by decide, by decide⟩

theorem witness_AlmanacRuns_6 : ∃ (s : State), (awake s = true) :=
  ⟨at_cold, by decide⟩

theorem witness_AlmanacRuns_7 : ∃ (k : Fin 16) (s : State), (awake s = true) ∧ ((getAlarm s k.val).en = true) ∧ (timeSet s = true) ∧
    (alarmDue s.almanac.time (getAlarm s k.val) = true) :=
  ⟨3, at_alAlarm, by decide, by decide, by decide, by decide⟩

theorem witness_AlmanacRuns_8 : ∃ (s : State), (heartbeatDue s = true) ∧ (heartbeatOut s = false) :=
  ⟨at_alHb, by decide, by decide⟩

theorem witness_AlmanacRuns_9 : ∃ (s : State), (heartbeatDue s = true) ∧ (heartbeatOut s = true) :=
  ⟨at_alHbOut, by decide, by decide⟩

theorem witness_AlmanacRuns_10 : ∃ (s : State), (heartbeatDue s = false) :=
  ⟨at_rst, by decide⟩

theorem witness_LedgerRuns_1 : ∃ (i : Nat) (r : LedgerRec) (s : State), (awake s = true) ∧ (s.ledger.ovfDue = false) ∧ (nextRecord
    s.ledger = some i) ∧ (s.ledger.waiting[i]? = some r) ∧ (recordFits s r = true) :=
  ⟨0, _, { prov with ledger := { waiting := [{ producer := 3, type := 1, code := 0, body := [], madeAt := 0, unit := 0 }] } }, by
    decide, by decide, by decide, rfl, by decide⟩

theorem witness_LedgerRuns_4 : ∃ (s : State), (awake s = true) ∧ (s.ledger.ovfDue = true) :=
  ⟨at_ledOvf, by decide, by decide⟩

theorem witness_LedgerRuns_5 : ∃ (s : State), (awake s = true) ∧ (s.ledger.drain = []) ∧ (s.ledger.fill ≠ []) ∧ (s.ledger.fill.length ≤
    bankWords) :=
  ⟨at_ledSwap, by decide, by decide, by decide, by decide⟩

theorem witness_LedgerRuns_6 : ∃ (p : CtlPort) (size : AccSize) (s : State), (ledgerServed s p = true) ∧ (s.ledger.drain = []) :=
  ⟨Sys2Proof.CtlPort.host, Sys2Proof.AccSize.b1, at_sc, by decide, by decide⟩

theorem witness_LedgerRuns_7 : ∃ (p : CtlPort) (size : AccSize) (w : LedgerWord) (ws : List LedgerWord) (s : State), (ledgerServed s p =
    true) ∧ (s.ledger.drain = w :: ws) ∧ (w.ue = false) :=
  ⟨Sys2Proof.CtlPort.host, Sys2Proof.AccSize.b1, _, _, at_ledFull, by decide, rfl, by decide⟩

theorem witness_LedgerRuns_8 : ∃ (p : CtlPort) (size : AccSize) (w : LedgerWord) (ws : List LedgerWord) (s : State), (ledgerServed s p =
    true) ∧ (s.ledger.drain = w :: ws) ∧ (w.ue = true) :=
  ⟨Sys2Proof.CtlPort.host, Sys2Proof.AccSize.b1, _, _, at_ledUe, by decide, rfl, by decide⟩

theorem witness_FuseCommandsBegin_1 : ∃ (p : CtlPort) (w : BitVec 9) (acc : Bool) (s : State), (mayTake s p fzCmd 4 = true) ∧
    (s.fuse.cmd = none) ∧ (s.mode.mode = .provision) ∧ (programMay s w.toNat = true) ∧ ((acc = true ∨ tget 0 s.fuse.array w.toNat = 0))
    :=
  ⟨.host, 96, true, prov, by decide, by decide, by decide, by decide, by decide⟩

theorem witness_FuseCommandsBegin_2 : ∃ (p : CtlPort) (s : State), (mayTake s p fzCmd 4 = true) ∧ (s.fuse.cmd = none) ∧ (s.mode.mode =
    .provision) ∧ (s.fuse.life = 0) ∧ (wellCan s = true) :=
  ⟨Sys2Proof.CtlPort.host, prov, by decide, by decide, by decide, by decide, by decide⟩

theorem witness_FuseCommandsBegin_3 : ∃ (d : DrawRec) (j : FuseJob) (s : State), (wellCan s = true) ∧ (nextDraw s = some d) ∧ (d.who =
    .genroot) ∧ (0 < grantSize s d) ∧ (d.need ≤ d.got.length + grantSize s d) ∧ (s.fuse.cmd = some j) :=
  ⟨_, _, at_gGen, by decide, rfl, by decide, by decide, by decide, rfl⟩

theorem witness_FuseCommandsBegin_4 : ∃ (p : CtlPort) (s : State), (mayTake s p fzCmd 4 = true) ∧ (s.fuse.cmd = none) ∧ (s.mode.mode =
    .provision) ∧ (s.fuse.life = 0) ∧ (wellCan s = false) :=
  ⟨Sys2Proof.CtlPort.host, at_wBad, by decide, by decide, by decide, by decide, by decide⟩

theorem witness_FuseCommandsBegin_5 : ∃ (p : CtlPort) (s : State), (mayTake s p fzCmd 4 = true) ∧ (s.fuse.cmd = none) ∧ (s.mode.mode =
    .provision) ∧ (s.fuse.life = 1) ∧ (s.fuse.disagree = false) ∧ (s.fuse.fault = false) :=
  ⟨Sys2Proof.CtlPort.host, at_prov1, by decide, by decide, by decide, by decide, by decide, by decide⟩

theorem witness_FuseCommandsBegin_7 : ∃ (p : CtlPort) (s : State), (mayTake s p fzCmd 4 = true) ∧ (s.fuse.cmd = none) ∧ (s.mode.mode =
    .provision) ∧ (s.fuse.life = 2) ∧ (s.fuse.ownerV = true) :=
  ⟨Sys2Proof.CtlPort.host, at_prov2, by decide, by decide, by decide, by decide, by decide⟩

theorem witness_FuseCommandsBegin_8 : ∃ (p : CtlPort) (s : State), (mayTake s p fzCmd 4 = true) ∧ (s.fuse.cmd = none) ∧ (s.mode.mode =
    .provision) ∧ ((s.fuse.life = 1 ∨ s.fuse.life = 2 ∨ s.fuse.life = 3)) ∧ (ownerHeld s = false) :=
  ⟨Sys2Proof.CtlPort.host, at_prov3, by decide, by decide, by decide, by decide, by decide⟩

theorem witness_FuseCommandsEnd_1 : ∃ (j : FuseJob) (stuck : List W32) (s : State), (s.fuse.cmd = some j) ∧ (j.plan = []) :=
  ⟨_, [], at_fzWait, rfl, by decide⟩

theorem witness_FuseCommandsEnd_2 : ∃ (j : FuseJob) (stuck : List W32) (s : State), (s.fuse.cmd = some j) ∧ (j.plan ≠ []) :=
  ⟨_, [], at_fzEnd, rfl, by decide⟩

theorem witness_SafeConductRuns_1 : ∃ (p : CtlPort) (s : State), (mayTake s p sfCmd 4 = true) ∧ (s.safe.cmd = none) ∧ (s.mode.mode =
    .provision) ∧ (unitKeyed s = true) ∧ (s.safe.storeAddr ≠ 0) ∧ (s.safe.storeAddr.toNat % 4096 = 0) ∧ (s.safe.held = true) :=
  ⟨.host, at_sfRh, by decide, by decide, by decide, by decide, by decide, by decide, by decide⟩

theorem witness_SafeConductRuns_2 : ∃ (p : CtlPort) (s : State), (mayTake s p sfCmd 4 = true) ∧ (s.safe.cmd = none) ∧ (s.mode.mode =
    .provision) ∧ (unitKeyed s = true) ∧ (s.safe.storeAddr ≠ 0) ∧ (s.safe.storeAddr.toNat % 4096 = 0) ∧ (s.safe.held = false) ∧
    (unitMaskDead s = false) ∧ (wellCan s = true) :=
  ⟨Sys2Proof.CtlPort.host, at_sf0, by decide, by decide, by decide, by decide, by decide, by decide, by decide, by decide, by decide⟩

theorem witness_SafeConductRuns_3 : ∃ (p : CtlPort) (u : BitVec 5) (s : State), (mayTake s p sfCmd 4 = true) ∧ (s.safe.cmd = none) ∧
    ((s.mode.mode = .provision ∨ s.mode.mode = .service)) ∧ (unitKeyed s = true) ∧ (unitMaskDead s = false) ∧ (wellCan s = true) :=
  ⟨Sys2Proof.CtlPort.host, 0x00#5, at_prov3, by decide, by decide, by decide, by decide, by decide, by decide⟩

theorem witness_SafeConductRuns_4 : ∃ (p : CtlPort) (u : BitVec 5) (s : State), (mayTake s p sfCmd 4 = true) ∧ (s.safe.cmd = none) ∧
    ((s.mode.mode = .provision ∨ s.mode.mode = .service)) ∧ (unitKeyed s = true) ∧ ((unitMaskDead s = true ∨ wellCan s = false)) :=
  ⟨Sys2Proof.CtlPort.host, 0x00#5, at_sfBad, by decide, by decide, by decide, by decide, by decide⟩

theorem witness_SafeConductRuns_5 : ∃ (p : CtlPort) (u : BitVec 5) (s : State), (mayTake s p sfCmd 4 = true) ∧ (s.safe.cmd = none) ∧
    (((s.mode.mode ≠ .provision ∧ s.mode.mode ≠ .service) ∨ unitKeyed s = false)) :=
  ⟨Sys2Proof.CtlPort.host, 0x00#5, at_sc, by decide, by decide, by decide⟩

theorem witness_SafeConductRuns_6 : ∃ (s : State), (s.safe.cmd = some .publish) ∧ (s.safe.stage = .signing) ∧ (unitMaskDead s = false) ∧
    (signed s 64 = true) :=
  ⟨at_sfS, by decide, by decide, by decide, by decide⟩

theorem witness_SafeConductRuns_7 : ∃ (u : Nat) (s : State), (s.safe.cmd = some (.attest u)) ∧ (s.safe.stage = .signing) ∧ (unitMaskDead
    s = false) ∧ (signed s 2 = true) :=
  ⟨_, at_sfA, rfl, by decide, by decide, by decide⟩

theorem witness_SafeConductRuns_8 : ∃ (fail : Option Status) (s : State), (s.safe.stage = .writing) :=
  ⟨none, at_sfW, by decide⟩

theorem witness_SafeConductRuns_9 : ∃ (st : Status) (s : State), (s.safe.cmd = some .publish) ∧ (s.safe.stage = .over st) :=
  ⟨_, at_sfOp, by decide, rfl⟩

theorem witness_SafeConductRuns_10 : ∃ (u : Nat) (st : Status) (s : State), (s.safe.cmd = some (.attest u)) ∧ (s.safe.stage = .over st) :=
  ⟨_, _, at_sfOa, rfl, rfl⟩

theorem witness_ZeroizationActs_1 : ∃ (c : Instr) (cause : Nat) (s : State), (((c = .zeroize ∧ s.pins.zeroize = false ∧ cause = 5) ∨ ∃ i
    : Fin 4, c = .tamperInput i ∧ tb s.watch.act i.val = true ∧ s.watch.zeroAt ≠ some s.cycle ∧ cause = i.val + 1)) :=
  ⟨Sys2Proof.Instr.zeroize, 5, at_rst, by decide⟩

theorem witness_ZeroizationActs_2 : ∃ (s : State), (s.pins.zeroize = true) :=
  ⟨at_zero, by decide⟩

theorem witness_ZeroizationActs_3 : ∃ (i : Fin 4) (s : State), ((tb s.watch.act i.val = false ∨ s.watch.zeroAt = some s.cycle)) ∧ (awake
    s = true) :=
  ⟨0, at_tamper0, by decide, by decide⟩

theorem witness_ZeroizationActs_4 : ∃ (p : CtlPort) (s : State), (mayTake s p wtCmd 4 = true) ∧ (s.mode.mode = .provision) :=
  ⟨Sys2Proof.CtlPort.host, prov, by decide, by decide⟩

theorem witness_RegisterWritesLand_1 : ∃ (p : CtlPort) (off : BitVec 24) (data : W64) (s : State), (mayTake s p off.toNat 4 = true) ∧
    (s.mode.mode ≠ .provision) ∧ (off.toNat % 4 = 0) ∧ (stopMask off.toNat ≠ 0) :=
  ⟨.host, 0x200004, 0, svc, by decide, by decide, by decide, by decide⟩

theorem witness_RegisterWritesLand_2 : ∃ (p : CtlPort) (off : BitVec 24) (data : W64) (s : State), (mayTake s p off.toNat 4 = true) ∧
    (s.mode.mode = .provision) ∧ (off.toNat % 4 = 0) ∧ (stopMask off.toNat ≠ 0) ∧ (stopActs off.toNat = false) ∧ (boundGuards s
    off.toNat = false) :=
  ⟨.host, 0x200004, 5, prov, by decide, by decide, by decide, by decide, by decide, by decide⟩

theorem witness_RegisterWritesLand_3 : ∃ (p : CtlPort) (off : BitVec 24) (data : W64) (s : State), (mayTake s p off.toNat 4 = true) ∧
    (off.toNat % 4 = 0) ∧ (rwMask off.toNat ≠ 0) :=
  ⟨.host, 0x200040, 5, svc, by decide, by decide, by decide⟩

theorem witness_RegisterWritesLand_4 : ∃ (p : CtlPort) (data : W64) (s : State), (mayTake s p 0xB00004 4 = true) :=
  ⟨.host, 5, svc, by decide⟩

theorem witness_RegisterWritesLand_5 : ∃ (p : CtlPort) (data : W64) (s : State), (mayTake s p 0x200004 4 = true) ∧ (s.mode.mode =
    .provision) :=
  ⟨.host, 5, prov, by decide, by decide⟩

theorem witness_RegisterWritesLand_6 : ∃ (p : CtlPort) (data : W64) (s : State), (mayTake s p 0x200040 4 = true) :=
  ⟨.host, 5, svc, by decide⟩

theorem witness_RegisterWritesLand_7 : ∃ (p : CtlPort) (r : Fin 4096) (data : W64) (s : State), (mayTake s p (0x100008 + 0x100 * r.val)
    8 = true) ∧ (s.mode.mode = .provision) :=
  ⟨.sideband, 4095, 0x1000, prov, by decide, by decide⟩

theorem witness_RegisterWritesLand_8 : ∃ (p : CtlPort) (r : Fin 4096) (data : W64) (s : State), (mayTake s p (0x100008 + 0x100 * r.val)
    8 = true) ∧ (s.mode.mode ≠ .provision) ∧ (data &&& 0xFFFFFFFFFFFFF000 ≠ (getRing s r.val).base &&& 0xFFFFFFFFFFFFF000) :=
  ⟨.sideband, 4095, 0x1000, svc, by decide, by decide, by decide⟩

theorem witness_RegisterWritesLand_9 : ∃ (p : CtlPort) (r : Fin 4096) (data : W64) (s : State), (mayTake s p (0x10000C + 0x100 * r.val)
    4 = true) ∧ (s.mode.mode = .provision) :=
  ⟨.host, 4095, 1, prov, by decide, by decide⟩

theorem witness_RegisterWritesLand_10 : ∃ (p : CtlPort) (off : BitVec 24) (n : AccSize) (data : W64) (s : State), (served s = true) ∧
    (accBytes n < 4) ∧ (off.toNat % accBytes n = 0) ∧ ((regWord s p (off.toNat / 4 * 4)).isSome = true) ∧ (isDoorbell off.toNat = false)
    ∧ ((off.toNat < 0x400000 ∨ 0x480000 ≤ off.toNat)) :=
  ⟨.host, 0x200041, .b1, 1, svc, by decide, by decide, by decide, by decide, by decide, by decide⟩

theorem witness_RegisterWritesLand_11 : ∃ (off : BitVec 24) (data : W64) (s : State), (served s = true) ∧ (sideMeets s .host off.toNat 4
    = true) ∧ (off.toNat % 4 = 0) ∧ ((rwMask off.toNat ≠ 0 ∨ (stopMask off.toNat ≠ 0 ∧ stopActs off.toNat = false ∧ boundGuards s
    off.toNat = false))) :=
  ⟨0x200040, 1, { svc with ports := { sideWrote := some (svc.cycle, 0x200040, 4) } }, by decide, by decide, by decide, by decide⟩

theorem witness_RegisterWritesLand_12 : ∃ (p : CtlPort) (off : BitVec 24) (data : W64) (s : State), (served s = true) ∧ (off.toNat % 4 =
    0) ∧ (regWord s p off.toNat = none) :=
  ⟨.host, 0x2000F0, 1, svc, by decide, by decide, by decide⟩

theorem witness_RegisterWritesLand_13 : ∃ (p : CtlPort) (off : BitVec 24) (n : AccSize) (data : W64) (s : State), (portThere s = true) ∧
    ((off.toNat % accBytes n ≠ 0 ∨ (served s = false ∧ (p = .host ∨ s.mode.mode ≠ .cleared ∨ off ≠ 0x900004 ∨ n ≠ .b4 ∨ fld data 0 4 ≠
    4)))) :=
  ⟨.host, 0x200041, .b2, 1, svc, by decide, by decide⟩

theorem witness_RegisterWritesLand_14 : ∃ (p : CtlPort) (off : BitVec 24) (n : AccSize) (data : W64) (s : State), (portThere s = false) :=
  ⟨.host, 0x200040, .b4, 1, { svc with pins := { icRst := true } }, by decide⟩

theorem witness_StepRunsTheFrontCommand_1 : ∃ (c : Instr) (rest : List Instr) (s : State), (s.pending = c :: rest) :=
  ⟨.freeze, [], at_pendQ, by decide⟩

theorem witness_StepRunsTheFrontCommand_2 : ∃ (s : State), (s.pending = []) :=
  ⟨at_rst, by decide⟩

theorem witness_ResetIsCanonical_3 : ∃ (p : CtlPort) (off : Nat), (0x200000 ≤ off) ∧ (off < 0xD00000) ∧ (off % 4 = 0) ∧ (off ≠ 0x900000)
    :=
  ⟨.host, 0x200000, by decide, by decide, by decide, by decide⟩

theorem witness_ResetIsCanonical_4 : ∃ (p : CtlPort) (r : Fin 4096) (o : Nat), (o < 0x100) ∧ (o % 4 = 0) :=
  ⟨.host, 4095, 0x18, by decide, by decide⟩

/-! ### Witnesses that need more than evaluation -/

/-- A run answers, and what it answers satisfies `p`. -/
def answers {α : Type} (x : Res α) (p : α → Bool) : Bool :=
  match x with
  | .ok a => p a
  | _ => false

theorem res_ok {α : Type} (x : Res α) (p : α → Bool) (h : answers x p = true) : ∃ a, x = .ok a ∧ p a = true := by
  cases x <;> simp_all [answers]

/-- The instruction that the running job of lane 0 is at. -/
def here (s : State) : W64 := instrAt s (getJob s 1) (getJob s 1).pos

/-- The way and the state of an answer that has them. -/
def wayOf : WayRes → Option (Nat × State)
  | .way k s => some (k, s)
  | _ => none

theorem way_get (w : WayRes) (h : (wayOf w).isSome = true) : w = .way ((wayOf w).get h).1 ((wayOf w).get h).2 := by
  cases w with
  | way k s => rfl
  | waits b => exact absurd h (by simp [wayOf])
  | none => exact absurd h (by simp [wayOf])

theorem witness_FunctionLevelResetAndLatency_2 : ∃ (func : W16) (s : State), (portsServed s = true) ∧ (s.pins.icRst = false) ∧ (func ∉
    s.ai.flrs) ∧ (s.ai.flrs.length < 8) ∧ (flrRings s func = []) ∧ ((∀ kv, kv ∈ s.rings → kv.2.flrPend = true → kv.2.func ≠ func)) :=
  ⟨0x0001#16, at_sc, by decide, by decide, by decide, by decide, by decide +kernel, by decide⟩

theorem witness_DirectCommandsStart_1 : ∃ (c : (CtlPort → Fin 8 → BitVec 9 → BitVec 9 → Instr) × Nat) (p : CtlPort) (b : Fin 8) (nlen
    elen : BitVec 9) (s : State),
    (c ∈ [(Instr.dmul, 1), (Instr.dmod, 2), (Instr.modadd, 3), (Instr.modsub, 4), (Instr.modmul, 5), (Instr.modexp, 6),
      (Instr.modinv, 7)]) ∧ (mayTake s p (chCmd b.val) 4 = true) ∧ (directReady s b.val = true) ∧ (benchBusy s b.val = false) ∧
    (directOk s b.val c.2 nlen.toNat elen.toNat = true) :=
  ⟨(Instr.dmul, 1), .host, 0, 1, 0, at_bRun, by simp, by decide, by decide, by decide, by decide⟩

theorem witness_ScalesRun_1 : ∃ (l : Fin 16) (j : Nat) (i : W64) (q : List Byte × List Byte × List Byte × Job) (s : State), (laneTask s
    l.val (isOp .latop) = some (j, i)) ∧ ((getJob s j).kept = none) ∧ ((getJob s j).wait = .nothing) ∧ (issueOk (getJob s j) i = true) ∧
    (latKeyFault s j (keyNum (wC i)) (wFn i) (wParam i) = none) ∧ (latReady (getJob s j) i = .ok q) ∧ ((latDraws i = true → wellCan s =
    true)) ∧ (scalesClosed s = false) := by
  obtain ⟨q, h, _⟩ := res_ok (latReady (getJob at_lat1 1) (here at_lat1)) (fun _ => true) (by decide +kernel)
  exact ⟨0, 1, here at_lat1, q, at_lat1, rfl, by decide, by decide, by decide, by decide, h, by decide, by decide⟩

theorem lat1K_way : (wayOf (privateWay (releaseKey (takeIncoming at_lat1K 1) 1 (keyNum (wC (here at_lat1K)))))).isSome = true := by
  decide +kernel

theorem witness_ScalesRun_4 : ∃ (l : Fin 16) (j k : Nat) (i : W64) (bs : List Byte) (y : Job) (outs : List OutW) (s2 s : State),
  let made := if wFn i = 0x01 then seedSlot else secretSlot
    let s3 := loadKey (fillPrivate s2 k (jobTenant s2 j) .privateKey (incomingKey s j).length l.val 0 made (incomingKey s j)) j (keyNum
        (wC i)) k
  (laneTask s l.val (isOp .latop) = some (j, i)) ∧ ((getJob s j).kept = some bs) ∧ ((wFn i = 0x01 ∨ wFn i = 0x02)) ∧ (privateWay
      (releaseKey (takeIncoming s j) j (keyNum (wC i))) = .way k s2) ∧ (putOut (getJob s3 j) (opd (wA i)) false bs = .ok (y, outs)) ∧
      (outputsMay s j y outs) := by
  let w := (wayOf (privateWay (releaseKey (takeIncoming at_lat1K 1) 1 (keyNum (wC (here at_lat1K)))))).get lat1K_way
  obtain ⟨⟨y, outs⟩, h, _⟩ := res_ok (putOut (getJob (loadKey (fillPrivate w.2 w.1 (jobTenant w.2 1) .privateKey
    (incomingKey at_lat1K 1).length 0 0 seedSlot (incomingKey at_lat1K 1)) 1 (keyNum (wC (here at_lat1K))) w.1) 1)
    (opd (wA (here at_lat1K))) false (zs 864)) (fun _ => true) (by decide +kernel)
  exact ⟨0, 1, w.1, here at_lat1K, zs 864, y, outs, w.2, at_lat1K, rfl, rfl, by decide, way_get _ lat1K_way, h,
    fun h => absurd h (by decide)⟩

/-- `at_derive` with its destination register released. -/
def deriveTo : State := releaseKey (modJob at_derive 1 (fun _ => getJob at_derive 1)) 1 (keyNum (wA (here at_derive)))

theorem derive_way : (wayOf (privateWay deriveTo)).isSome = true := by decide +kernel

theorem witness_PutAndDeriveKeys_3 : ∃ (l : Fin 16) (j k : Nat) (i : W64) (inp : List Byte) (y : Job) (s2 s : State),
  let kb := keyNum (wB i)
    let key := deriveKey (wFn i) (wParam i) (keyBytes s j kb) inp
    let s1 := modJob s j (fun _ => y)
  (laneTask s l.val (isOp .derive) = some (j, i)) ∧ ((getJob s j).wait = .nothing) ∧ (issueOk (getJob s j) i = true) ∧ (keyFault s j kb
      4 (wFn i) (kdfTypes (wFn i)) = none) ∧ (wField2 i < 128) ∧ (Nat.land (wField2 i) (grantOf (keySlot s j kb)) = wField2 i) ∧
      (deriveInput (getJob s j) (opd (wC i)) = .ok (inp, y)) ∧ (privateWay (if kb = keyNum (wA i) then s1 else releaseKey s1 j (keyNum
      (wA i))) = .way k s2) ∧ ((∀ old, keyReg s1 j (keyNum (wA i)) = some old → old.slot ≠ k)) ∧ (y.ring = (getJob s j).ring) := by
  obtain ⟨⟨inp, y⟩, h, hp⟩ := res_ok (deriveInput (getJob at_derive 1) (opd (wC (here at_derive))))
    (fun a => decide (a.2 = getJob at_derive 1)) (by decide +kernel)
  obtain rfl : y = getJob at_derive 1 := of_decide_eq_true hp
  have hn : keyReg (modJob at_derive 1 (fun _ => getJob at_derive 1)) 1 (keyNum (wA (here at_derive))) = none := by decide +kernel
  have hw : privateWay (if keyNum (wB (here at_derive)) = keyNum (wA (here at_derive)) then
      modJob at_derive 1 (fun _ => getJob at_derive 1) else
      releaseKey (modJob at_derive 1 (fun _ => getJob at_derive 1)) 1 (keyNum (wA (here at_derive)))) =
      .way ((wayOf (privateWay deriveTo)).get derive_way).1 ((wayOf (privateWay deriveTo)).get derive_way).2 := by
    rw [if_neg (by decide)]
    exact way_get (privateWay deriveTo) derive_way
  exact ⟨0, 1, _, here at_derive, inp, _, _, at_derive, rfl, by decide, by decide, by decide +kernel, by decide +kernel,
    by decide +kernel, h,
    hw, fun old ho => absurd (hn.symm.trans ho) (by simp), rfl⟩

theorem witness_MasksAndDeadSlots_6 : ∃ (slot : BitVec 15) (s : State), (s.serai.zeroed = false) ∧ ((∀ l j, l < 16 → (getLane s l).run =
    some j → touches s slot.toNat j = true → (getJob s j).isOver = true ∨ (getJob s j).wait ≠ .nothing)) :=
  ⟨0x0000#15, at_rst, by decide, fun l j _ h => absurd (show (none : Option Nat) = some j from h) (by simp)⟩

theorem witness_FillsServeTheKey_3 : ∃ (f j l : Nat) (st : Status) (s : State), (s.mint.fills.any (fun kv => kv.1 = f) = true) ∧
    ((getFill s f).phase = .failed st) ∧ ((getFill s f).joined = [j]) ∧ ((getJob s j).seat = .running l) ∧ ((getJob s j).isOver = false)
    ∧ ((∀ b q, (getBench s b).run = some q → q.job ≠ j)) ∧ ((∀ c q, (getCtx s c).run = some q → q.job ≠ j)) :=
  ⟨4, _, 0, _, at_fillBad, by decide, rfl, rfl, rfl, by decide,
    fun _ q h => absurd (show (none : Option PkReq) = some q from h) (by simp),
    fun _ q h => absurd (show (none : Option LatReq) = some q from h) (by simp)⟩

theorem witness_ChartersRun_7 : ∃ (s : State), (((getCtx s 2).faulted = true ∨ (getCtx s 3).faulted = true ∨ unitMaskDead s = true)) ∧
    (s.mint.chStage ≠ .idle) ∧ ((∀ st reason index, s.mint.chStage ≠ .refused st reason index)) :=
  ⟨at_chFlt, by decide, by decide, by intro st r x; exact ChStage.noConfusion⟩

set_option maxRecDepth 100000 in
theorem chRuns : (chCommands (charterBytes at_chRdy)).isSome = true := by decide +kernel

set_option maxRecDepth 100000 in

theorem witness_ChartersRun_9 : ∃ (q : ChState) (cmds : List ChCmd) (s : State), (s.mint.chStage = .ready) ∧ (unitMaskDead s = false) ∧
    (chCommands (charterBytes s) = some cmds) ∧ (chChecks s (chTallyOf s) (charterBytes s) 0 { owner := ownerHeld s } cmds = .inr q) :=
    by
  have h : (chChecks at_chRdy (chTallyOf at_chRdy) (charterBytes at_chRdy) 0 { owner := ownerHeld at_chRdy }
      (Option.get _ chRuns)).isRight = true := by decide +kernel
  obtain ⟨q, hq⟩ := Sum.isRight_iff.mp h
  exact ⟨q, _, at_chRdy, by decide, by decide, (Option.some_get chRuns).symm, hq⟩

theorem witness_ClearedEndsOnlyByReset_1 : ∃ s t : State, (s.mode.mode = .cleared) ∧ (s.mode.recov = none) ∧ (step s = .next t) :=
  ⟨at_cleared, _, by decide, by decide, rfl⟩

theorem witness_ClearedEndsOnlyByReset_2 : ∃ s t : State, (s.mode.mode = .cleared → s.mode.recov = none) ∧ (step s = .next t) ∧
    (t.mode.mode = .cleared) :=
  ⟨{ at_cleared with pending := [.freeze] }, _, by decide, rfl, rfl⟩

theorem witness_TablesStayCanonical_1 : ∃ (s t : State), (s.canonical = true) ∧ (step s = .next t) :=
  ⟨at_pendQ, _, by decide, rfl⟩

theorem witness_TablesStayCanonical_2 : ∃ s t : State, (s.sided = true) ∧ (step s = .next t) :=
  ⟨atLast at_pendQ .heartbeat true, _, by decide, rfl⟩

theorem witness_FuseCommandsBegin_6 : ∃ (p : CtlPort) (acc : Bool) (s : State), (mayTake s p fzCmd 4 = true) ∧ (s.fuse.cmd = none) ∧
    (s.mode.mode = .provision) ∧ (s.fuse.life = 2) ∧ (s.fuse.ownData ≠ 0) ∧ ((acc = true ∨ ∀ w, 65 ≤ w → w ≤ 77 → tget 0 s.fuse.array w
    = 0)) :=
  ⟨.host, true, at_prov2, by decide, by decide, by decide, by decide, by decide +kernel, .inl rfl⟩

theorem witness_FuseCommandsBegin_9 : ∃ (p : CtlPort) (s : State) (c : Instr) (op : Nat), (mayTake s p fzCmd 4 = true) ∧ (s.fuse.cmd =
    none) ∧
    (s.mode.mode ≠ .provision) ∧ ((c, op) ∈ [(Instr.genroot p, 2), (.lockSecret p, 3), (.lockOwner p, 5), (.retire p, 6)]) :=
  ⟨.host, svc, .genroot .host, 2, by decide, by decide, by decide, by decide⟩

theorem witness_LedgerRuns_2 : ∃ (i : Nat) (r : LedgerRec) (s : State), (awake s = true) ∧ (s.ledger.ovfDue = false) ∧ (nextRecord
    s.ledger = some i) ∧ (s.ledger.waiting[i]? = some r) ∧ (recordFits s r = false) ∧ (s.ledger.drain ≠ []) :=
  ⟨_, _, at_ledFull, by decide +kernel, by decide +kernel, rfl, rfl, by decide +kernel, by decide +kernel⟩

theorem witness_LedgerRuns_3 : ∃ (i : Nat) (r : LedgerRec) (s : State), (awake s = true) ∧ (s.ledger.ovfDue = false) ∧
    (s.ledger.newDrops = 0) ∧ (nextRecord s.ledger = some i) ∧ (s.ledger.waiting[i]? = some r) ∧ (recordFits s r = false) ∧
    (s.ledger.drain = []) :=
  ⟨_, _, at_ledNew, by decide +kernel, by decide +kernel, by decide +kernel, rfl, rfl, by decide +kernel, by decide +kernel⟩

theorem witness_WellRuns_1 : ∃ (n : Fin 4) (test : HealthTest) (s : State),
    let x := getSource s.well n.val
    let starts := (startSources s &&& ~~~s.well.startFail).toNat.testBit n.val
    (portsServed s = true) ∧ (s.well.zeroed = false) ∧ ((test = .repetition ∧ repeats x = true ∧ starts = false) ∨
      (test = .proportion ∧ recurs x = true ∧ repeats x = false ∧ starts = false) ∨
      (test = .startup ∧ (repeats x = true ∨ recurs x = true) ∧ starts = true)) :=
  ⟨1, .repetition, at_fRep, by decide, by decide, by decide⟩

/-- The verdict of the known-answer test is a free value: the witness is for one that fails. -/

theorem witness_WellRuns_10 (h : Config.wellKat (at_wKat.well.reseeds + 1).toNat = false) : ∃ (s : State), (portsServed s = true) ∧
    (wellCan s = true) ∧ (reseedInt s ≤ s.well.genCalls) ∧ (inputReady s = true) ∧ (reseedBarred s = false) ∧ ((s.well.reseeds +
    1).toNat % 2 ^ 24 = 0) ∧ (Config.wellKat (s.well.reseeds + 1).toNat = false) := by
  exact ⟨at_wKat, by decide, by decide, by decide, by decide +kernel, by decide +kernel, by decide, h⟩

theorem witness_XformComputes_3 : ∃ (l : Fin 16) (j p : Nat) (i : W64) (s : State), (nextJobOf (getLane s l.val) = some j) ∧
    ((getLane s l.val).run = none) ∧ (laneHeld s l.val = false) ∧ (laneOut s l.val = false) ∧ (jobMoves s l.val j = true) ∧
    ((getJob s j).started = false) ∧
    (e0Route (getJob s j).word0 = 0 ∨ (getRoute s (e0Route (getJob s j).word0)).valid = true) ∧
    (p < e0Ninst (getJob s j).word0) ∧ ((getJob s j).slots.getD p 0 = i) ∧ (isOp .xform i = true) ∧
    (let b := accepts (wB i) [.s]
     let c := accepts (wC i) [.s]
     ¬(accepts (wA i) [.s] = true ∧ ((wFn i = 1 ∧ b = true ∧ c = true ∧ wArg i = 0) ∨ (wFn i = 2 ∧ b = true ∧ wC i = 0 ∧ wArg i = 0) ∨
       (wFn i = 3 ∧ b = true ∧ wC i = 0) ∨ (wFn i = 4 ∧ b = true ∧ wC i = 0 ∧ wArg i = 0) ∨ (wFn i = 5 ∧ wB i = 0 ∧ wC i = 0)))) ∧
    ((getLane s l.val).courier ≠ none ∨ courierDue s l.val = false) :=
  ⟨0, 1, 0, ins 0x13 0x41 0x41 0x42 (6 + 65536 * 4), at_sb1, by decide, by decide, by decide, by decide, by decide, by decide,
    by decide, by decide, by decide, by decide, by decide, by decide⟩

set_option maxRecDepth 20400 in
theorem line_read : takeStream (getJob at_ctxL 1) 40 128 =
    .ok (line, { advJob (getJob at_ctxL 1) 40 128 with source := [[(0x4000, 128)]] }) := rfl

set_option maxRecDepth 20400 in
theorem line_read_update : takeStream (getJob at_ctxU 1) 40 128 =
    .ok (line, { advJob (getJob at_ctxU 1) 40 128 with source := [[(0x4000, 128)]] }) := rfl

/-- A line of zeros with its TAG passes, unless its TAG, a free value, is the poison pattern. -/
theorem line_passes (h : lineTag (zs 32) 0x4000 5 ([1] ++ zs 111) ≠ poison) : lineFault (zs 32) 0x4000 5 line = none := by
  have h1 : slice line 112 16 = lineTag (zs 32) 0x4000 5 ([1] ++ zs 111) := rfl
  have h2 : line.take 112 = [1] ++ zs 111 := rfl
  have h3 : ofLe (slice line 1 1) = 0 := rfl
  have h4 : ofLe (slice line 2 1) = 0 := rfl
  have h5 : ofLe (line.take 1) = 1 := rfl
  simpa [lineFault, h1, h2, h3, h4, h5] using h

/-- The TAG that the line carries is a free value: the witness is for a TAG that is not the poison pattern of R166. -/

theorem witness_StreamLinesRun_1 (h : lineTag (zs 32) 0x4000 5 ([1] ++ zs 111) ≠ poison) : ∃ (l : Fin 16) (j : Nat) (i : W64) (p :
    Piece) (line : List Byte) (y : Job) (s : State), (streamTask s l.val 1 = some (j, i)) ∧ (issueOk (getJob s j) i = true) ∧ ((ctxOf s
    l.val j) ≠ []) ∧ (lineOf (getJob s j) (ctxStream i) = .ok p) ∧ (takeStream (getJob s j) (ctxStream i) 128 = .ok (line, y)) ∧
    (lineFault ((ctxOf s l.val j).drop 32) p.addr (jobTenant s j) line = none) :=
  ⟨0, 1, here at_ctxL, _, line, _, at_ctxL, rfl, by decide, by decide, rfl, line_read, line_passes h⟩

/-- The TAG that the line carries is a free value: the witness is for a TAG that is not the poison pattern of R166. -/

theorem witness_StreamLinesRun_4 (h : lineTag (zs 32) 0x4000 5 ([1] ++ zs 111) ≠ poison) : ∃ (l : Fin 16) (j : Nat) (i : W64) (p :
    Piece) (line : List Byte) (y : Job) (s : State), (streamTask s l.val 3 = some (j, i)) ∧ (issueOk (getJob s j) i = true) ∧ ((ctxOf s
    l.val j) ≠ []) ∧ (lineOf (getJob s j) (ctxStream i) = .ok p) ∧ (takeStream (getJob s j) (ctxStream i) 128 = .ok (line, y)) ∧
    (jobLost s j = false) ∧ (lineFault ((ctxOf s l.val j).drop 32) p.addr (jobTenant s j) line = none) :=
  ⟨0, 1, here at_ctxU, _, line, _, at_ctxU, rfl, by decide, by decide, rfl, line_read_update, by decide, line_passes h⟩

/-- What the record of tenant 5 says. -/
def rec5 : TenantRec := { ktv := true, logSize := 10, epoch := 2, base := 0x40000, spaceLocal := true, pv := false, func := 0, pasid := 0 }

theorem ways_eq (n : Nat) : waysOf n = [8 * n, 8 * n + 1, 8 * n + 2, 8 * n + 3, 8 * n + 4, 8 * n + 5, 8 * n + 6, 8 * n + 7] := rfl

/-- A set whose way 0 is free fills it. -/
theorem free_way (s : State) (n : Nat) (h : (getSlot s (8 * n)).kind = .free) :
    (waysOf n).find? (fun k => (getSlot s k).kind = .free) = some (8 * n) := by
  rw [ways_eq]; exact List.find?_cons_of_pos (by simpa using h)

theorem fill_way (s : State) (n : Nat) (h : (getSlot s (8 * n)).kind = .free) (ha : s.serai.aged = []) :
    fillWay s n = .way (8 * n) s := by
  have hw : hasWay s n = true := List.any_eq_true.mpr ⟨8 * n, by simp [ways_eq], by simp [h]⟩
  simp [fillWay, hw, setAged, ha, free_way s n h]

theorem free_way1 (s : State) (n : Nat) (h : getSlot s (8 * n + 1) = {}) :
    ∃ k, (waysOf n).find? (fun k => (getSlot s k).kind = .free) = some k := by
  apply Option.isSome_iff_exists.mp
  rw [List.find?_isSome]
  exact ⟨8 * n + 1, by simp [ways_eq], by simp [h]⟩

theorem no_match (s : State) (kind : SlotKind) (t : BitVec 12) (i : Nat) (c : Option Byte)
    (h : ∀ k, (getSlot s k).kind = kind → (getSlot s k).index.toNat ≠ i) : matchSlots s kind t i c = [] := by
  refine List.filter_eq_nil_iff.mpr (fun k _ => ?_)
  by_cases hk : (getSlot s k).kind = kind
  · simp [hk, h k hk]
  · simp [hk]

theorem lookup_miss (s : State) (t : BitVec 12) (n : Nat) (e : W32)
    (h : ∀ k, (getSlot s k).kind = .tenant → (getSlot s k).index.toNat ≠ n) :
    lookupKey s t n e = (.miss, upSerai s (fun x => { x with misses := x.misses + 1 })) := by
  unfold lookupKey
  extract_lets cur
  rw [no_match s .tenant t n _ h]

theorem kek_got (s : State) (t : BitVec 12) (e : W32) (hf : s.serai.flush = none) (ha : s.serai.aged = [])
    (h : ∀ k, (getSlot s k).kind = .internal → (getSlot s k).index.toNat ≠ idxKek t.toNat)
    (hw : ∀ n, (getSlot s (8 * n)).kind = .free) :
    ∃ kek su, useKek s t e = .got kek su ∧ su.serai.aged = [] ∧ ∀ n, getSlot su (8 * n + 1) = getSlot s (8 * n + 1) := by
  let m := upSerai s (fun x => { x with misses := x.misses + 1 })
  have hk : fillWay m (setOf m .internal t.toNat (idxKek t.toNat)) = .way _ m := fill_way m _ (hw _) ha
  unfold useKek useInternal
  rw [no_match s .internal t _ none h]
  simp only [hf, Option.any_none, Bool.false_eq_true, if_false]
  rw [hk]
  refine ⟨_, _, rfl, ha, fun n => ?_⟩
  have hne : 8 * n + 1 ≠ 8 * setOf m .internal t.toNat (idxKek t.toNat) := by omega
  exact tget_tmod_other ({} : SlotRec) m.serai.slots (fun _ => _) hne

theorem witness_KeyHitsOrFills_1 : ∃ (l : Fin 16) (j k : Nat) (i : W64) (bs : List Byte) (sr s' s : State),
  let s0 := releaseKey s j (keyNum (wA i))
  (laneTask s l.val (fun i => isOp .key i && wArg i ≠ 1) = some (j, i)) ∧ ((getJob s j).wait = .nothing) ∧ (issueOk (getJob s j) i =
      true) ∧ (wArg i ≠ 0xFF) ∧ (wB i = 0) ∧ (ownerHeld s = true) ∧ (recordUse s0 j = .here bs sr) ∧ (lookupKey sr (jobTenant s j)
      (wIndex i) (parseRecord bs).epoch = (.hit k, s')) ∧ (laneWindowOk s 0 (getSlot s' k).notAfter.toNat = true) := by
  have g : ∀ m, getSlot at_keyHit m = if 8 * setOf at_keyHit .tenant (5 : BitVec 12).toNat 9 = m then
      { slotK 1 with kind := .tenant, index := 9, leases := 0 } else {} := fun _ => rfl
  have hl : lookupKey at_keyHit 5 9 0 = (.hit (8 * setOf at_keyHit .tenant (5 : BitVec 12).toNat 9),
      upSerai at_keyHit (fun x => { x with hits := x.hits + 1 })) := by
    have hm : matchSlots at_keyHit .tenant 5 9 (some 0) = [8 * setOf at_keyHit .tenant (5 : BitVec 12).toNat 9] := by
      unfold matchSlots
      rw [ways_eq]
      have hf : at_keyHit.serai.flush = none := rfl
      simp [g, slotK, hf]
    show (match matchSlots at_keyHit .tenant 5 9 (some 0) with | [] => _ | [k] => _ | ms => _) = _
    rw [hm]
    show (if (getSlot at_keyHit _).epoch = 0 then _ else _) = _
    rw [g, if_pos rfl]; rfl
  refine ⟨0, 1, _, keyW, zeros 64, at_keyHit, _, at_keyHit, rfl, by decide, by decide, by decide, by decide, by decide, rfl, hl, ?_⟩
  have e : getSlot at_keyHit (8 * setOf at_keyHit .tenant (5 : BitVec 12).toNat 9) =
    { slotK 1 with kind := .tenant, index := 9, leases := 0 } := if_pos rfl
  show laneWindowOk at_keyHit 0 (getSlot at_keyHit _).notAfter.toNat = true
  rw [e]
  decide

theorem witness_KeyHitsOrFills_3 : ∃ (l : Fin 16) (j : Nat) (i : W64) (s : State),
  let t0 := jobTenant s j
  (laneTask s l.val (fun i => isOp .key i && wArg i ≠ 1) = some (j, i)) ∧ ((getJob s j).wait = .nothing) ∧ (issueOk (getJob s j) i =
      true) ∧ (wArg i ≠ 0xFF) ∧ (ownerHeld s = true) ∧ (recordUse (releaseKey s j (keyNum (wA i))) j = .miss) ∧ (findFill s t0
      (BitVec.ofNat 24 (idxRecord t0.toNat)) true = none) :=
  ⟨0, 1, keyW, at_keyRecMiss, rfl, by decide, by decide, by decide, by decide, rfl, by decide⟩

theorem slots_none (s : State) (h : s.serai.slots = []) (k : Nat) : getSlot s k = {} := by
  simp [getSlot, h]

theorem witness_KeyHitsOrFills_2 : ∃ (l : Fin 16) (j : Nat) (i : W64) (bs : List Byte) (sr s' s : State),
  let s0 := releaseKey s j (keyNum (wA i))
    let r := parseRecord bs
  (laneTask s l.val (fun i => isOp .key i && wArg i ≠ 1) = some (j, i)) ∧ ((getJob s j).wait = .nothing) ∧ (issueOk (getJob s j) i =
      true) ∧ (wArg i ≠ 0xFF) ∧ (wB i = 0) ∧ (ownerHeld s = true) ∧ (recordUse s0 j = .here bs sr) ∧ (lookupKey sr (jobTenant s j)
      (wIndex i) r.epoch = (.miss, s')) ∧ (tableHas r (wIndex i) = true) ∧ (entryBusy s (jobTenant s j) (BitVec.ofNat 24 (wIndex i)) =
      false) ∧ (findFill s (jobTenant s j) (BitVec.ofNat 24 (wIndex i)) false = none) ∧ ((r.spaceLocal = true ∨ s.pins.linkLost =
      false)) := by
  have hs : ∀ k, getSlot (returnLent at_keyMiss 1) k = if k = 204 then recSlot else {} := fun k => by
    show tget ({} : SlotRec) [(204, recSlot)] k = _
    rw [tget_cons]
    by_cases h : k = 204 <;> simp [h, eq_comm]
  obtain ⟨s', hl⟩ : ∃ s', lookupKey (returnLent at_keyMiss 1) 5 9 2 = (.miss, s') :=
    ⟨_, lookup_miss _ 5 9 2 (fun k h => absurd h (by rw [hs]; split <;> decide))⟩
  have he : parseRecord (slotKey at_keyMiss 204) = rec5 := by decide +kernel
  refine ⟨0, 1, keyW, slotKey at_keyMiss 204, returnLent at_keyMiss 1, s', at_keyMiss, rfl, by decide, by decide, by decide, by decide,
    by decide, rfl, ?_, ?_, by decide, by decide, .inr (by decide)⟩
  · show lookupKey (returnLent at_keyMiss 1) 5 9 (parseRecord (slotKey at_keyMiss 204)).epoch = _
    rw [he]; exact hl
  · show tableHas (parseRecord (slotKey at_keyMiss 204)) _ = true
    rw [he]; decide

theorem witness_KeyHitsOrFills_4 : ∃ (l : Fin 16) (j e st : Nat) (i : W64) (bs h c kek : List Byte) (y z : Job) (sr su s : State),
  let s0 := releaseKey s j (keyNum (wA i))
    let r := parseRecord bs
    let t0 := jobTenant s j
    let kt := ofLe (slice h 1 1)
    let n := ofLe (slice h 26 4)
    let args := [kek, slice h 32 12, h.take 32, slice h 48 16, c]
    let plain := stdBytes (.gcmSiv true) args c.length
    let m := plain.take n
    let opens := Config.stdOk (.gcmSiv true) args && (plain.drop n).all (fun b => b = 0) &&
      (if e < 8 then chMaterialOk kt m else scMaterialOk kt m)
    let way := privateWay (upMint su (fun q => { q with unwraps := q.unwraps + 1 }))
  (laneTask s l.val (fun i => isOp .key i && wArg i ≠ 1) = some (j, i)) ∧ ((getJob s j).wait = .nothing) ∧ (issueOk (getJob s j) i =
      true) ∧ (wArg i ≠ 0xFF) ∧ (wB i ≠ 0) ∧ (ownerHeld s = true) ∧ (recordUse s0 j = .here bs sr) ∧ ((desigOf (wB i)).bind streamOf =
      some st) ∧ (takeStream (getJob s0 j) st 64 = .ok (h, y)) ∧ (headerOk h true = true) ∧ (ofLe (slice h 44 4) = 0) ∧ (baleFault s0 h
      true t0 (wIndex i) r.epoch true = none) ∧ (holdsOne s0 j kt = false) ∧ (holdEngine s0 j kt = some e) ∧ (takeStream y st (16 *
      ceilDiv n 16) = .ok (c, z)) ∧ (useKek (longLookup sr) t0 r.epoch = .got kek su) := by
  obtain ⟨⟨h, y⟩, h1, hp⟩ := res_ok (takeStream (getJob at_keyLong 1) 8 64) (fun a => headerOk a.1 true &&
    decide (ofLe (slice a.1 44 4) = 0) && decide (baleFault at_keyLong a.1 true 5 9 0 true = none) &&
    decide (holdsOne at_keyLong 1 (ofLe (slice a.1 1 1)) = false) && decide (holdEngine at_keyLong 1 (ofLe (slice a.1 1 1)) = some 0) &&
    answers (takeStream a.2 8 (16 * ceilDiv (ofLe (slice a.1 26 4)) 16)) (fun _ => true)) (by decide +kernel)
  simp only [Bool.and_eq_true, decide_eq_true_eq] at hp
  obtain ⟨⟨⟨⟨⟨p1, p2⟩, p3⟩, p4⟩, p5⟩, p6⟩ := hp
  obtain ⟨⟨c, z⟩, h2, _⟩ := res_ok _ _ p6
  have hs : ∀ k, getSlot (longLookup at_keyLong) k = {} := slots_none _ rfl
  obtain ⟨kek, su, hk, hq, hv⟩ := kek_got (longLookup at_keyLong) 5 0 rfl rfl (fun k h => absurd h (by rw [hs]; decide)) (fun n => by rw
      [hs])
  exact ⟨0, 1, 0, 8, here at_keyLong, zeros 64, h, c, kek, y, z, at_keyLong, su, at_keyLong, rfl, by decide, by decide, by decide,
    by decide, by decide, rfl, rfl, h1, p1, p2, p3, p4, p5, h2, hk⟩

theorem rec_ok : recordOk at_fillRec 5 (getFill at_fillRec 4).bale = true := by
  have h : slice (getFill at_fillRec 4).bale 48 16 = recordTag at_fillRec ((getFill at_fillRec 4).bale.take 48) := rfl
  unfold recordOk
  simp only [h, decide_true, Bool.and_true]
  decide +kernel

theorem witness_FillsServeTheKey_2 : ∃ (f j k : Nat) (s : State),
  let x := getFill s f
  (s.mint.fills.any (fun kv => kv.1 = f) = true) ∧ (x.phase = .arrived) ∧ (x.recordOnly = true) ∧ (x.joined = [j]) ∧ (flushHolds s x =
      false) ∧ (s.serai.zeroed = false) ∧ (recordOk s x.tenant.toNat x.bale = true) ∧ (setAged s (setOf s .internal x.tenant.toNat
      x.index.toNat) = false) ∧ ((waysOf (setOf s .internal x.tenant.toNat x.index.toNat)).find? (fun k => (getSlot s k).kind = .free) =
      some k) := by
  have hk := free_way at_fillRec (setOf at_fillRec .internal (5 : BitVec 12).toNat 0x030005) rfl
  exact ⟨4, 1, _, at_fillRec, by decide, by decide, by decide, rfl, by decide, by decide, rec_ok, by decide, hk⟩

theorem witness_FillsServeTheKey_1 : ∃ (f j k : Nat) (kek : List Byte) (su s : State),
  let x := getFill s f
    let e := (parseRecord x.record).epoch
    let h := x.bale.take 32
    let args := [kek, slice x.bale 112 12, h, slice x.bale 96 16, slice x.bale 32 64]
    let plain := stdBytes (.gcmSiv true) args 64
    let opens := Config.stdOk (.gcmSiv true) args && (plain.drop (headerSlot h).klen).all (fun b => b = 0)
    let reg := keyNum (wA (instrAt s (getJob s j) (getJob s j).pos))
  (s.mint.fills.any (fun kv => kv.1 = f) = true) ∧ (x.phase = .arrived) ∧ (x.recordOnly = false) ∧ (x.joined = [j]) ∧ (flushHolds s x =
      false) ∧ (s.serai.zeroed = false) ∧ (headerOk h false = true) ∧ (ofLe (slice x.bale 124 4) = 0) ∧ (baleFault s h false x.tenant
      x.index.toNat e true = none) ∧ (useKek s x.tenant e = .got kek su) ∧ (setAged su (setOf s .tenant x.tenant.toNat x.index.toNat) =
      false) ∧ ((waysOf (setOf s .tenant x.tenant.toNat x.index.toNat)).find? (fun k => (getSlot su k).kind = .free) = some k) ∧
      ((getJob s j).cmp = .same) ∧ (keyReg s j reg = none) ∧ ((isYoke s (seatLane (getJob s j)) = true → Config.copiesDiffer s.free =
      false)) := by
  have hs : ∀ k, getSlot at_fill k = {} := slots_none _ rfl
  obtain ⟨kek, su, hk, hq, hv⟩ := kek_got at_fill 5 2 rfl rfl (fun k h => absurd h (by rw [hs]; decide)) (fun n => by rw [hs])
  have hw := free_way1 su (setOf at_fill .tenant (5 : BitVec 12).toNat 9) (by rw [hv, hs])
  obtain ⟨k, hw⟩ := hw
  exact ⟨4, 1, k, kek, su, at_fill, by decide, by decide, by decide, rfl, by decide, by decide, by decide, by decide +kernel,
    by decide +kernel, hk, by simp [setAged, hq], hw, by decide, by decide⟩

/-- KEY with ARG 1 of index 9. -/
def putW : W64 := ins 0x01 0x80 0 0 (9 + 2^24)

theorem witness_PutAndDeriveKeys_1 : ∃ (l : Fin 16) (j : Nat) (i : W64) (k : KeyRef) (bs : List Byte) (sr s : State), (laneTask s l.val
    (fun i => isOp .key i && wArg i = 1) = some (j, i)) ∧ ((getJob s j).wait = .nothing) ∧ ((getJob s j).kept = none) ∧ (keyReg s j
    (keyNum (wA i)) = some k) ∧ (keyRefOk s k = true) ∧ ((getSlot s k.slot).isHolding = false) ∧ (ownerHeld s = true) ∧ (recordUse s j =
    .here bs sr) ∧ (tableHas (parseRecord bs) (wIndex i) = true) ∧ (entryBusy s (jobTenant s j) (BitVec.ofNat 24 (wIndex i)) = false) ∧
    (wellCan s = true) := by
  have he : parseRecord (slotKey at_put 204) = rec5 := by decide +kernel
  refine ⟨0, 1, putW, k0, slotKey at_put 204, returnLent at_put 1, at_put, rfl, by decide, by decide, by decide +kernel,
    by decide +kernel, by decide +kernel, by decide, rfl, ?_, by decide, by decide⟩
  show tableHas (parseRecord (slotKey at_put 204)) _ = true
  rw [he]; decide

theorem witness_PutAndDeriveKeys_2 : ∃ (l : Fin 16) (j : Nat) (i : W64) (k : KeyRef) (bs kek nonce : List Byte) (sr su s : State),
    (laneTask s l.val (fun i => isOp .key i && wArg i = 1) = some (j, i)) ∧ ((getJob s j).wait = .nothing) ∧
    ((getJob s j).kept = some nonce) ∧ (keyReg s j (keyNum (wA i)) = some k) ∧ (keyRefOk s k = true) ∧
    ((getSlot s k.slot).isHolding = false) ∧ (ownerHeld s = true) ∧ (recordUse s j = .here bs sr) ∧
    (tableHas (parseRecord bs) (wIndex i) = true) ∧ (entryBusy s (jobTenant s j) (BitVec.ofNat 24 (wIndex i)) = false) ∧
    ((parseRecord bs).spaceLocal = true ∨ s.pins.linkLost = false) ∧
    (useKek sr (jobTenant s j) (parseRecord bs).epoch = .got kek su) := by
  have hs : ∀ k, getSlot (returnLent at_putN 1) k = if k = 100 then slotK 2 else if k = 204 then recSlot else {} := fun k => by
    show tget ({} : SlotRec) [(100, slotK 2), (204, recSlot)] k = _
    rw [tget_cons, tget_cons]
    by_cases h : k = 100
    · simp [h]
    · by_cases h2 : k = 204 <;> simp [h, h2, eq_comm]
  have he : parseRecord (slotKey at_putN 204) = rec5 := by decide +kernel
  obtain ⟨kek, su, hk, _⟩ := kek_got (returnLent at_putN 1) 5 2 rfl rfl
    (fun k h => by
      rw [hs] at h ⊢
      split at h
      · exact absurd h (by decide)
      · split at h
        · rw [if_neg ‹_›, if_pos ‹_›]; decide
        · exact absurd h (by decide))
    (fun n => by rw [hs, if_neg (by omega), if_neg (by omega)])
  refine ⟨0, 1, putW, k0, slotKey at_putN 204, kek, zeros 12, returnLent at_putN 1, su, at_putN, rfl, by decide, rfl,
    by decide +kernel, by decide +kernel, by decide +kernel, by decide, rfl, ?_, by decide, .inr (by decide), ?_⟩
  · show tableHas (parseRecord (slotKey at_putN 204)) _ = true
    rw [he]; decide
  · show useKek (returnLent at_putN 1) 5 (parseRecord (slotKey at_putN 204)).epoch = _
    rw [he]; exact hk

theorem witness_FlushesFreeOrRetire_5 : ∃ (p : CtlPort) (tenant : BitVec 12) (c : Instr) (op : Nat) (s : State),
    (mayTake s p serCmd 4 = true) ∧ (s.serai.cmdBusy = true) ∧
    ((c, op) ∈ [(.flushEntry p tenant, 1), (.flushTenant p tenant, 2), (.flushStale p tenant, 3), (.flushAll p, 4)]) :=
  ⟨.host, 3, .flushAll .host, 4, at_fl, by decide, by decide, by decide⟩

theorem witness_SafeConductRuns_11 : ∃ s : State, ∀ st, s.safe.stage ≠ .over st :=
  ⟨at_sfS, fun st => SafeStage.noConfusion⟩

theorem witness_CiphersRun_6 : ∃ (l : Fin 16) (j n : Nat) (i : W64) (y : Job) (outs : List OutW) (s : State),
    let key := keyBytes s j (keyNum (wC i))
    (laneTask s l.val (isOp .hash) = some (j, i)) ∧ ((getJob s j).wait = .nothing) ∧ (issueOk (getJob s j) i = true) ∧
    ((algFamily (wAlg i) ≠ .slh ∧ hashRun (getJob s j) i = .ok (n, y, outs)) ∨
     (algFamily (wAlg i) = .slh ∧ wAlg i ≠ 0x30 ∧ wAlg i ≠ 0x31 ∧ slhRun (getJob s j) i [] [] = .ok (n, y, outs)) ∨
     (algFamily (wAlg i) = .slh ∧ wAlg i = 0x31 ∧ slhKeyFault s j i = none ∧ slhRun (getJob s j) i key [] = .ok (n, y, outs)) ∨
     (algFamily (wAlg i) = .slh ∧ wAlg i = 0x30 ∧ slhKeyFault s j i = none ∧ (∃ q, slhRun (getJob s j) i key [] = .ok q) ∧
       ∃ rnd, (getJob s j).kept = some rnd ∧ slhRun (getJob s j) i key rnd = .ok (n, y, outs))) ∧ (outputsMay s j y outs) :=
  ⟨0, _, _, _, _, _, at_hash, rfl, by decide, by decide, .inl ⟨by decide, rfl⟩, fun h => absurd h (by decide)⟩

theorem witness_KeyChecksEndTheJob_1 : ∃ (l : Fin 16) (j : Nat) (i : W64) (st : Status) (s : State),
    let k := keyNum (wC i)
    (issueOk (getJob s j) i = true) ∧ ((getJob s j).wait = .nothing) ∧
    ∃ c : Instr, ((laneTask s l.val (isOp .sealW) = some (j, i) ∧ keyFault s j k 0 (wAlg i) (algTypes (wAlg i)) = some st ∧ c = .seal l
        .same) ∨
      (laneTask s l.val (isOp .openW) = some (j, i) ∧ keyFault s j k 1 (wAlg i) (algTypes (wAlg i)) = some st ∧ c = .openI l .same) ∨
      (laneTask s l.val (isOp .cipher) = some (j, i) ∧ keyFault s j k (bit (wDec i)) (wAlg i) (algTypes (wAlg i)) = some st ∧
        c = .cipher l .same) ∨
      (laneTask s l.val (isOp .mac) = some (j, i) ∧ keyFault s j k (if wVerify i then 3 else 2) (wAlg i) (algTypes (wAlg i)) = some st ∧
        c = .mac l .same)) :=
  ⟨0, 1, sealI, _, at_noKey, by decide, by decide, Instr.seal 0 .same, .inl ⟨rfl, rfl, rfl⟩⟩

set_option maxRecDepth 20000 in
theorem witness_MovesRun_2 : ∃ (l : Fin 16) (j : Nat) (i : W64) (ws : List Need) (y : Job) (o : OutW) (s : State),
    (laneTask s l.val (isOp .move) = some (j, i)) ∧ (issueOk (getJob s j) i = true) ∧ (moveRun (getJob s j) i = .need ws (y, [o])) ∧
    ((outStreamOf (opd (wA i))).isSome = true) ∧ (jobLost s j = false) :=
  ⟨0, 1, here at_moveN, _, _, _, at_moveN, rfl, by decide, rfl, by decide, by decide⟩

/-! ### Ill-formed commands -/
theorem test_wf_sink : (Instr.sinkAction 200).wf = false := by decide
theorem test_wf_fire : (Instr.fire .host 104 0).wf = false := by decide
theorem test_wf_clear : (Instr.clear .host 255).wf = false := by decide
theorem test_wf_sink_exists : (Instr.sinkAction 256).wf = true := by decide
theorem test_wf_translation_status : (Instr.translationCompletion 0 3 true true 12 0).wf = false := by decide
theorem test_wf_translation_size : (Instr.translationCompletion 0 0 true true 11 0).wf = false := by decide
theorem test_wf_fault_row : (Instr.fatalLaneFault 0 6).wf = false := by decide
theorem test_wf_route_zero : (Instr.uncorrectableError .routeStore 0 0).wf = false := by decide
theorem test_wf_reorder : (Instr.uncorrectableError .reorderStore 65536 0).wf = false := by decide
theorem test_wf_ring : (Instr.uncorrectableError .ringContext 4096 0).wf = false := by decide
theorem test_wf_cache : (Instr.uncorrectableError .translationCache 8192 0).wf = false := by decide
theorem test_wf_buffer_port : (Instr.uncorrectableError .readReturnBuffer 0 4).wf = false := by decide
theorem test_wf_porter : (Instr.uncorrectableError .porterBuffer 32 0).wf = false := by decide
theorem test_wf_mask : (Instr.uncorrectableError .maskStore 512 0).wf = false := by decide
theorem test_wf_fuse_words : (Instr.fuseCommandDone (List.replicate 55 0)).wf = false := by decide

/-! ### Words and steps -/
theorem test_no_word_is_a_command : decodeTableWord 32 0 = none := rfl
theorem test_no_word_is_queued : svc.withFetchWord 32 7 = svc := rfl
theorem test_front_command_runs : step { svc with pending := [.freeze, .freeze] } = exec .freeze { svc with pending := [.freeze] } := rfl

/-- The state after a command, where there is one. -/
def after (c : Instr) (s : State) : State :=
  match exec c s with
  | .next t => t
  | _ => s

/-- MU_RESERVE is written in PROVISION only (its class in Table 5.5 is STOP). -/
theorem test_reserve_written : (after (.registerWrite .host 0x200004 .b4 0x10123) prov).muster.reserve = 0x0123#16 := by decide
theorem test_reserve_refused : (after (.registerWrite .host 0x200004 .b4 0x0123) svc).muster.reserve = svc.muster.reserve := by decide

/-- MOVE of satchel 0's frame 01 02 03 04 to satchel 1. -/
theorem test_move : tread 0 (getJob (after (.move 0 .same) at_move) 1).sat 256 6 = [1, 2, 3, 4, 0, 0] := by decide +kernel
theorem test_move_advances : (getJob (after (.move 0 .same) at_move) 1).pos = 1 := by decide +kernel

/-- DMUL (R250, Table 9.7) of 3 and 2, one limb each, on a bench that the governor does not hold: D, at limb 192, reads 6. -/
theorem test_dmul : tread 0 (getBench (after (.directOpDone 3) at_dirRun1) 3).mem (8 * 192) 2 = [6, 0] ∧
    (getBench (after (.directOpDone 3) at_dirRun1) 3).direct = none := by
  have h : engineHeld at_dirRun1 3 = false := not_held _ _ rfl
  have e : (3 : Fin 8).val = 3 := rfl
  simp only [after, exec, execDirectOpDone, e, h]
  decide +kernel

/-- Words 80 and 81 of the fuse array are programmed before delivery (Table 17.1). -/
theorem test_fuse_words : (tget 0 State.reset.fuse.array 80).toNat = 0x5316 ∧ (tget 0 State.reset.fuse.array 81).toNat = 0x201 := by decide

/-- A read of AL_NSEC by the sideband port leaves that port's response and not the host's (R453, R459). -/
theorem test_nsec_read : (after (.nsecRead .sideband 0 .b4) prov).ports.rspHost = none ∧
    (after (.nsecRead .sideband 0 .b4) prov).ports.rspSide.isSome = true := by decide

end Sys2Proof.Tests
end

section
/-! SUPPORT. Start-up (R21, R382, R383): what the changes of mode, the Strongbox check, the sensing of the fuses and the end of
Self-check leave, and the obligation on start-up. -/

namespace Sys2Proof.Machine

/-! ### Operations over a list of numbers -/

/-- What each operation keeps true, the whole list keeps true. -/
theorem forAll_preserves {P : State → Prop} {f : State → Nat → State} (keep : ∀ s k, P s → P (f s k)) (l : List Nat) {s : State}
    (h : P s) : P (forAll l f s) := by
  induction l generalizing s with
  | nil => exact h
  | cons k l ih => exact ih (keep s k h)

/-- What the operation on `k` makes true and each operation keeps true holds after a list with `k` in it. -/
theorem forAll_establishes {P : State → Prop} {f : State → Nat → State} {k : Nat} (make : ∀ s, P (f s k))
    (keep : ∀ s j, P s → P (f s j)) {l : List Nat} (hk : k ∈ l) (s : State) : P (forAll l f s) := by
  induction l generalizing s with
  | nil => cases hk
  | cons a l ih =>
    rcases List.mem_cons.mp hk with rfl | hl
    · exact forAll_preserves keep l (make s)
    · exact ih hl (f s a)

/-- A filter on keys leaves the value of every key that it lets pass. -/
theorem tget_filter_keys {α : Type} (d : α) (p : Nat → Bool) (t : Table α) {k : Nat} (hk : p k = true) :
    tget d (t.filter (fun kv => p kv.1)) k = tget d t k := by
  induction t with
  | nil => rfl
  | cons kv t ih =>
    obtain ⟨k', v⟩ := kv
    by_cases hp : p k' = true
    · simp [hp, tget_cons, ih]
    · have hne : k' ≠ k := fun h => hp (h ▸ hk)
      simp [hp, tget_cons, hne, ih]

/-! ### Changes of mode (R382, R424) -/

/-- The same change of the mode's registers on both sides. -/
theorem keepsBut.upMode {W : List Part} {s t : State} (f : ModeRec → ModeRec) (h : keepsBut W s t) :
    keepsBut W (upMode s f) (upMode t f) := by
  refine ⟨h.1, fun p hp => ?_⟩
  have same := h.2 p hp
  cases p with
  | mode => exact congrArg f same
  | _ => exact same

/-- But for the mode register, a change of mode touches its record, its source and its interrupt alone. -/
theorem keeps_modeSet_register (s : State) (new : Mode) (trigger : Nat) (port : Option CtlPort) :
    keepsBut [.relay, .ledger, .ai] (upMode s (fun m => { m with mode := new, transitions := m.transitions + 1 }))
      (modeSet s new trigger port) := by
  unfold modeSet
  extract_lets old s1 s2 s3
  have h2 : keepsBut [.relay, .ledger, .ai] s1 s2 := (keeps_emit _ _ _ _ _).sub (by decide)
  have h3 : keepsBut [.relay, .ledger, .ai] s1 s3 := by
    show keepsBut _ _ (match modeSource new with | some k => raise s2 k | none => s2)
    split
    · exact keepsBut.step (keeps_raise _ _) (by decide) h2
    · exact h2
  exact keepsBut.when h3 (fun _ h => keepsBut.step (keeps_irqBlock _ _) (by decide) h)

@[simp] theorem modeSet_mode (s : State) (new : Mode) (trigger : Nat) (port : Option CtlPort) :
    (modeSet s new trigger port).mode = { s.mode with mode := new, transitions := s.mode.transitions + 1 } :=
  (keeps_modeSet_register s new trigger port).mode_eq rfl

/-- A change of mode from outside Service to Self-check is the change of the register, with IDLE proposed. -/
theorem modeTo_selfCheck {s : State} (h : inMode s .service = false) (trigger : Nat) (port : Option CtlPort) :
    modeTo s .selfCheck trigger port = ltrRefresh (modeSet s .selfCheck trigger port) := by
  simp [modeTo, whenS, h]

/-- A change of mode from outside Service to Provision also copies the always-on log. -/
theorem modeTo_provision {s : State} (h : inMode s .service = false) (trigger : Nat) (port : Option CtlPort) :
    modeTo s .provision trigger port = ltrRefresh (aonCopy (modeSet s .provision trigger port)) := by
  simp [modeTo, whenS, h]

/-- The copy of the always-on log leaves the Strongbox. -/
@[simp] theorem aonCopy_box (s : State) : (aonCopy s).watch.box = s.watch.box := by
  unfold aonCopy
  extract_lets n idx s1 away
  have h1 : s1.watch = s.watch :=
    (keepsBut.fold (fun t i => keeps_emit t _ _ _ _) idx s (keepsBut.refl [.ledger] s)).watch_eq rfl
  have h2 : keepsBut [.relay, .ai] (upWatch s1 (fun w => { w with logNew := 0 }))
      (whenS away (fun s => watchRaise s 223) (upWatch s1 (fun w => { w with logNew := 0 }))) :=
    keepsBut.when (keepsBut.refl _ _) (fun _ h => keepsBut.step (keeps_watchRaise _ _) (by decide) h)
  rw [h2.watch_eq rfl, upWatch_watch, h1]

/-- The entry to Provision from outside Service: the mode register, and what goes with it. -/
theorem keeps_modeTo_provision {s : State} (h : inMode s .service = false) (trigger : Nat) (port : Option CtlPort) :
    keepsBut [.relay, .ledger, .ai, .watch] (upMode s (fun m => { m with mode := .provision, transitions := m.transitions + 1 }))
      (modeTo s .provision trigger port) := by
  rw [modeTo_provision h]
  exact keepsBut.step (keeps_ltrRefresh _) (by decide)
    (keepsBut.step (keeps_aonCopy _) (by decide) ((keeps_modeSet_register _ _ _ _).sub (by decide)))

theorem modeTo_provision_box {s : State} (h : inMode s .service = false) (trigger : Nat) (port : Option CtlPort) :
    (modeTo s .provision trigger port).watch.box = s.watch.box := by
  rw [modeTo_provision h, (keeps_ltrRefresh _).watch_eq rfl, aonCopy_box, (keeps_modeSet _ _ _ _).watch_eq rfl]

/-- The entry to Self-check from outside Service: the mode register, and what goes with it. -/
theorem keeps_modeTo_selfCheck {s : State} (h : inMode s .service = false) (trigger : Nat) (port : Option CtlPort) :
    keepsBut [.relay, .ledger, .ai] (upMode s (fun m => { m with mode := .selfCheck, transitions := m.transitions + 1 }))
      (modeTo s .selfCheck trigger port) := by
  rw [modeTo_selfCheck h]
  exact keepsBut.step (keeps_ltrRefresh _) (by decide) (keeps_modeSet_register _ _ _ _)

/-- A cause that holds Self-check leaves the mode. -/
@[simp] theorem holdSelfCheck_mode_mode (s : State) (b : Nat) : (holdSelfCheck s b).mode.mode = s.mode.mode := by
  unfold holdSelfCheck
  split
  · rfl
  · simp [(keeps_raise _ _).mode_eq rfl, (keeps_emit _ _ _ _ _).mode_eq rfl]

/-! ### PLL_LOCK (R21, R365, R422) -/

@[simp] theorem proposeLtr_ltr (s : State) (v : W16) : (proposeLtr s v).ai.ltr = v := by
  unfold proposeLtr
  split
  · assumption
  · rfl

theorem exec_pllLock {s : State} (hm : s.mode.mode = .inReset) (hl : s.mode.pllLocked = false) :
    exec .pllLock s = .next (enterCold (upMode s (fun m => { m with pllLocked := true }))) := by
  show execPllLock s = _
  simp [execPllLock, inMode, hm, hl]

theorem enterCold_of_zeroize_low {s : State} (h : s.pins.zeroize = false) :
    enterCold s = proposeLtr (upMode s (fun m => { m with mode := .cold })) s.ai.ltrIdle := by
  simp [enterCold, (keeps_proposeLtr _ _).pins_eq rfl, h]

theorem enterCold_of_zeroize_high {s : State} (h : s.pins.zeroize = true) :
    enterCold s =
      tgClear (modeSet (proposeLtr (upMode s (fun m => { m with mode := .cold })) s.ai.ltrIdle) .cleared 8 none) 5 := by
  simp [enterCold, (keeps_proposeLtr _ _).pins_eq rfl, h]

theorem pllLock_enters_cold {s : State} (hm : s.mode.mode = .inReset) (hl : s.mode.pllLocked = false) (hz : s.pins.zeroize = false) :
    ∃ t, exec .pllLock s = .next t ∧ t.mode = { s.mode with mode := .cold, pllLocked := true } ∧ t.ai.ltr = s.ai.ltrIdle ∧
      keepsBut [.mode, .ai] s t := by
  refine ⟨_, exec_pllLock hm hl, ?_⟩
  rw [enterCold_of_zeroize_low (s := upMode s _) hz]
  refine ⟨(keeps_proposeLtr _ _).mode_eq rfl, proposeLtr_ltr _ _, ?_⟩
  exact keepsBut.step (keeps_proposeLtr _ _) (by decide)
    (keepsBut.step (keeps_upMode _ _) (by decide) ((keeps_upMode _ _).sub (by decide)))

theorem pllLock_enters_cleared {s : State} (hm : s.mode.mode = .inReset) (hl : s.mode.pllLocked = false) (hz : s.pins.zeroize = true) :
    ∃ t, exec .pllLock s = .next t ∧ t.mode.mode = .cleared ∧ t.mode.pllLocked = true ∧ t.fuse = s.fuse ∧ t.watch = s.watch ∧
      t.pending = s.pending := by
  have keeps := keeps_enterCold (upMode s (fun m => { m with pllLocked := true }))
  have hmode : (enterCold (upMode s (fun m => { m with pllLocked := true }))).mode =
      { s.mode with mode := .cleared, pllLocked := true, transitions := s.mode.transitions + 1 } := by
    rw [enterCold_of_zeroize_high (s := upMode s _) hz, (keeps_tgClear _ _).mode_eq rfl, modeSet_mode, (keeps_proposeLtr _ _).mode_eq rfl]
    rfl
  exact ⟨_, exec_pllLock hm hl, by rw [hmode], by rw [hmode], keeps.fuse_eq rfl, keeps.watch_eq rfl, keeps.1⟩

/-! ### FUSE_SENSE (R382, R405, R406) -/

theorem lifeOf_lt (s : State) : lifeOf s < 5 := by
  unfold lifeOf
  repeat' split
  all_goals decide

/-- The words from 64 on are sensed as they stand in the array (R404). -/
theorem tget_senseWords (s : State) {w : Nat} (hw : 64 ≤ w) : tget 0 (senseWords s) w = tget 0 s.fuse.array w :=
  tget_filter_keys 0 (fun k => decide (64 ≤ k)) s.fuse.array (by simpa using hw)

theorem keeps_forAll_modDom (l : List Nat) (f : DomRec → DomRec) (s : State) :
    keepsBut [.ration] s (forAll l (fun s d => modDom s d f) s) :=
  keepsBut.each (fun t d => keeps_modDom t d f) (keepsBut.refl _ _)

theorem keeps_forAll_modCtx (l : List Nat) (f : CtxRec → CtxRec) (s : State) :
    keepsBut [.scales] s (forAll l (fun s c => modCtx s c f) s) :=
  keepsBut.each (fun t c => keeps_modCtx t c f) (keepsBut.refl _ _)

/-- Power is requested for every domain of the list. -/
theorem forAll_modDom_wakes {l : List Nat} {d : Nat} (hd : d ∈ l) (s : State) :
    (getDom (forAll l (fun s d => modDom s d (fun x => { x with phase := .waking, req := true })) s) d).phase = .waking ∧
      (getDom (forAll l (fun s d => modDom s d (fun x => { x with phase := .waking, req := true })) s) d).req = true := by
  refine forAll_establishes (P := fun t => (getDom t d).phase = .waking ∧ (getDom t d).req = true) (fun t => by simp) ?_ hd s
  intro t j h
  by_cases hj : d = j
  · subst hj; simp
  · rwa [getDom_modDom_other _ _ hj]

/-- Every context of the list is under test. -/
theorem forAll_modCtx_tests {l : List Nat} {c : Nat} (hc : c ∈ l) (s : State) :
    (getCtx (forAll l (fun s c => modCtx s c (fun x => { x with kat := true })) s) c).kat = true := by
  refine forAll_establishes (P := fun t => (getCtx t c).kat = true) (fun t => by simp) ?_ hc s
  intro t j h
  by_cases hj : c = j
  · subst hj; simp
  · rwa [getCtx_modCtx_other _ _ hj]

/-- FUSE_SENSE in Cold enters Self-check with the fuses sensed, and then starts the known-answer tests. -/
theorem exec_fuseSense {s : State} (hm : s.mode.mode = .cold) :
    ∃ u, exec .fuseSense s =
        .next (forAll [0, 1, 2, 3] (fun s c => modCtx s c (fun x => { x with kat := true }))
          (forAll [0, 1, 2] (fun s d => modDom s d (fun x => { x with phase := .waking, req := true })) u)) ∧
      u.mode.mode = .selfCheck ∧ u.fuse.array = s.fuse.array ∧ u.fuse.life = BitVec.ofNat 3 (lifeOf s) ∧
      u.fuse.sensed = senseWords s ∧ keepsBut [.mode, .fuse, .mint, .well, .ledger, .relay, .ai] s u := by
  have hcold : inMode s .cold = true := by simp [inMode, hm]
  have hserv : inMode s .service = false := by simp [inMode, hm]
  show ∃ u, execFuseSense s = _ ∧ _
  unfold execFuseSense
  rw [if_neg (by simp [hcold])]
  extract_lets rs is life fault s1 s2 s3 s4 s5 s6 s7
  have entered := keeps_modeTo_selfCheck hserv 1 none
  have k1 : keepsBut [.mode, .relay, .ledger, .ai, .well] s s1 :=
    keepsBut.step (keeps_upWell _ _) (by decide) (keepsBut.step entered (by decide) ((keeps_upMode _ _).sub (by decide)))
  have k3 : keepsBut [.ledger] s2 s3 :=
    keepsBut.ite (keepsBut.refl _ _) (keepsBut.step (keeps_senseSecret _ _ _) (by decide) (keeps_senseSecret _ _ _))
  have k4 : keepsBut [.relay, .ledger, .mode] s3 s4 :=
    keepsBut.when (keepsBut.refl _ _) (fun _ h => keepsBut.step (keeps_holdSelfCheck _ _) (by decide) h)
  have k5 : keepsBut [.mint] s4 s5 :=
    keepsBut.when (keepsBut.refl _ _) (fun _ h => keepsBut.step (keeps_upMint _ _) (by decide) h)
  have hmode4 : s4.mode.mode = s3.mode.mode := by
    show (whenS _ _ s3).mode.mode = _
    unfold whenS
    split
    · exact holdSelfCheck_mode_mode _ _
    · rfl
  have hmode : s5.mode.mode = .selfCheck := by
    rw [k5.mode_eq rfl, hmode4, k3.mode_eq rfl]
    exact congrArg ModeRec.mode (entered.mode_eq rfl)
  have hfuse : s5.fuse = s2.fuse := by rw [k5.fuse_eq rfl, k4.fuse_eq rfl, k3.fuse_eq rfl]
  have harray : s1.fuse.array = s.fuse.array := congrArg FuseRec.array (k1.fuse_eq rfl)
  have hsensed : s5.fuse.sensed = senseWords s := by
    rw [hfuse]
    show senseWords s1 = _
    rw [senseWords, harray, senseWords]
  refine ⟨s5, rfl, hmode, ?_, by rw [hfuse]; rfl, hsensed, ?_⟩
  · rw [hfuse]; exact harray
  · exact keepsBut.step k5 (by decide) (keepsBut.step k4 (by decide) (keepsBut.step k3 (by decide)
      (keepsBut.step (keeps_upFuse _ _) (by decide) (k1.sub (by decide)))))

theorem fuseSense_begins_selfCheck {s : State} (hm : s.mode.mode = .cold) :
    ∃ t, exec .fuseSense s = .next t ∧ t.mode.mode = .selfCheck ∧ t.fuse.array = s.fuse.array ∧
      t.fuse.life.toNat = lifeOf s ∧ (∀ w, 64 ≤ w → tget 0 t.fuse.sensed w = tget 0 s.fuse.array w) ∧
      (∀ d, d < 3 → (getDom t d).phase = .waking ∧ (getDom t d).req = true) ∧ (∀ c, c < 4 → (getCtx t c).kat = true) ∧
      keepsBut [.mode, .fuse, .mint, .well, .ration, .scales, .ledger, .relay, .ai] s t := by
  obtain ⟨u, hexec, hmode, harray, hlife, hsensed, hkeep⟩ := exec_fuseSense hm
  have kdom := keeps_forAll_modDom [0, 1, 2] (fun x => { x with phase := .waking, req := true }) u
  have kctx := keeps_forAll_modCtx [0, 1, 2, 3] (fun x => { x with kat := true })
    (forAll [0, 1, 2] (fun s d => modDom s d (fun x => { x with phase := .waking, req := true })) u)
  have hfuse := (kctx.fuse_eq rfl).trans (kdom.fuse_eq rfl)
  refine ⟨_, hexec, ?_, ?_, ?_, fun w hw => ?_, fun d hd => ?_, fun c hc => ?_, ?_⟩
  · rw [kctx.mode_eq rfl, kdom.mode_eq rfl, hmode]
  · rw [hfuse, harray]
  · have := lifeOf_lt s
    rw [hfuse, hlife, BitVec.toNat_ofNat]
    omega
  · rw [hfuse, hsensed, tget_senseWords s hw]
  · rw [getDom, kctx.ration_eq rfl]
    exact forAll_modDom_wakes (by simp; omega) u
  · exact forAll_modCtx_tests (by simp; omega) _
  · exact keepsBut.step kctx (by decide) (keepsBut.step kdom (by decide) (hkeep.sub (by decide)))

/-! ### The Strongbox (R418) -/

@[simp] theorem boxFaults_boxOf (os : BitVec 256) (ver seq : W64) (flags : Byte) : boxFaults (boxOf os ver seq flags) = 0 := by
  simp [boxFaults, boxOf, bit]

theorem boxCheck_of_valid {s : State} (h : boxFaults s.watch.box = 0) : boxCheck s = s := by
  simp [boxCheck, h]

@[simp] theorem boxFaults_boxCheck (s : State) : boxFaults (boxCheck s).watch.box = 0 := by
  by_cases h : boxFaults s.watch.box = 0
  · rw [boxCheck_of_valid h, h]
  · unfold boxCheck
    extract_lets b f empty b'
    rw [if_neg h, (keeps_emit _ _ _ _ _).watch_eq rfl]
    exact boxFaults_boxOf _ _ _ _

/-! ### The set-index key (R211) -/

@[simp] theorem fillUnitSlot_hkeyDrawn (s : State) (slot : Nat) (r : SlotRec) (key : List Byte) :
    (fillUnitSlot s slot r key).serai.hkeyDrawn = s.serai.hkeyDrawn := by
  unfold fillUnitSlot
  split <;> rfl

theorem unitSlots_hkeyDrawn {seeds : List (List Byte)} {s : State} (h : s.serai.hkeyDrawn = true) :
    (unitSlots seeds s).serai.hkeyDrawn = true := by
  unfold unitSlots
  exact forAll_preserves (P := fun t => t.serai.hkeyDrawn = true) (fun t u ht => by simpa using ht) _ h

theorem unitKeys_hkeyDrawn {s : State} (h : s.serai.hkeyDrawn = true) : (unitKeys s).serai.hkeyDrawn = true := by
  unfold unitKeys
  extract_lets dk seeds s1
  exact unitSlots_hkeyDrawn (seeds := seeds) (s := s1) h

@[simp] theorem seraiDraws_hkeyDrawn (s : State) : (seraiDraws s).serai.hkeyDrawn = true := rfl

/-! ### SELF_CHECK_DONE (R383) -/

/-- The device has secrets: its lifecycle state is neither RAW nor RETIRED (Table 17.3). -/
def lifeKeyed (s : State) : Bool := decide (s.fuse.life ≠ 0) && decide (s.fuse.life ≠ 4)

/-- What Self-check has drawn, derived and signed when its steps are over (R211, R383, R414). -/
def selfCheckMade (s : State) : State := whenS (lifeKeyed s) (fun s => selfSigns (unitKeys s)) (seraiDraws (selfSteps s))

/-- Self-check as it passes: its certificates are stored, and its time is kept and recorded (R383, R414). -/
def selfCheckPassed (us : W32) (s : State) : State :=
  emit (upMode (whenS (lifeKeyed s) (fun s => emit (selfStore s) 16 0x807 0 [0, 0]) (selfCheckMade s)) (fun m => { m with scTime := us }))
    15 0x708 0 [0, us]

theorem selfSteps_of_enginesOk {s : State} (h : enginesOk s = true) : selfSteps s = ownerKeys (boxCheck s) := by
  simp [selfSteps, whenS, h]

/-- With an engine of each kind, the steps of Self-check hold nothing: they check the Strongbox and derive the owner's keys. -/
theorem keeps_selfSteps_of_enginesOk {s : State} (h : enginesOk s = true) : keepsBut [.mint, .ledger, .watch] s (selfSteps s) := by
  rw [selfSteps_of_enginesOk h]
  exact keepsBut.step (keeps_ownerKeys _) (by decide) ((keeps_boxCheck s).sub (by decide))

theorem selfSteps_watch {s : State} (h : enginesOk s = true) : (selfSteps s).watch = (boxCheck s).watch := by
  rw [selfSteps_of_enginesOk h]
  exact (keeps_ownerKeys _).watch_eq rfl

theorem keeps_selfCheckMade (s : State) :
    keepsBut [.units, .serai, .mint, .house, .scales, .well, .relay, .ai, .safe] (selfSteps s) (selfCheckMade s) :=
  keepsBut.when ((keeps_seraiDraws _).sub (by decide)) fun _ h =>
    keepsBut.step (keeps_selfSigns _) (by decide) (keepsBut.step (keeps_unitKeys _) (by decide) h)

/-- The storing of the certificates of a device with secrets, and its record. -/
theorem keeps_whenKeyed_selfStore (c : Bool) (s : State) :
    keepsBut [.units, .safe, .ledger] s (whenS c (fun s => emit (selfStore s) 16 0x807 0 [0, 0]) s) :=
  keepsBut.when (keepsBut.refl _ _) fun _ h =>
    keepsBut.step (keeps_emit _ _ _ _ _) (by decide) (keepsBut.step (keeps_selfStore _) (by decide) h)

/-- After the steps of Self-check, passing it keeps the time and leaves the mode's other registers. -/
theorem keeps_selfCheckPassed (us : W32) (s : State) :
    keepsBut [.units, .serai, .mint, .house, .scales, .well, .relay, .ledger, .ai, .safe]
      (upMode (selfSteps s) (fun m => { m with scTime := us })) (selfCheckPassed us s) :=
  keepsBut.step (keeps_emit _ _ _ _ _) (by decide)
    (keepsBut.upMode _ (keepsBut.step (keeps_whenKeyed_selfStore _ _) (by decide) ((keeps_selfCheckMade s).sub (by decide))))

theorem selfCheckMade_hkeyDrawn (s : State) : (selfCheckMade s).serai.hkeyDrawn = true := by
  unfold selfCheckMade whenS
  split
  · rw [(keeps_selfSigns _).serai_eq rfl]
    exact unitKeys_hkeyDrawn (seraiDraws_hkeyDrawn _)
  · exact seraiDraws_hkeyDrawn _

theorem selfCheckPassed_hkeyDrawn (us : W32) (s : State) : (selfCheckPassed us s).serai.hkeyDrawn = true := by
  have hserai : (selfCheckPassed us s).serai = (selfCheckMade s).serai :=
    ((keeps_emit _ _ _ _ _).serai_eq rfl).trans ((keeps_whenKeyed_selfStore _ _).serai_eq rfl)
  rw [hserai, selfCheckMade_hkeyDrawn]

/-- The conditions of R383 under which Self-check ends in Provision. -/
theorem exec_selfCheckDone_passes {us : W32} {certsOk : Bool} {s : State} (hm : s.mode.mode = .selfCheck) (hk : katsOver s = true)
    (hw : wellCan s = true) (hg : wellGives s 36000 = true) (hf : s.mode.scFault = 0) (he : enginesOk s = true)
    (hs : lifeKeyed s = true → certsOk = true ∧ selfSigned (selfCheckMade s) = true) :
    exec (.selfCheckDone us certsOk) s = .next (modeTo (selfCheckPassed us s) .provision 1 none) := by
  have keep := keeps_selfSteps_of_enginesOk he
  have hwell : (selfSteps s).well = s.well := keep.well_eq rfl
  have hnot : s.well.state ≠ .notInst := by
    intro h
    simp [wellCan, h] at hw
  have hcan : wellCan (selfSteps s) = true := by rwa [wellCan, hwell]
  have hgives : wellGives (selfSteps s) 36000 = true := by rwa [wellGives, reseedInt, hwell]
  have hfault : (selfSteps s).mode.scFault = 0 := by rw [keep.mode_eq rfl, hf]
  show execSelfCheckDone us certsOk s = _
  unfold execSelfCheckDone
  extract_lets keyed s1 s2 s3 s4 s5
  have hkeyed : keyed = lifeKeyed s := rfl
  have hs2 : s2 = selfCheckMade s := rfl
  rw [if_neg (by simp [inMode, hm, hk, hnot]), if_neg (by simp [s1, hcan, hgives, hfault]),
    if_neg (by rw [hkeyed]; simpa using fun h => (hs h).1), if_neg (by rw [hkeyed, hs2]; simpa using fun h => (hs h).2)]
  rfl

theorem selfCheckDone_ends_in_provision {us : W32} {certsOk : Bool} {s : State} (hm : s.mode.mode = .selfCheck)
    (hk : katsOver s = true) (hw : wellCan s = true) (hg : wellGives s 36000 = true) (hf : s.mode.scFault = 0)
    (he : enginesOk s = true) (hs : lifeKeyed s = true → certsOk = true ∧ selfSigned (selfCheckMade s) = true) :
    ∃ t, exec (.selfCheckDone us certsOk) s = .next t ∧ t.mode.mode = .provision ∧ t.mode.scTime = us ∧
      t.mode.scFault = 0 ∧ t.serai.hkeyDrawn = true ∧ t.fuse = s.fuse ∧ t.pending = s.pending ∧
      (boxFaults s.watch.box = 0 → t.watch.box = s.watch.box) ∧ (boxFaults t.watch.box = 0) := by
  have steps := keeps_selfSteps_of_enginesOk he
  have passed := keeps_selfCheckPassed us s
  have hmode : (selfCheckPassed us s).mode = { s.mode with scTime := us } := by
    rw [passed.mode_eq rfl, upMode_mode, steps.mode_eq rfl]
  have hserv : inMode (selfCheckPassed us s) .service = false := by simp [inMode, hmode, hm]
  have entered := keeps_modeTo_provision hserv 1 none
  have hnew : (modeTo (selfCheckPassed us s) .provision 1 none).mode =
      { s.mode with scTime := us, mode := .provision, transitions := s.mode.transitions + 1 } := by
    rw [entered.mode_eq rfl, upMode_mode, hmode]
  have hbox : (modeTo (selfCheckPassed us s) .provision 1 none).watch.box = (boxCheck s).watch.box := by
    rw [modeTo_provision_box hserv, passed.watch_eq rfl, upMode_watch, selfSteps_watch he]
  refine ⟨_, exec_selfCheckDone_passes hm hk hw hg hf he hs, by rw [hnew], by rw [hnew], by rw [hnew]; exact hf, ?_, ?_, ?_,
    fun hv => by rw [hbox, boxCheck_of_valid hv], by rw [hbox, boxFaults_boxCheck]⟩
  · rw [entered.serai_eq rfl, upMode_serai, selfCheckPassed_hkeyDrawn]
  · rw [entered.fuse_eq rfl, upMode_fuse, passed.fuse_eq rfl, upMode_fuse, steps.fuse_eq rfl]
  · rw [entered.1, upMode_pending, passed.1, upMode_pending, steps.1]

/-- Of the three ways in which Self-check's certificates let it pass, a device with secrets takes the last: they are signed. -/
theorem selfSigned_of_lifeKeyed {certsOk : Bool} {s : State}
    (h : s.fuse.life = 0 ∨ s.fuse.life = 4 ∨
      (certsOk = true ∧ selfSigned (selfSigns (unitKeys (seraiDraws (selfSteps s)))) = true)) (hk : lifeKeyed s = true) :
    certsOk = true ∧ selfSigned (selfCheckMade s) = true := by
  have hmade : selfCheckMade s = selfSigns (unitKeys (seraiDraws (selfSteps s))) := by rw [selfCheckMade, hk]; rfl
  rw [hmade]
  rcases h with h | h | h
  · simp [lifeKeyed, h] at hk
  · simp [lifeKeyed, h] at hk
  · exact h

/-- Settles O2: PLL_LOCK in its two cases, FUSE_SENSE, and the end of Self-check. -/
theorem startUpEndsInProvision : Obligations.StartUpEndsInProvision := by
  unfold Obligations.StartUpEndsInProvision
  refine ⟨⟨?_, ?_, ?_⟩, ?_⟩
  · exact fun s hm hl hz => pllLock_enters_cold hm hl hz
  · exact fun s hm hl hz => pllLock_enters_cleared hm hl hz
  · exact fun s hm => fuseSense_begins_selfCheck hm
  · exact fun us certsOk s hm hk hw hg hf he hs =>
      selfCheckDone_ends_in_provision hm hk hw hg hf he (selfSigned_of_lifeKeyed hs)

end Sys2Proof.Machine
end

section
/-! SUPPORT. Rings (R32, R39 to R41, R45, R46, R50, R52 to R54, R128): what the ring commands and events leave in the ring, in the other
rings and in the rest of the state, and the obligations on them. -/

namespace Sys2Proof.Machine

/-! ### Reading through operations -/

theorem keepsBut.getRing_eq {W : List Part} {s t : State} (h : keepsBut W s t) (hp : W.contains .rings = false) (k : Nat) :
    getRing t k = getRing s k := by
  rw [getRing, h.rings_eq hp, getRing]

theorem keepsBut.getJob_eq {W : List Part} {s t : State} (h : keepsBut W s t) (hp : W.contains .jobs = false) (k : Nat) :
    getJob t k = getJob s k := by
  rw [getJob, h.jobs_eq hp, getJob]

@[simp] theorem getRing_ltrRefresh (s : State) (k : Nat) : getRing (ltrRefresh s) k = getRing s k := (keeps_ltrRefresh s).getRing_eq rfl k

@[simp] theorem getRing_issueAccess (s : State) (who : Requester) (a : FabAttr) (addr : W64) (len : Nat) (data : Option (List Byte))
    (k : Nat) : getRing (issueAccess s who a addr len data) k = getRing s k := (keeps_issueAccess s who a addr len data).getRing_eq rfl k

/-- Whether a ring may scan is read from its state and from the mode. -/
theorem scanMay_congr {s t : State} {r : Nat} (hst : (getRing t r).state = (getRing s r).state) (hm : t.mode = s.mode) :
    scanMay t r = scanMay s r := by
  simp only [scanMay, inMode, ringTouched, recovAt, hst, hm]

/-! ### Writes of the control ports (R359, R459) -/

@[simp] theorem getRing_respond (s : State) (p : CtlPort) (err : Bool) (k : Nat) : getRing (respond s p err) k = getRing s k :=
  (keeps_respond s p err).getRing_eq rfl k

theorem keeps_tookWrite (s : State) (p : CtlPort) (off n : Nat) : keepsBut [.ports] s (tookWrite s p off n) :=
  keepsBut.step (keeps_noteSide _ _ _ _) (by decide) (keeps_respond _ _ _)

@[simp] theorem getRing_tookWrite (s : State) (p : CtlPort) (off n k : Nat) : getRing (tookWrite s p off n) k = getRing s k :=
  (keeps_tookWrite s p off n).getRing_eq rfl k

theorem portThere_of_served {s : State} (h : served s = true) : portThere s = true := by
  simp only [served, Bool.and_eq_true] at h
  simp [portThere, h.1.2, h.2]

/-- A command that a port may take runs on the state in which its write is answered. -/
theorem portCmd_of_mayTake {s : State} {p : CtlPort} {off : Nat} (h : mayTake s p off 4 = true) (word : Nat)
    (act : State → Host.Outcome State Fault Refusal) : portCmd s p off word act = act (tookWrite s p off 4) := by
  simp only [mayTake, Bool.and_eq_true, Bool.not_eq_true'] at h
  simp [portCmd, portWrite, portThere_of_served h.1, h.1, h.2, tookWrite]

/-- No write meets one for which both ports act, and none is noted. -/
theorem portBoth_of_served {s : State} (h : served s = true) (p : CtlPort) (act : State → Host.Outcome State Fault Refusal) :
    portBoth s p act = act (respond s p false) := by
  have hmeet : sideMeets s p 0 0 = false := by
    unfold sideMeets
    cases s.ports.sideWrote <;> simp
  simp [portBoth, portWrite, portThere_of_served h, h, hmeet, noteSide]

/-! ### The end of a scan (R40, R41) -/

@[simp] theorem getRing_withdraw (s : State) (p : Access → Bool) (k : Nat) : getRing (withdraw s p) k = getRing s k :=
  (keeps_withdraw s p).getRing_eq rfl k

/-- A ring as the end of its scan leaves it. -/
def scanEnded (why : ScanStop) (g : RingRec) : RingRec :=
  { g with
    scanning := false, scanHeld := why = .full, scanCut := why = .left && (g.scanning || g.scanHeld || g.scanCut), waitSlot := false
    scanGot := [], scanNext := g.taken }

theorem getRing_scanEnd_same (s : State) (r : Nat) (why : ScanStop) : getRing (scanEnd s r why) r = scanEnded why (getRing s r) := by
  unfold scanEnd
  extract_lets mine s1 s2
  have h : getRing s2 r = getRing s r := getRing_withdraw s mine r
  rw [getRing_modRing_same, h, scanEnded]

theorem getRing_scanEnd_other (s : State) {r k : Nat} (why : ScanStop) (h : k ≠ r) : getRing (scanEnd s r why) k = getRing s k := by
  unfold scanEnd
  extract_lets mine s1 s2
  rw [getRing_modRing_other _ _ h]
  exact getRing_withdraw s mine k

/-! ### The run of a scan (R40, R41, R128) -/

/-- A ring whose scan has asked for the entries before `n`. -/
def scanAsked (n : W32) (g : RingRec) : RingRec := { g with scanNext := n }

/-- Scan reads move the place up to which the ring has asked, and nothing else of it. -/
theorem getRing_scanIssue_same (fuel : Nat) (s : State) (r : Nat) : ∃ n, getRing (scanIssue fuel s r) r = scanAsked n (getRing s r) := by
  induction fuel generalizing s with
  | zero => exact ⟨_, rfl⟩
  | succ fuel ih =>
    unfold scanIssue
    extract_lets g idx addr n s1
    split
    · exact ⟨_, rfl⟩
    · obtain ⟨m, hm⟩ := ih (issueAccess s1 (.scan r g.scanNext.toNat) (ringAttr s1 r g.courier) addr (64 * n) none)
      exact ⟨m, by rw [hm, getRing_issueAccess, getRing_modRing_same]; rfl⟩

theorem getRing_scanIssue_other (fuel : Nat) (s : State) {r k : Nat} (h : k ≠ r) : getRing (scanIssue fuel s r) k = getRing s k := by
  induction fuel generalizing s with
  | zero => rfl
  | succ fuel ih =>
    unfold scanIssue
    extract_lets g idx addr n s1
    split
    · rfl
    · rw [ih, getRing_issueAccess, getRing_modRing_other _ _ h]

/-- A ring whose scan has begun and has asked for the entries before `n`: the scan is in progress while INFLIGHT has room, and
otherwise held. -/
def scanBegun (n : W32) (g : RingRec) : RingRec :=
  { g with
    scanning := decide (g.inflight < 1024), scanHeld := decide (1024 ≤ g.inflight), scanCut := false, waitSlot := false, scanGot := []
    scanNext := n }

theorem getRing_scanBegin_same (s : State) (r : Nat) : ∃ n, getRing (scanBegin s r) r = scanBegun n (getRing s r) := by
  unfold scanBegin
  extract_lets s1
  have h1 := getRing_modRing_same s r (fun g => { g with
    scanning := true, scanHeld := false, scanCut := false, waitSlot := false, scanGot := [], scanNext := g.taken })
  by_cases hfull : 1024 ≤ (getRing s1 r).inflight
  · rw [if_pos hfull, getRing_scanEnd_same, h1]
    rw [h1] at hfull
    exact ⟨(getRing s r).taken, by simp [scanEnded, scanBegun, hfull, Nat.not_lt.mpr hfull]⟩
  · rw [if_neg hfull]
    rw [h1] at hfull
    obtain ⟨n, hn⟩ := getRing_scanIssue_same 4 s1 r
    exact ⟨n, by rw [scanPump, hn, h1]; simp [scanAsked, scanBegun, hfull, Nat.lt_of_not_le hfull]⟩

theorem getRing_scanBegin_other (s : State) {r k : Nat} (h : k ≠ r) : getRing (scanBegin s r) k = getRing s k := by
  unfold scanBegin
  extract_lets s1
  have h1 : getRing s1 k = getRing s k := getRing_modRing_other _ _ h
  split
  · rw [getRing_scanEnd_other _ _ h, h1]
  · rw [scanPump, getRing_scanIssue_other _ _ h, h1]

theorem scanGoesOn_of_not_cut {s : State} {r : Nat} (h : (getRing s r).scanCut = false ∨ scanMay s r = false) : scanGoesOn s r = s := by
  have hno : ((getRing s r).scanCut && scanMay s r) = false := by rcases h with h | h <;> simp [h]
  simp [scanGoesOn, hno]

theorem scanGoesOn_of_cut {s : State} {r : Nat} (hc : (getRing s r).scanCut = true) (hm : scanMay s r = true) :
    scanGoesOn s r = ltrRefresh (scanBegin s r) := by
  simp [scanGoesOn, hc, hm]

theorem getRing_scanGoesOn_same (s : State) (r : Nat) :
    getRing (scanGoesOn s r) r = getRing s r ∨ ∃ n, getRing (scanGoesOn s r) r = scanBegun n (getRing s r) := by
  unfold scanGoesOn
  split
  · rw [getRing_ltrRefresh]
    exact .inr (getRing_scanBegin_same s r)
  · exact .inl rfl

theorem getRing_scanGoesOn_other (s : State) {r k : Nat} (h : k ≠ r) : getRing (scanGoesOn s r) k = getRing s k := by
  unfold scanGoesOn
  split
  · rw [getRing_ltrRefresh, getRing_scanBegin_other _ h]
  · rfl

/-! ### DOORBELL and START (R32, R39, R52) -/

/-- A ring after a doorbell of control cycle `c`. -/
def ringRung (c : Nat) (g : RingRec) : RingRec :=
  { g with doorbells := g.doorbells + 1, bellAt := if g.pending then g.bellAt else c, pending := true }

theorem ringBell_of_running {s : State} {r : Nat} (h : (getRing s r).state = .running) :
    ringBell s r = ltrRefresh (modRing s r (ringRung s.cycle)) := by
  exact if_neg (by simp [h])

theorem ringBell_of_not_running {s : State} {r : Nat} (h : (getRing s r).state ≠ .running) : ringBell s r = s := by
  simp [ringBell, h]

theorem exec_doorbell {s : State} (h : served s = true) (p : CtlPort) (ring : Fin 4096) :
    exec (.doorbell p ring) s = .next (ringBell (respond s p false) ring.val) :=
  portBoth_of_served h p (fun s => .next (ringBell s ring.val))

theorem doorbell_counts {s : State} (hs : served s = true) (p : CtlPort) (ring : Fin 4096) (hr : (getRing s ring.val).state = .running) :
    ∃ t, exec (.doorbell p ring) s = .next t ∧ (getRing t ring.val).pending = true ∧
      (getRing t ring.val).doorbells = (getRing s ring.val).doorbells + 1 ∧ (getRing t ring.val).taken = (getRing s ring.val).taken ∧
      (∀ r, r ≠ ring.val → getRing t r = getRing s r) ∧ keepsBut [.rings, .ai] (respond s p false) t := by
  have hring : getRing (ringBell (respond s p false) ring.val) ring.val = ringRung (respond s p false).cycle (getRing s ring.val) := by
    rw [ringBell_of_running (by simpa using hr), getRing_ltrRefresh, getRing_modRing_same, getRing_respond]
  refine ⟨_, exec_doorbell hs p ring, by rw [hring]; rfl, by rw [hring]; rfl, by rw [hring]; rfl, fun r hne => ?_, keeps_ringBell _ _⟩
  rw [ringBell_of_running (by simpa using hr), getRing_ltrRefresh, getRing_modRing_other _ _ hne, getRing_respond]

/-- What START asks of the ring and of the mode (R32, R52). -/
structure StartReady (s : State) (r : Nat) : Prop where
  mode : s.mode.mode = .provision ∨ s.mode.mode = .service
  state : (getRing s r).state = .disabled ∨ (getRing s r).state = .stopped
  bound : (getRing s r).bound = true
  small : 6 ≤ (getRing s r).logSize.toNat
  large : (getRing s r).logSize.toNat ≤ 16
  base : (getRing s r).base ≠ 0
  head : (getRing s r).headAddr ≠ 0

/-- A ring as START leaves it, with expected time `e`. -/
def ringStarted (e : Nat) (g : RingRec) : RingRec :=
  { g with state := .running, cmdBusy := false, cmdResult := Status.done.code, expTime := e }

/-- The answered write of START, and the ring RUNNING. -/
def startedState (s : State) (p : CtlPort) (r : Nat) : State :=
  modRing (tookWrite s p (wsCmd r) 4) r (ringStarted s.muster.lagFloor.toNat)

theorem exec_ringStart {s : State} {p : CtlPort} {ring : Fin 4096} (hp : mayTake s p (wsCmd ring.val) 4 = true)
    (h : StartReady s ring.val) :
    exec (.ringStart p ring) s = .next (scanGoesOn (ltrRefresh (whenS (!(getRing s ring.val).spaceLocal && s.pins.linkLost)
      (fun s => freezeRing s ring.val) (startedState s p ring.val))) ring.val) := by
  have took := keeps_tookWrite s p (wsCmd ring.val) 4
  have hmode : (inMode s .provision || inMode s .service) = true := by simpa [inMode] using h.mode
  have hstate : ((getRing s ring.val).state = .disabled || (getRing s ring.val).state = .stopped : Bool) = true := by simpa using h.state
  show execRingStart p ring s = _
  rw [execRingStart, portCmd_of_mayTake hp]
  simp only [getRing_tookWrite, inMode, took.mode_eq rfl, took.muster_eq rfl] at hmode ⊢
  rw [if_neg (by simp only [hmode, hstate]; decide), if_neg (by simpa [h.bound, h.small, h.large] using ⟨h.base, h.head⟩)]
  simp only [modRing_pins, took.pins_eq rfl]
  rfl

@[simp] theorem getRing_startedState_same (s : State) (p : CtlPort) (r : Nat) :
    getRing (startedState s p r) r = ringStarted s.muster.lagFloor.toNat (getRing s r) := by
  rw [startedState, getRing_modRing_same, getRing_tookWrite]

theorem getRing_startedState_other (s : State) (p : CtlPort) {r k : Nat} (h : k ≠ r) : getRing (startedState s p r) k = getRing s k := by
  rw [startedState, getRing_modRing_other _ _ h, getRing_tookWrite]

@[simp] theorem startedState_mode (s : State) (p : CtlPort) (r : Nat) : (startedState s p r).mode = s.mode :=
  (keeps_tookWrite s p (wsCmd r) 4).mode_eq rfl

@[simp] theorem ltrRefresh_mode (s : State) : (ltrRefresh s).mode = s.mode := (keeps_ltrRefresh s).mode_eq rfl

/-- A scan of a ring that START made RUNNING may go on in Service, outside a stop, a Containment and a Recovery of the ring. -/
theorem scanMay_startedState (s : State) (p : CtlPort) (r : Nat) :
    scanMay (ltrRefresh (startedState s p r)) r =
      (inMode s .service && !s.mode.stopping && !ringTouched s r && !recovAt s r 1) := by
  simp [scanMay, inMode, ringTouched, recovAt, ringStarted]

/-- The scan that goes on changes what the ring keeps of its scan alone. -/
theorem scanGoesOn_fields (s : State) (r : Nat) :
    (getRing (scanGoesOn s r) r).state = (getRing s r).state ∧ (getRing (scanGoesOn s r) r).cmdBusy = (getRing s r).cmdBusy ∧
      (getRing (scanGoesOn s r) r).cmdResult = (getRing s r).cmdResult ∧ (getRing (scanGoesOn s r) r).expTime = (getRing s r).expTime ∧
      (getRing (scanGoesOn s r) r).taken = (getRing s r).taken := by
  rcases getRing_scanGoesOn_same s r with h | ⟨n, h⟩ <;> rw [h] <;> exact ⟨rfl, rfl, rfl, rfl, rfl⟩

/-- START of a ring whose memory is in reach: it is RUNNING, and the scan that STOP had ended goes on where a scan may begin. -/
theorem ringStart_runs {s : State} {p : CtlPort} {ring : Fin 4096} (hp : mayTake s p (wsCmd ring.val) 4 = true)
    (h : StartReady s ring.val) (hl : (getRing s ring.val).spaceLocal = true ∨ s.pins.linkLost = false) :
    ∃ t, exec (.ringStart p ring) s = .next t ∧ (getRing t ring.val).state = .running ∧ (getRing t ring.val).cmdBusy = false ∧
      (getRing t ring.val).cmdResult = Status.done.code ∧ (getRing t ring.val).expTime = s.muster.lagFloor.toNat ∧
      (getRing t ring.val).taken = (getRing s ring.val).taken ∧
      ((getRing s ring.val).scanCut = false ∨ s.mode.mode = .provision → getRing t ring.val = { getRing s ring.val with
        state := .running, cmdBusy := false, cmdResult := Status.done.code, expTime := s.muster.lagFloor.toNat }) ∧
      ((getRing s ring.val).scanCut = true → s.mode.mode = .service → s.mode.stopping = false → ringTouched s ring.val = false →
        recovAt s ring.val 1 = false → (getRing s ring.val).inflight < 1024 → (getRing t ring.val).scanning = true) ∧
      (∀ r, r ≠ ring.val → getRing t r = getRing s r) ∧ keepsBut [.rings, .ai, .ration] (tookWrite s p (wsCmd ring.val) 4) t := by
  have hexec := exec_ringStart hp h
  have hreach : (!(getRing s ring.val).spaceLocal && s.pins.linkLost) = false := by rcases hl with h | h <;> simp [h]
  rw [hreach] at hexec
  have hmay := scanMay_startedState s p ring.val
  have hring : getRing (ltrRefresh (startedState s p ring.val)) ring.val = ringStarted s.muster.lagFloor.toNat (getRing s ring.val) := by
    rw [getRing_ltrRefresh, getRing_startedState_same]
  obtain ⟨hstate, hbusy, hresult, hexp, htaken⟩ := scanGoesOn_fields (ltrRefresh (startedState s p ring.val)) ring.val
  rw [hring] at hstate hbusy hresult hexp htaken
  refine ⟨_, hexec, hstate, hbusy, hresult, hexp, htaken, fun hstay => ?_, fun hcut hserv hgo hfree hrec hroom => ?_,
    fun r hne => ?_, ?_⟩
  · have hnot : scanGoesOn (ltrRefresh (startedState s p ring.val)) ring.val = ltrRefresh (startedState s p ring.val) := by
      refine scanGoesOn_of_not_cut (hstay.imp (fun hc => by rw [hring]; exact hc) fun hprov => ?_)
      rw [hmay]
      simp [inMode, hprov]
    exact (congrArg (getRing · ring.val) hnot).trans hring
  · have hgoes : scanGoesOn (ltrRefresh (startedState s p ring.val)) ring.val =
        ltrRefresh (scanBegin (ltrRefresh (startedState s p ring.val)) ring.val) :=
      scanGoesOn_of_cut (by rw [hring]; exact hcut) (by simp [hmay, inMode, hserv, hgo, hfree, hrec])
    obtain ⟨n, hn⟩ := getRing_scanBegin_same (ltrRefresh (startedState s p ring.val)) ring.val
    show (getRing (scanGoesOn (ltrRefresh (startedState s p ring.val)) ring.val) ring.val).scanning = true
    rw [hgoes, getRing_ltrRefresh, hn, hring]
    exact decide_eq_true hroom
  · exact (getRing_scanGoesOn_other _ hne).trans ((getRing_ltrRefresh _ _).trans (getRing_startedState_other s p hne))
  · exact keepsBut.step (keeps_scanGoesOn _ _) (by decide)
      (keepsBut.step (keeps_ltrRefresh _) (by decide) ((keeps_modRing _ _ _).sub (by decide)))

theorem getRing_freezeRing_same (s : State) (r : Nat) :
    getRing (freezeRing s r) r = { scanEnded .left (getRing s r) with frozenFrom := (getRing s r).state, state := .frozen } := by
  rw [freezeRing, getRing_modRing_same, getRing_scanEnd_same]
  rfl

theorem getRing_freezeRing_other (s : State) {r k : Nat} (h : k ≠ r) : getRing (freezeRing s r) k = getRing s k := by
  rw [freezeRing, getRing_modRing_other _ _ h, getRing_scanEnd_other _ _ h]

/-- START of a host ring while the host link is lost: it freezes at once, as a RUNNING ring does (R58). -/
theorem ringStart_freezes {s : State} {p : CtlPort} {ring : Fin 4096} (hp : mayTake s p (wsCmd ring.val) 4 = true)
    (h : StartReady s ring.val) (hhost : (getRing s ring.val).spaceLocal = false) (hlost : s.pins.linkLost = true) :
    ∃ t, exec (.ringStart p ring) s = .next t ∧ (getRing t ring.val).state = .frozen ∧ (getRing t ring.val).frozenFrom = .running ∧
      (getRing t ring.val).scanning = false ∧ (getRing t ring.val).cmdResult = Status.done.code ∧
      (∀ r, r ≠ ring.val → getRing t r = getRing s r) ∧ keepsBut [.rings, .ai] (tookWrite s p (wsCmd ring.val) 4) t := by
  have hexec := exec_ringStart hp h
  have hgone : (!(getRing s ring.val).spaceLocal && s.pins.linkLost) = true := by simp [hhost, hlost]
  rw [hgone] at hexec
  have hring := getRing_freezeRing_same (startedState s p ring.val) ring.val
  rw [getRing_startedState_same] at hring
  rw [whenS, if_pos rfl, scanGoesOn_of_not_cut (.inr (by simp [scanMay, hring]))] at hexec
  refine ⟨_, hexec, by rw [getRing_ltrRefresh, hring], by rw [getRing_ltrRefresh, hring]; rfl, by rw [getRing_ltrRefresh, hring]; rfl,
    by rw [getRing_ltrRefresh, hring]; rfl, fun r hne => ?_, ?_⟩
  · rw [getRing_ltrRefresh, getRing_freezeRing_other _ hne, getRing_startedState_other s p hne]
  · exact keepsBut.step (keeps_ltrRefresh _) (by decide)
      (keepsBut.step (keeps_freezeRing _ _) (by decide) ((keeps_modRing _ _ _).sub (by decide)))

/-- Settles O9: DOORBELL in its two cases, and START with the ring's memory in reach and out of it. -/
theorem doorbellAndStart : Obligations.DoorbellAndStart := by
  unfold Obligations.DoorbellAndStart
  refine ⟨?_, ?_, ?_, ?_⟩
  · exact fun p ring s hs hr => doorbell_counts hs p ring hr
  · intro p ring s hs hr
    rw [exec_doorbell hs, ringBell_of_not_running (by simpa using hr)]
  · exact fun p ring s hp hm hst hb h6 h16 hbase hhead hl => ringStart_runs hp ⟨hm, hst, hb, h6, h16, hbase, hhead⟩ hl
  · exact fun p ring s hp hm hst hb h6 h16 hbase hhead hhost hlost =>
      ringStart_freezes hp ⟨hm, hst, hb, h6, h16, hbase, hhead⟩ hhost hlost

/-! ### Scans (R39 to R41, R128) -/

/-- A scan starts with the doorbell that PENDING stands for. -/
def scanStarting (g : RingRec) : RingRec := { g with pending := false, scanBell := g.bellAt }

theorem scanStart_begins {s : State} {ring : Fin 4096} (hp : (getRing s ring.val).pending = true)
    (hs : (getRing s ring.val).scanning = false) (hh : (getRing s ring.val).scanHeld = false) (hm : scanMay s ring.val = true)
    (hroom : (getRing s ring.val).inflight < 1024) :
    ∃ t, exec (.scanStart ring) s = .next t ∧ (getRing t ring.val).pending = false ∧ (getRing t ring.val).scanning = true ∧
      (getRing t ring.val).taken = (getRing s ring.val).taken ∧ keepsBut [.rings, .ai, .ration] s t := by
  have hexec : exec (.scanStart ring) s = .next (ltrRefresh (scanBegin (modRing s ring.val scanStarting) ring.val)) :=
    if_pos (by simp [hp, hs, hh, hm])
  obtain ⟨n, hn⟩ := getRing_scanBegin_same (modRing s ring.val scanStarting) ring.val
  rw [getRing_modRing_same] at hn
  refine ⟨_, hexec, by rw [getRing_ltrRefresh, hn]; rfl, by rw [getRing_ltrRefresh, hn]; exact decide_eq_true hroom,
    by rw [getRing_ltrRefresh, hn]; rfl, ?_⟩
  exact keepsBut.step (keeps_ltrRefresh _) (by decide)
    (keepsBut.step (keeps_scanBegin _ _) (by decide) ((keeps_modRing _ _ _).sub (by decide)))

theorem scanResume_begins {s : State} {ring : Fin 4096} (hh : (getRing s ring.val).scanHeld = true)
    (hroom : (getRing s ring.val).inflight < 1024) (hm : scanMay s ring.val = true) :
    ∃ t, exec (.scanResume ring) s = .next t ∧ (getRing t ring.val).scanning = true ∧ (getRing t ring.val).scanHeld = false ∧
      keepsBut [.rings, .ai, .ration] s t := by
  have hexec : exec (.scanResume ring) s = .next (scanBegin s ring.val) := if_pos (by simp [hh, hroom, hm])
  obtain ⟨n, hn⟩ := getRing_scanBegin_same s ring.val
  exact ⟨_, hexec, by rw [hn]; exact decide_eq_true hroom, by rw [hn]; exact decide_eq_false (Nat.not_le.mpr hroom),
    keeps_scanBegin _ _⟩

/-- The examined entry no longer waits for a reorder slot. -/
def slotGiven (g : RingRec) : RingRec := { g with waitSlot := false }

theorem exec_slotAvailable {s : State} {ring : Fin 4096} (hs : (getRing s ring.val).scanning = true)
    (hw : (getRing s ring.val).waitSlot = true) (hf : slotFree s ring.val = true) :
    exec (.slotAvailable ring) s = .next (ltrRefresh
      (scanDecide (2 * (getRing s ring.val).scanGot.length + 1) (modRing s ring.val slotGiven) ring.val)) :=
  if_pos (by simp [hs, hw, hf])

theorem keeps_slotAvailable (fuel : Nat) (s : State) (r : Nat) :
    keepsBut [.rings, .jobs, .nextJob, .muster, .ai, .ration] s (ltrRefresh (scanDecide fuel (modRing s r slotGiven) r)) :=
  keepsBut.step (keeps_ltrRefresh _) (by decide)
    (keepsBut.step (keeps_scanDecide _ _ _) (by decide) ((keeps_modRing _ _ _).sub (by decide)))

theorem scanMay_slotGiven (s : State) (r : Nat) : scanMay (modRing s r slotGiven) r = scanMay s r :=
  scanMay_congr (by rw [getRing_modRing_same]; rfl) rfl

theorem slotFree_slotGiven (s : State) (r : Nat) : slotFree (modRing s r slotGiven) r = slotFree s r := by
  unfold slotFree
  rw [getRing_modRing_same]
  rfl

/-- Where the entry at TAKEN has not returned, the scan asks for entries. -/
theorem scanDecide_of_none {s : State} {r : Nat} (fuel : Nat) (hs : (getRing s r).scanning = true) (hm : scanMay s r = true)
    (he : examined (getRing s r) = none) : scanDecide (fuel + 1) s r = scanPump s r := by
  simp [scanDecide, hs, hm, he]

/-- The ring after its entry is taken: the entry no longer waits and is no longer kept. -/
def entryLeft (g : RingRec) : RingRec :=
  { g with waitSlot := false, scanGot := g.scanGot.filter (fun e => e.1 ≠ (g.taken - 1).toNat) }

/-- From `s` to `t` entries of ring `r` may have been taken: reorder slots only leave the pool, job numbers and INFLIGHT only rise. -/
structure Took (s t : State) (r : Nat) : Prop where
  roFree : t.muster.roFree ≤ s.muster.roFree
  nextJob : s.nextJob ≤ t.nextJob
  inflight : (getRing s r).inflight ≤ (getRing t r).inflight

theorem Took.trans {s t u : State} {r : Nat} (h : Took s t r) (k : Took t u r) : Took s u r :=
  ⟨Nat.le_trans k.roFree h.roFree, Nat.le_trans h.nextJob k.nextJob, Nat.le_trans h.inflight k.inflight⟩

/-- What leaves Muster, the job numbers and the ring's INFLIGHT takes no entry. -/
theorem Took.of_keeps {W : List Part} {s t : State} {r : Nat} (h : keepsBut W s t) (hm : W.contains .muster = false)
    (hn : W.contains .nextJob = false) (hi : (getRing t r).inflight = (getRing s r).inflight) : Took s t r :=
  ⟨Nat.le_of_eq (by rw [h.muster_eq hm]), Nat.le_of_eq (h.nextJob_eq hn).symm, Nat.le_of_eq hi.symm⟩

theorem scanEnd_took (s : State) (r : Nat) (why : ScanStop) : Took s (scanEnd s r why) r :=
  .of_keeps (keeps_scanEnd s r why) rfl rfl (by rw [getRing_scanEnd_same]; rfl)

theorem scanPump_took (s : State) (r : Nat) : Took s (scanPump s r) r := by
  obtain ⟨n, hn⟩ := getRing_scanIssue_same 4 s r
  exact .of_keeps (keeps_scanPump s r) rfl rfl (by rw [scanPump, hn]; rfl)

theorem takeEntry_inflight (s : State) (r : Nat) (ws : List W64) :
    (getRing (modRing (takeEntry s r ws) r entryLeft) r).inflight = (getRing s r).inflight + 1 := by
  simp [takeEntry, entryLeft, getRing, modRing, upMuster]

@[simp] theorem takeEntry_roFree (s : State) (r : Nat) (ws : List W64) : (takeEntry s r ws).muster.roFree = s.muster.roFree - 1 := rfl

@[simp] theorem takeEntry_nextJob (s : State) (r : Nat) (ws : List W64) : (takeEntry s r ws).nextJob = s.nextJob + 1 := rfl

theorem takeEntry_took (s : State) (r : Nat) (ws : List W64) : Took s (modRing (takeEntry s r ws) r entryLeft) r :=
  ⟨Nat.sub_le _ _, Nat.le_succ _, by rw [takeEntry_inflight]; exact Nat.le_succ _⟩

/-- The examined entry waits for a reorder slot. -/
def slotAwaited (g : RingRec) : RingRec := { g with waitSlot := true }

theorem slotAwaited_took (s : State) (r : Nat) : Took s (modRing s r slotAwaited) r :=
  .of_keeps (keeps_modRing s r slotAwaited) rfl rfl (by rw [getRing_modRing_same]; rfl)

theorem scanDecide_took (fuel : Nat) (s : State) (r : Nat) : Took s (scanDecide fuel s r) r := by
  induction fuel generalizing s with
  | zero => exact .of_keeps (keepsBut.refl [] s) rfl rfl rfl
  | succ fuel ih =>
    rw [scanDecide]
    split
    · exact .of_keeps (keepsBut.refl [] s) rfl rfl rfl
    · split
      · exact scanEnd_took s r .left
      · split
        · exact scanPump_took s r
        · next ws _ =>
          split
          · exact scanEnd_took s r .notOwned
          · split
            · exact slotAwaited_took s r
            · refine (takeEntry_took s r ws).trans ?_
              show Took _ (if _ then scanEnd _ r .full else scanDecide fuel _ r) r
              split
              · exact scanEnd_took _ r .full
              · exact ih _

/-- Where the ring owns the entry at TAKEN and a reorder slot is free, that entry is taken, and more may be. -/
theorem scanDecide_takes {s : State} {r : Nat} {ws : List W64} (fuel : Nat) (hs : (getRing s r).scanning = true)
    (hm : scanMay s r = true) (he : examined (getRing s r) = some ws)
    (hphase : e0Phase (ws.getD 0 0) = expectedPhase (getRing s r).taken.toNat (getRing s r).logSize.toNat) (hf : slotFree s r = true) :
    Took (modRing (takeEntry s r ws) r entryLeft) (scanDecide (fuel + 1) s r) r := by
  rw [scanDecide, if_neg (by simp [hs]), if_neg (by simp [hm])]
  simp only [he]
  rw [if_neg (by simpa using hphase), if_neg (by simp [hf])]
  show Took _ (if _ then scanEnd _ r .full else scanDecide fuel _ r) r
  split
  · exact scanEnd_took _ r .full
  · exact scanDecide_took fuel _ r

/-- SLOT_AVAILABLE while the entry at TAKEN has not returned: the scan goes on, and no longer waits. -/
theorem slotAvailable_goes_on {s : State} {ring : Fin 4096} (hs : (getRing s ring.val).scanning = true)
    (hw : (getRing s ring.val).waitSlot = true) (hf : slotFree s ring.val = true) (hm : scanMay s ring.val = true)
    (he : examined (getRing s ring.val) = none) :
    ∃ t, exec (.slotAvailable ring) s = .next t ∧ (getRing t ring.val).waitSlot = false ∧ (getRing t ring.val).scanning = true ∧
      keepsBut [.rings, .jobs, .nextJob, .muster, .ai, .ration] s t := by
  have hgiven := getRing_modRing_same s ring.val slotGiven
  obtain ⟨n, hn⟩ := getRing_scanIssue_same 4 (modRing s ring.val slotGiven) ring.val
  have hring : getRing (ltrRefresh (scanDecide (2 * (getRing s ring.val).scanGot.length + 1) (modRing s ring.val slotGiven) ring.val))
      ring.val = scanAsked n (slotGiven (getRing s ring.val)) := by
    rw [getRing_ltrRefresh, scanDecide_of_none _ (by rw [hgiven]; exact hs) (by rw [scanMay_slotGiven, hm]) (by rw [hgiven]; exact he),
      scanPump, hn, hgiven]
  exact ⟨_, exec_slotAvailable hs hw hf, by rw [hring]; rfl, by rw [hring]; exact hs, keeps_slotAvailable _ _ _⟩

theorem roFree_pos_of_slotFree {s : State} {r : Nat} (h : slotFree s r = true) : 0 < s.muster.roFree := by
  unfold slotFree at h
  split at h <;> simp only [decide_eq_true_eq] at h <;> omega

/-- SLOT_AVAILABLE while an entry that the ring owns waits: the entry is taken, with its reorder slot and its number. -/
theorem slotAvailable_takes {s : State} {ring : Fin 4096} {ws : List W64} (hs : (getRing s ring.val).scanning = true)
    (hw : (getRing s ring.val).waitSlot = true) (hf : slotFree s ring.val = true) (hm : scanMay s ring.val = true)
    (he : examined (getRing s ring.val) = some ws)
    (hphase : e0Phase (ws.getD 0 0) = expectedPhase (getRing s ring.val).taken.toNat (getRing s ring.val).logSize.toNat) :
    ∃ t, exec (.slotAvailable ring) s = .next t ∧ t.muster.roFree < s.muster.roFree ∧ s.nextJob < t.nextJob ∧
      (getRing s ring.val).inflight < (getRing t ring.val).inflight ∧ keepsBut [.rings, .jobs, .nextJob, .muster, .ai, .ration] s t := by
  have hgiven := getRing_modRing_same s ring.val slotGiven
  have htook := scanDecide_takes (2 * (getRing s ring.val).scanGot.length) (by rw [hgiven]; exact hs)
    (by rw [scanMay_slotGiven, hm]) (by rw [hgiven]; exact he) (by rw [hgiven]; exact hphase) (by rw [slotFree_slotGiven, hf])
  have hltr := keeps_ltrRefresh
    (scanDecide (2 * (getRing s ring.val).scanGot.length + 1) (modRing s ring.val slotGiven) ring.val)
  refine ⟨_, exec_slotAvailable hs hw hf, ?_, ?_, ?_, keeps_slotAvailable _ _ _⟩
  · have hless := htook.roFree
    rw [modRing_muster, takeEntry_roFree, modRing_muster] at hless
    rw [hltr.muster_eq rfl]
    exact Nat.lt_of_le_of_lt hless (Nat.sub_lt (roFree_pos_of_slotFree hf) Nat.one_pos)
  · have hmore := htook.nextJob
    rw [modRing_nextJob, takeEntry_nextJob, modRing_nextJob] at hmore
    rw [hltr.nextJob_eq rfl]
    exact hmore
  · have hmore := htook.inflight
    rw [takeEntry_inflight, hgiven] at hmore
    rw [getRing_ltrRefresh]
    exact hmore

/-- Settles O10: SCAN_START, SCAN_RESUME, and SLOT_AVAILABLE with no entry at hand and with an owned one. -/
theorem scansRun : Obligations.ScansRun := by
  unfold Obligations.ScansRun
  refine ⟨?_, ?_, ?_, ?_⟩
  · exact fun ring s hp hs hh hm hroom => scanStart_begins hp hs hh hm hroom
  · exact fun ring s hh hroom hm => scanResume_begins hh hroom hm
  · exact fun ring s hs hw hf hm he => slotAvailable_goes_on hs hw hf hm he
  · exact fun ring ws s hs hw hf hm he hphase => slotAvailable_takes hs hw hf hm he hphase

/-! ### Accesses under change (R41, R48, R352) -/

/-- A change of every listed value is a change of what each key reads, where what is not listed stays. -/
theorem tget_tmapv {α : Type} [DecidableEq α] (d : α) (f : Nat → α → α) (hf : ∀ k, f k d = d) (t : Table α) (k : Nat) :
    tget d (tmapv d f t) k = f k (tget d t k) := by
  induction t with
  | nil => exact (hf k).symm
  | cons kv t ih =>
    obtain ⟨k', v⟩ := kv
    show tget d (tset d (tmapv d f t) k' (f k' v)) k = _
    rw [tget_tset, tget_cons]
    by_cases h : k' = k
    · simp [h]
    · simp [h, Ne.symm h, ih]

theorem lt_of_mem_of_tabove {α : Type} [DecidableEq α] {d : α} {t : Table α} {a k : Nat} {v : α} (hw : twf d t = true)
    (ha : tabove a t = true) (hm : (k, v) ∈ t) : a < k := by
  induction t generalizing a with
  | nil => cases hm
  | cons kv t ih =>
    obtain ⟨k', v'⟩ := kv
    simp only [twf, Bool.and_eq_true] at hw
    simp only [tabove, decide_eq_true_eq] at ha
    rcases List.mem_cons.mp hm with h | h
    · cases h; exact ha
    · exact Nat.lt_trans ha (ih hw.2 hw.1.2 h)

/-- In the canonical form a key reads what is listed under it. -/
theorem tget_of_mem {α : Type} [DecidableEq α] {d : α} {t : Table α} {k : Nat} {v : α} (hw : twf d t = true) (hm : (k, v) ∈ t) :
    tget d t k = v := by
  induction t with
  | nil => cases hm
  | cons kv t ih =>
    obtain ⟨k', v'⟩ := kv
    simp only [twf, Bool.and_eq_true] at hw
    rw [tget_cons]
    rcases List.mem_cons.mp hm with h | h
    · cases h; exact if_pos rfl
    · rw [if_neg (Nat.ne_of_lt (lt_of_mem_of_tabove hw.2 hw.1.2 h)), ih hw.2 h]

/-- What a key reads, other than the default, is listed under it. -/
theorem mem_of_tget {α : Type} {d : α} {t : Table α} {k : Nat} (h : tget d t k ≠ d) : (k, tget d t k) ∈ t := by
  induction t with
  | nil => exact absurd rfl h
  | cons kv t ih =>
    obtain ⟨k', v'⟩ := kv
    rw [tget_cons] at h ⊢
    by_cases hk : k' = k
    · simp [hk]
    · rw [if_neg hk] at h ⊢
      exact List.mem_cons_of_mem _ (ih h)

/-- An access of a requester that satisfies `p` is outstanding under some number. -/
theorem busyFor_iff {s : State} (h : twf none s.ai.accesses = true) (p : Requester → Bool) :
    busyFor s p = true ↔ ∃ k a, tget none s.ai.accesses k = some a ∧ p a.who = true := by
  have hlist : busyFor s p = true ↔ ∃ k a, (k, some a) ∈ s.ai.accesses ∧ p a.who = true := by
    rw [busyFor, Bool.not_eq_true', List.isEmpty_eq_false_iff_exists_mem]
    constructor
    · rintro ⟨a, ha⟩
      obtain ⟨⟨k, o⟩, hm, ho⟩ := List.mem_filterMap.mp ha
      cases o with
      | none => cases ho
      | some b =>
        by_cases hp : p b.who = true
        · exact ⟨k, b, hm, hp⟩
        · exact nomatch (if_neg hp).symm.trans ho
    · rintro ⟨k, a, hm, hp⟩
      exact ⟨a, List.mem_filterMap.mpr ⟨(k, some a), hm, if_pos hp⟩⟩
  rw [hlist]
  constructor
  · rintro ⟨k, a, hm, hp⟩
    exact ⟨k, a, tget_of_mem h hm, hp⟩
  · rintro ⟨k, a, hg, hp⟩
    exact ⟨k, a, hg ▸ mem_of_tget (by simp [hg]), hp⟩

/-- From `s` to `t` the accesses that do not satisfy `p` are as they were, and the others keep their requester or are gone. -/
def othersKept (p : Access → Bool) (s t : State) : Prop :=
  ∀ k, (∀ a, tget none t.ai.accesses k = some a → ∃ b, tget none s.ai.accesses k = some b ∧ a.who = b.who) ∧
    (accessIs s p k = false → tget none t.ai.accesses k = tget none s.ai.accesses k)

theorem partEnd_accesses_other (s : State) {id k : Nat} (fail : Option (Nat × Status)) (cause : Nat) (h : k ≠ id) :
    tget none (partEnd s id fail cause).1.ai.accesses k = tget none s.ai.accesses k := by
  unfold partEnd
  split
  · rfl
  · extract_lets worst a'
    split
    · exact tget_tset_other none s.ai.accesses none h
    · exact tget_tset_other none s.ai.accesses (some a') h

/-- The end of a part leaves the requester of an access that it does not end. -/
theorem partEnd_who {s : State} {id k : Nat} {fail : Option (Nat × Status)} {cause : Nat} {a : Access}
    (h : tget none (partEnd s id fail cause).1.ai.accesses k = some a) : ∃ b, tget none s.ai.accesses k = some b ∧ a.who = b.who := by
  by_cases hk : k = id
  · subst hk
    unfold partEnd at h
    split at h
    next hnone => simp [hnone] at h
    next b hb =>
      refine ⟨b, hb, ?_⟩
      split at h
      · simp at h
      · simp only [upAi_ai, tget_tset_same, Option.some.injEq] at h
        rw [← h]
  · exact ⟨a, by rwa [partEnd_accesses_other s fail cause hk] at h, rfl⟩

theorem partEnd_othersKept {p : Access → Bool} {s u : State} {id : Nat} (fail : Option (Nat × Status)) (cause : Nat)
    (hid : accessIs s p id = true) (h : othersKept p s u) : othersKept p s (partEnd u id fail cause).1 := by
  refine fun k => ⟨fun a ha => ?_, fun hk => ?_⟩
  · obtain ⟨b, hb, hwho⟩ := partEnd_who ha
    obtain ⟨c, hc, hwho'⟩ := (h k).1 b hb
    exact ⟨c, hc, hwho.trans hwho'⟩
  · have hne : k ≠ id := fun heq => by simp [heq, hid] at hk
    rw [partEnd_accesses_other u fail cause hne, (h k).2 hk]

theorem foldl_partEnd_othersKept {p : Access → Bool} {s : State} (l : List Req) (hl : ∀ r ∈ l, accessIs s p r.access = true)
    {u : State} (h : othersKept p s u) : othersKept p s (l.foldl (fun s r => (partEnd s r.access none 1).1) u) := by
  induction l generalizing u with
  | nil => exact h
  | cons r l ih =>
    exact ih (fun q hq => hl q (List.mem_cons_of_mem _ hq)) (partEnd_othersKept none 1 (hl r List.mem_cons_self) h)

theorem forAll_modPort_accesses (l : List Nat) (f : PortRec → PortRec) (s : State) :
    (forAll l (fun s k => modPort s k f) s).ai.accesses = s.ai.accesses :=
  forAll_preserves (P := fun t => t.ai.accesses = s.ai.accesses) (f := fun s k => modPort s k f) (fun _ _ h => h) l rfl

theorem withdraw_othersKept (s : State) (p : Access → Bool) : othersKept p s (withdraw s p) := by
  unfold withdraw
  extract_lets drop keep gone s1 s2
  have hports : s1.ai.accesses = s.ai.accesses := by
    dsimp only [s1]
    rw [forAll_modPort_accesses]
  have hsame : othersKept p s s2 := fun k => by
    dsimp only [s2, upAi_ai]
    rw [hports]
    exact ⟨fun a ha => ⟨a, ha, rfl⟩, fun _ => rfl⟩
  refine foldl_partEnd_othersKept gone (fun r hr => ?_) hsame
  have hdrop : ∀ q, r ∈ drop q → accessIs s p r.access = true := fun q hq => (List.mem_filter.mp hq).2
  rcases List.mem_append.mp hr with h | h
  · exact hdrop _ h
  · obtain ⟨q, hq, hr⟩ := List.mem_flatten.mp h
    obtain ⟨k, _, rfl⟩ := List.mem_map.mp hq
    exact hdrop _ hr

/-- A scan read of ring `r`. -/
def scanReadOf (r : Nat) (a : Access) : Bool :=
  match a.who with
  | .scan k _ => k = r
  | _ => false

theorem who_of_scanReadOf {r : Nat} {a : Access} (h : scanReadOf r a = true) : ∃ n, a.who = .scan r n := by
  unfold scanReadOf at h
  split at h
  next k n hk => exact ⟨n, by rw [hk, of_decide_eq_true h]⟩
  next => cases h

/-- A scan read of ring `r` becomes one of a scan that has ended. -/
def scanReadGone (r : Nat) (a : Access) : Access := if scanReadOf r a then { a with who := .scanGone r } else a

theorem scanEnd_accesses (s : State) (r : Nat) (why : ScanStop) :
    (scanEnd s r why).ai.accesses = tmapv none (fun _ o => o.map (scanReadGone r)) (withdraw s (scanReadOf r)).ai.accesses := rfl

theorem tget_scanEnd_accesses (s : State) (r : Nat) (why : ScanStop) (k : Nat) :
    tget none (scanEnd s r why).ai.accesses k = (tget none (withdraw s (scanReadOf r)).ai.accesses k).map (scanReadGone r) := by
  rw [scanEnd_accesses, tget_tmapv _ _ (fun _ => rfl)]

/-- The end of a scan leaves the outstanding accesses of every requester that is no scan. -/
theorem busyFor_scanEnd {s : State} (h : twf none s.ai.accesses = true) {p : Requester → Bool} (hs : ∀ k n, p (.scan k n) = false)
    (hg : ∀ k, p (.scanGone k) = false) (r : Nat) (why : ScanStop) : busyFor (scanEnd s r why) p = busyFor s p := by
  have hkept := withdraw_othersKept s (scanReadOf r)
  rw [Bool.eq_iff_iff, busyFor_iff h, busyFor_iff (by rw [scanEnd_accesses]; exact twf_tmapv _ _ _)]
  constructor
  · rintro ⟨k, a, ha, hp⟩
    rw [tget_scanEnd_accesses, Option.map_eq_some_iff] at ha
    obtain ⟨b, hb, rfl⟩ := ha
    obtain ⟨c, hc, hwho⟩ := (hkept k).1 b hb
    by_cases hscan : scanReadOf r b = true
    · simp [scanReadGone, hscan, hg] at hp
    · exact ⟨k, c, hc, by simpa [scanReadGone, hscan, hwho] using hp⟩
  · rintro ⟨k, a, ha, hp⟩
    have hscan : scanReadOf r a = false := Bool.eq_false_iff.mpr fun hscan => by
      obtain ⟨n, hn⟩ := who_of_scanReadOf hscan
      rw [hn, hs] at hp
      cases hp
    refine ⟨k, a, ?_, hp⟩
    rw [tget_scanEnd_accesses, (hkept k).2 (by simp [accessIs, ha, hscan]), ha]
    simp [scanReadGone, hscan]

theorem countOut_scanEnd {s : State} (h : twf none s.ai.accesses = true) (r k : Nat) (why : ScanStop) :
    countOut (scanEnd s r why) k = countOut s k := busyFor_scanEnd h (fun _ _ => rfl) (fun _ => rfl) r why

theorem countOut_congr {s t : State} (h : t.ai.accesses = s.ai.accesses) (r : Nat) : countOut t r = countOut s r := by
  simp only [countOut, busyFor, accessesOf, h]

/-! ### STOP (R52, R53) -/

/-- A ring whose STOP is in progress. -/
def ringStopping (g : RingRec) : RingRec := { g with state := .stopping, cmdBusy := true }

/-- A ring whose STOP is done. -/
def ringStopped (g : RingRec) : RingRec := { g with state := .stopped, cmdBusy := false, cmdResult := Status.done.code }

/-- The answered write of STOP, with the ring's scan ended and its STOP in progress. -/
def stoppingState (s : State) (p : CtlPort) (r : Nat) : State :=
  modRing (scanEnd (tookWrite s p (wsCmd r) 4) r .left) r ringStopping

theorem exec_ringStop {s : State} {p : CtlPort} {ring : Fin 4096} (hp : mayTake s p (wsCmd ring.val) 4 = true)
    (hr : (getRing s ring.val).state = .running) :
    exec (.ringStop p ring) s = .next (stopCheck (stoppingState s p ring.val) ring.val) := by
  show execRingStop p ring s = _
  rw [execRingStop, portCmd_of_mayTake hp]
  exact if_neg (by simp [hr])

theorem getRing_stoppingState_same (s : State) (p : CtlPort) (r : Nat) :
    getRing (stoppingState s p r) r = ringStopping (scanEnded .left (getRing s r)) := by
  rw [stoppingState, getRing_modRing_same, getRing_scanEnd_same, getRing_tookWrite]

theorem getRing_stoppingState_other (s : State) (p : CtlPort) {r k : Nat} (h : k ≠ r) :
    getRing (stoppingState s p r) k = getRing s k := by
  rw [stoppingState, getRing_modRing_other _ _ h, getRing_scanEnd_other _ _ h, getRing_tookWrite]

theorem keeps_stoppingState (s : State) (p : CtlPort) (r : Nat) :
    keepsBut [.rings, .ai] (tookWrite s p (wsCmd r) 4) (stoppingState s p r) :=
  keepsBut.step (keeps_modRing _ _ _) (by decide) (keeps_scanEnd _ _ _)

/-- STOP leaves the count writes of the ring outstanding. -/
theorem countOut_stoppingState {s : State} (h : twf none s.ai.accesses = true) (p : CtlPort) (r : Nat) :
    countOut (stoppingState s p r) r = countOut s r := by
  have hai : (tookWrite s p (wsCmd r) 4).ai = s.ai := (keeps_tookWrite s p (wsCmd r) 4).ai_eq rfl
  calc countOut (stoppingState s p r) r
    _ = countOut (scanEnd (tookWrite s p (wsCmd r) 4) r .left) r := countOut_congr (by rw [stoppingState, modRing_ai]) r
    _ = countOut (tookWrite s p (wsCmd r) 4) r := countOut_scanEnd (by rw [hai, h]) r r .left
    _ = countOut s r := countOut_congr (by rw [hai]) r

theorem getRing_stopCheck_same {s : State} {r : Nat} (h : (getRing s r).state = .stopping) :
    getRing (stopCheck s r) r =
      if (getRing s r).inflight = 0 ∧ countOut s r = false then ringStopped (getRing s r) else getRing s r := by
  unfold stopCheck
  by_cases hidle : (getRing s r).inflight = 0 ∧ countOut s r = false
  · rw [if_pos hidle, if_pos (by simp [h, hidle.1, hidle.2]), getRing_modRing_same]
    rfl
  · rw [if_neg hidle, if_neg (by simpa [h] using hidle)]

theorem getRing_stopCheck_other (s : State) {r k : Nat} (h : k ≠ r) : getRing (stopCheck s r) k = getRing s k := by
  unfold stopCheck
  extract_lets g
  split
  · exact getRing_modRing_other _ _ h
  · rfl

/-- STOP of a RUNNING ring: its scan ends, and it is STOPPED at once where nothing of it is outstanding. -/
theorem ringStop_ends_scan {s : State} {p : CtlPort} {ring : Fin 4096} (hp : mayTake s p (wsCmd ring.val) 4 = true)
    (hr : (getRing s ring.val).state = .running) (hw : twf none s.ai.accesses = true) :
    ∃ t, exec (.ringStop p ring) s = .next t ∧ (getRing t ring.val).scanning = false ∧
      ((getRing s ring.val).inflight = 0 ∧ countOut s ring.val = false →
        (getRing t ring.val).state = .stopped ∧ (getRing t ring.val).cmdBusy = false ∧
          (getRing t ring.val).cmdResult = Status.done.code) ∧
      (¬((getRing s ring.val).inflight = 0 ∧ countOut s ring.val = false) →
        (getRing t ring.val).state = .stopping ∧ (getRing t ring.val).cmdBusy = true) ∧
      (getRing t ring.val).taken = (getRing s ring.val).taken ∧ (getRing t ring.val).count = (getRing s ring.val).count ∧
      (getRing t ring.val).inflight = (getRing s ring.val).inflight ∧ (∀ r, r ≠ ring.val → getRing t r = getRing s r) ∧
      keepsBut [.rings, .ai] (tookWrite s p (wsCmd ring.val) 4) t := by
  have hring := getRing_stopCheck_same (congrArg RingRec.state (getRing_stoppingState_same s p ring.val))
  rw [getRing_stoppingState_same, countOut_stoppingState hw] at hring
  have hother : ∀ r, r ≠ ring.val → getRing (stopCheck (stoppingState s p ring.val) ring.val) r = getRing s r := fun r hne => by
    rw [getRing_stopCheck_other _ hne, getRing_stoppingState_other s p hne]
  have hkeep : keepsBut [.rings, .ai] (tookWrite s p (wsCmd ring.val) 4) (stopCheck (stoppingState s p ring.val) ring.val) :=
    keepsBut.step (keeps_stopCheck _ _) (by decide) (keeps_stoppingState s p ring.val)
  refine ⟨_, exec_ringStop hp hr, ?_⟩
  by_cases hidle : (getRing s ring.val).inflight = 0 ∧ countOut s ring.val = false
  · have hstopped := hring.trans (if_pos hidle)
    rw [hstopped]
    exact ⟨rfl, fun _ => ⟨rfl, rfl, rfl⟩, fun h => absurd hidle h, rfl, rfl, rfl, hother, hkeep⟩
  · have hstopping := hring.trans (if_neg hidle)
    rw [hstopping]
    exact ⟨rfl, fun h => absurd h hidle, fun _ => ⟨rfl, rfl⟩, rfl, rfl, rfl, hother, hkeep⟩

/-! ### RESET (R54) -/

/-- A ring with expected time `e`. -/
def ringExpects (e : Nat) (g : RingRec) : RingRec := { g with expTime := e }

/-- From `s` to `t` no ring has changed but for its expected time (R141). -/
def ringsKept (s t : State) : Prop := ∀ k, ∃ e, getRing t k = ringExpects e (getRing s k)

theorem ringsKept.trans {s t u : State} (h : ringsKept s t) (h' : ringsKept t u) : ringsKept s u := fun k => by
  obtain ⟨e, he⟩ := h k
  obtain ⟨e', he'⟩ := h' k
  exact ⟨e', by rw [he', he]; rfl⟩

theorem ringsKept.of_keeps {W : List Part} {s t : State} (h : keepsBut W s t) (hp : W.contains .rings = false) : ringsKept s t :=
  fun k => ⟨_, h.getRing_eq hp k⟩

theorem modRing_expects_ringsKept (s : State) (r : Nat) (f : Nat → Nat) :
    ringsKept s (modRing s r (fun g => { g with expTime := f g.expTime })) := fun k => by
  by_cases h : k = r
  · subst h; exact ⟨_, getRing_modRing_same _ _ _⟩
  · exact ⟨_, getRing_modRing_other _ _ h⟩

/-- Of the rings, the end of a job changes the expected time of its own. -/
theorem finishJob_ringsKept (s : State) (j : Nat) (lane : Option Nat) : ringsKept s (finishJob s j lane) := by
  unfold finishJob
  extract_lets x s1 s2
  have h1 : keepsBut [.units, .jobs, .lanes, .muster, .serai, .mint, .house, .scales, .well, .relay, .ledger, .ai] s s1 :=
    keepsBut.step (keeps_unqueue _ _) (by decide) (keepsBut.step (keeps_unseat _ _) (by decide) ((keeps_dropWork _ _ _).sub (by decide)))
  have h2 : keepsBut [.units, .jobs, .lanes, .muster, .serai, .mint, .house, .scales, .well, .relay, .ledger, .ai] s s2 :=
    keepsBut.when (keepsBut.step (keeps_clearJob _ _) (by decide) h1) (fun _ h => keepsBut.step (keeps_settle _ _) (by decide) h)
  have hkept : ringsKept s s2 := .of_keeps h2 rfl
  split
  · exact hkept
  · extract_lets s3 s4
    have h3 : ringsKept s2 s3 := (ringsKept.of_keeps (keeps_unitEnding _ _ _) rfl).trans (.of_keeps (keeps_modJob _ _ _) rfl)
    have h4 : ringsKept s3 s4 := modRing_expects_ringsKept s3 x.ring (expectNext · (x.ran / 2))
    exact ((hkept.trans h3).trans h4).trans (.of_keeps (keeps_unlag _ _) rfl)

theorem resetJob_ringsKept (s : State) (j : Nat) : ringsKept s (resetJob s j) := by
  unfold resetJob
  extract_lets x s1
  have h1 : ringsKept s s1 := .of_keeps (keeps_modJob _ _ _) rfl
  have hdrop : ringsKept s (dropWork s1 j 1) := h1.trans (.of_keeps (keeps_dropWork _ _ _) rfl)
  split
  · exact (hdrop.trans (.of_keeps (keeps_orphanReads _ _) rfl)).trans (.of_keeps (keeps_modJob _ _ _) rfl)
  · exact hdrop.trans (finishJob_ringsKept _ _ _)
  · exact h1.trans (finishJob_ringsKept _ _ _)
  · exact h1.trans (finishJob_ringsKept _ _ _)
  · exact hdrop.trans (finishJob_ringsKept _ _ _)
  · exact h1.trans (.of_keeps (keeps_settle _ _) rfl)

/-- A ring whose RESET has begun: its counts are kept for the record. -/
def ringResetting (g : RingRec) : RingRec := { g with state := .resetting, rstJobs := g.inflight, rstTaken := g.taken, rstCount := g.count }

/-- When RESET has begun, the ring's scan has ended and its counts are kept for the record. -/
theorem getRing_ringResetBegin (s : State) (r : Nat) :
    ∃ e, getRing (ringResetBegin s r) r = ringExpects e (ringResetting (scanEnded .left (getRing s r))) := by
  unfold ringResetBegin
  extract_lets s1 s2 s3 s4
  have h2 : getRing s2 r = ringResetting (scanEnded .left (getRing s r)) := by
    rw [← getRing_scanEnd_same]
    exact getRing_modRing_same s1 r ringResetting
  have h3 : ringsKept s2 s3 :=
    forAll_preserves (P := ringsKept s2) (fun t j h => h.trans (resetJob_ringsKept t j)) _ (.of_keeps (keepsBut.refl [] s2) rfl)
  have h4 : ringsKept s3 s4 := .of_keeps (keeps_withdraw _ _) rfl
  have h5 : ringsKept s4 (ltrRefresh (resetBenches s4 r)) :=
    (ringsKept.of_keeps (keeps_resetBenches _ _) rfl).trans (.of_keeps (keeps_ltrRefresh _) rfl)
  obtain ⟨e, he⟩ := (h3.trans h4).trans h5 r
  exact ⟨e, by rw [he, h2]⟩

/-- A ring under a RESET that a command has asked for. -/
def ringCommanded (g : RingRec) : RingRec := { g with cmdBusy := true }

theorem exec_ringReset {s : State} {p : CtlPort} {ring : Fin 4096} (hp : mayTake s p (wsCmd ring.val) 4 = true)
    (hr : (getRing s ring.val).state ≠ .resetting) :
    exec (.ringReset p ring) s =
      .next (modRing (ringResetBegin (tookWrite s p (wsCmd ring.val) 4) ring.val) ring.val ringCommanded) := by
  show execRingReset p ring s = _
  rw [execRingReset, portCmd_of_mayTake hp]
  exact if_neg (by simpa using hr)

/-- RESET begins in every state but RESETTING: the scan ends, and the counts are kept for the record. -/
theorem ringReset_begins {s : State} {p : CtlPort} {ring : Fin 4096} (hp : mayTake s p (wsCmd ring.val) 4 = true)
    (hr : (getRing s ring.val).state ≠ .resetting) :
    ∃ t, exec (.ringReset p ring) s = .next t ∧ (getRing t ring.val).state = .resetting ∧ (getRing t ring.val).cmdBusy = true ∧
      (getRing t ring.val).scanning = false ∧ (getRing t ring.val).rstTaken = (getRing s ring.val).taken ∧
      (getRing t ring.val).rstCount = (getRing s ring.val).count ∧ (getRing t ring.val).rstJobs = (getRing s ring.val).inflight ∧
      keepsBut [.units, .rings, .jobs, .lanes, .muster, .serai, .mint, .house, .scales, .well, .relay, .ledger, .ai]
        (tookWrite s p (wsCmd ring.val) 4) t := by
  obtain ⟨e, he⟩ := getRing_ringResetBegin (tookWrite s p (wsCmd ring.val) 4) ring.val
  rw [getRing_tookWrite] at he
  refine ⟨_, exec_ringReset hp hr, ?_⟩
  rw [getRing_modRing_same, he]
  exact ⟨rfl, rfl, rfl, rfl, rfl, rfl, keepsBut.step (keeps_modRing _ _ _) (by decide) (keeps_ringResetBegin _ _)⟩

/-- A ring whose RESET has ended (R54 step 7). -/
def ringReset (g : RingRec) : RingRec :=
  { g with
    state := .stopped, taken := 0, count := 0, inflight := 0, pending := false, order := [], released := 0, countAcked := 0
    countStop := false, bells := [], woff := 0, scanNext := 0, scanCut := false, rstJobs := 0, rstTaken := 0, rstCount := 0, flrPend := false
    cmdResult := if g.cmdBusy then Status.done.code else g.cmdResult, cmdBusy := false }

/-- The ring's jobs are forgotten and the record of its RESET is offered (R54 steps 5 and 6). -/
def resetRecorded (s : State) (r : Nat) : State :=
  emit (dropJobs s (tkeys (fun _ (x : Job) => x.ring = r) s.jobs)) 1 0x101 0
    [w32 r, w32 (getRing s r).rstJobs, (getRing s r).rstTaken, (getRing s r).rstCount]

theorem exec_ringResetComplete {s : State} {ring : Fin 4096} (hr : (getRing s ring.val).state = .resetting)
    (ho : resetOver s ring.val = true) :
    exec (.ringResetComplete ring) s =
      .next (flrCheck (modRing (resetRecorded s ring.val) ring.val ringReset) (getRing s ring.val).func) := by
  exact if_neg (by simp [hr, ho])

theorem getRing_resetRecorded (s : State) (r k : Nat) : getRing (resetRecorded s r) k = getRing s k :=
  ((keeps_emit _ _ _ _ _).getRing_eq rfl k).trans ((keeps_dropJobs s _).getRing_eq rfl k)

/-- RING_RESET_COMPLETE: the ring is STOPPED with its counts at 0, and the record carries what they were. -/
theorem ringResetComplete_stops {s : State} {ring : Fin 4096} (hr : (getRing s ring.val).state = .resetting)
    (ho : resetOver s ring.val = true) :
    ∃ t, exec (.ringResetComplete ring) s = .next t ∧ (getRing t ring.val).state = .stopped ∧ (getRing t ring.val).taken = 0 ∧
      (getRing t ring.val).count = 0 ∧ (getRing t ring.val).inflight = 0 ∧ (getRing t ring.val).cmdBusy = false ∧
      recordOffered s t 1 0x101 0 [w32 ring.val, w32 (getRing s ring.val).rstJobs, (getRing s ring.val).rstTaken,
        (getRing s ring.val).rstCount] ∧
      (∀ r, r ≠ ring.val → getRing t r = getRing s r) ∧ keepsBut [.rings, .jobs, .muster, .ledger, .ai] s t := by
  have flr := keeps_flrCheck (modRing (resetRecorded s ring.val) ring.val ringReset) (getRing s ring.val).func
  refine ⟨_, exec_ringResetComplete hr ho, ?_⟩
  rw [flr.getRing_eq rfl, getRing_modRing_same]
  refine ⟨rfl, rfl, rfl, rfl, rfl, flr.ledger_eq rfl, fun r hne => ?_, ?_⟩
  · rw [flr.getRing_eq rfl, getRing_modRing_other _ _ hne, getRing_resetRecorded]
  · exact keepsBut.step flr (by decide) (keepsBut.step (keeps_modRing _ _ _) (by decide)
      (keepsBut.step (keeps_emit _ _ _ _ _) (by decide) ((keeps_dropJobs _ _).sub (by decide))))

/-! ### HOLDOFF (R50) -/

/-- A ring whose held request has been made. -/
def heldMade (g : RingRec) : RingRec := { g with msgHeld := false }

/-- A ring whose HOLDOFF interval is over. -/
def holdoffOver (g : RingRec) : RingRec := { g with holding := false, msgHeld := false }

theorem irq_requested (s : State) (v : Nat) : tget false (irq s v).ai.irqPending v = true := by
  rw [irq, upAi_ai, tget_tset_same]

theorem holdoffExpiry_requests {s : State} {ring : Fin 4096} (hh : (getRing s ring.val).holding = true)
    (hm : (getRing s ring.val).msgHeld = true) (hi : (getRing s ring.val).irqEn = true) :
    ∃ t, exec (.holdoffExpiry ring) s = .next t ∧ tget false t.ai.irqPending ring.val = true ∧
      getRing t ring.val = { getRing s ring.val with msgHeld := false } ∧ (∀ r, r ≠ ring.val → getRing t r = getRing s r) ∧
      keepsBut [.rings, .ai] s t := by
  have hexec : exec (.holdoffExpiry ring) s = .next (irq (modRing s ring.val heldMade) ring.val) :=
    (if_neg (by simp [hh])).trans (if_pos (by simp [hm, hi]))
  have hirq := keeps_irq (modRing s ring.val heldMade) ring.val
  refine ⟨_, hexec, irq_requested _ _, ?_, fun r hne => ?_, ?_⟩
  · rw [hirq.getRing_eq rfl, getRing_modRing_same]; rfl
  · rw [hirq.getRing_eq rfl, getRing_modRing_other _ _ hne]
  · exact keepsBut.step hirq (by decide) ((keeps_modRing _ _ _).sub (by decide))

theorem holdoffExpiry_ends {s : State} {ring : Fin 4096} (hh : (getRing s ring.val).holding = true)
    (hm : (getRing s ring.val).msgHeld = false) :
    ∃ t, exec (.holdoffExpiry ring) s = .next t ∧ getRing t ring.val = { getRing s ring.val with holding := false, msgHeld := false } ∧
      (∀ r, r ≠ ring.val → getRing t r = getRing s r) ∧ keepsBut [.rings] s t := by
  have hexec : exec (.holdoffExpiry ring) s = .next (modRing s ring.val holdoffOver) :=
    (if_neg (by simp [hh])).trans (if_neg (by simp [hm]))
  exact ⟨_, hexec, getRing_modRing_same _ _ _, fun r hne => getRing_modRing_other _ _ hne, keeps_modRing _ _ _⟩

/-! ### The number of the next access (R351) -/

@[simp] theorem queueReq_nextAccess (s : State) (r : Req) : (queueReq s r).ai.nextAccess = s.ai.nextAccess := rfl

@[simp] theorem atsAsk_nextAccess (s : State) (r : Req) : (atsAsk s r).ai.nextAccess = s.ai.nextAccess := by
  unfold atsAsk
  split
  · rfl
  · split <;> rfl

@[simp] theorem routeReq_nextAccess (s : State) (r : Req) : (routeReq s r).ai.nextAccess = s.ai.nextAccess := by
  unfold routeReq translate
  split
  · simp
  · split <;> simp

@[simp] theorem noteLatency_nextAccess (s : State) (id : Nat) : (noteLatency s id).ai.nextAccess = s.ai.nextAccess := by
  unfold noteLatency
  extract_lets bells s1
  show s1.ai.nextAccess = s.ai.nextAccess
  refine List.foldlRecOn (motive := fun t : State => t.ai.nextAccess = s.ai.nextAccess) bells _ rfl (fun t h b _ => ?_)
  dsimp only
  split <;> exact h

theorem pumpPort_nextAccess (fuel : Nat) (s : State) (k : Nat) : (pumpPort fuel s k).ai.nextAccess = s.ai.nextAccess := by
  induction fuel generalizing s with
  | zero => rfl
  | succ fuel ih =>
    unfold pumpPort
    extract_lets p
    split
    · rfl
    · split
      · split
        · rfl
        · simp [ih]
      · rfl

@[simp] theorem pump_nextAccess (s : State) : (pump s).ai.nextAccess = s.ai.nextAccess := by
  unfold pump
  split
  · exact forAll_preserves (P := fun t => t.ai.nextAccess = s.ai.nextAccess) (fun t k h => (pumpPort_nextAccess _ t k).trans h) _ rfl
  · rfl

theorem splitKiB_ne_nil (fuel addr : Nat) {len : Nat} (h : len ≠ 0) : splitKiB (fuel + 1) addr len ≠ [] := by
  rw [splitKiB, if_neg h]
  dsimp only
  split <;> exact List.cons_ne_nil _ _

/-- An access of some bytes takes the next number. -/
theorem issueAccess_nextAccess (s : State) (who : Requester) (a : FabAttr) (addr : W64) {len : Nat} (data : Option (List Byte))
    (h : len ≠ 0) : (issueAccess s who a addr len data).ai.nextAccess = s.ai.nextAccess + 1 := by
  unfold issueAccess
  extract_lets id parts acc s1
  rw [if_neg (by simpa using splitKiB_ne_nil _ _ h), pump_nextAccess]
  exact List.foldlRecOn (motive := fun t : State => t.ai.nextAccess = s.ai.nextAccess + 1) (parts.map (partReq id a addr.toNat data))
    routeReq (b := s1) rfl (fun t ht r _ => (routeReq_nextAccess t r).trans ht)

/-! ### STATUS (R45, R46, R127) -/

/-- The settlement of a Courier job leaves its status. -/
theorem settle_status (s : State) (j k : Nat) : (getJob (settle s j) k).status = (getJob s k).status := by
  unfold settle
  extract_lets x m top v s1
  split
  · rfl
  · show (getJob s1 k).status = _
    by_cases h : k = j
    · subst h; rw [getJob_modJob_same]
    · rw [getJob_modJob_other _ _ h]

theorem statusBytes_length_ne_zero (s : State) (x : Job) : (statusBytes s x).length ≠ 0 := by
  simp [statusBytes, leBytes]

/-- The job settled, with its STATUS write outstanding. -/
def statusState (s : State) (j : Nat) : State := modJob (settle s j) j (fun x => { x with seat := .statusOut })

theorem exec_statusWrite {s : State} {j : Nat} (hj : jobExists s j = true) (he : (getJob s j).seat = .ended)
    (hn : (getJob s j).noStatus = false) (hw : writesDone s j = true) (hm : statusMay s (getJob s j).ring = true) :
    exec (.statusWrite j) s = .next (issueAccess (statusState s j) (.status j)
      (ringAttr (statusState s j) (getJob s j).ring (getRing (statusState s j) (getJob s j).ring).courier) ((getJob s j).entry + 6)
      (statusBytes s (getJob s j)).length (some (statusBytes s (getJob s j)))) :=
  if_neg (by simp [hj, he, hn, hw, hm])

/-- STATUS_WRITE: the write goes out with the status that the job ended with. -/
theorem statusWrite_issues {s : State} {j : Nat} (hj : jobExists s j = true) (he : (getJob s j).seat = .ended)
    (hn : (getJob s j).noStatus = false) (hw : writesDone s j = true) (hm : statusMay s (getJob s j).ring = true) :
    ∃ t, exec (.statusWrite j) s = .next t ∧ (getJob t j).seat = .statusOut ∧ (getJob t j).status = (getJob s j).status ∧
      s.ai.nextAccess < t.ai.nextAccess ∧ keepsBut [.jobs, .muster, .ai, .ration] s t := by
  have hkeep : keepsBut [.jobs, .muster] s (statusState s j) :=
    keepsBut.step (keeps_modJob _ _ _) (by decide) (keeps_settle _ _)
  refine ⟨_, exec_statusWrite hj he hn hw hm, ?_, ?_, ?_, ?_⟩
  · rw [(keeps_issueAccess _ _ _ _ _ _).getJob_eq rfl, statusState, getJob_modJob_same]
  · rw [(keeps_issueAccess _ _ _ _ _ _).getJob_eq rfl, statusState, getJob_modJob_same]
    exact settle_status s j j
  · rw [issueAccess_nextAccess _ _ _ _ _ (statusBytes_length_ne_zero _ _), hkeep.ai_eq rfl]
    exact Nat.lt_succ_self _
  · exact keepsBut.step (keeps_issueAccess _ _ _ _ _ _) (by decide) (hkeep.sub (by decide))

/-- Settles O11: STOP, RESET and its end, the end of the HOLDOFF interval with a held request and without one, and the STATUS write. -/
theorem stopResetAndStatus : Obligations.StopResetAndStatus := by
  unfold Obligations.StopResetAndStatus
  refine ⟨⟨?_, ?_, ?_⟩, ?_, ?_, ?_⟩
  · exact fun p ring s hp hr hw => ringStop_ends_scan hp hr hw
  · exact fun p ring s hp hr => ringReset_begins hp hr
  · exact fun ring s hr ho => ringResetComplete_stops hr ho
  · exact fun ring s hh hm hi => holdoffExpiry_requests hh hm hi
  · exact fun ring s hh hm => holdoffExpiry_ends hh hm
  · exact fun j s hj he hn hw hm => statusWrite_issues hj he hn hw hm

end Sys2Proof.Machine
end

section
/-! SUPPORT. Routes and unit windows (R15, R16, R67 to R69, R174): what the route store's commands and the writes of UW_CTRL leave in the
route, the unit, its lane or bench, and in the others, and the obligation on them. -/

namespace Sys2Proof.Machine

/-! ### Reading through operations -/

theorem keepsBut.getRoute_eq {W : List Part} {s t : State} (h : keepsBut W s t) (hp : W.contains .routes = false) (k : Nat) :
    getRoute t k = getRoute s k := by
  rw [getRoute, h.routes_eq hp, getRoute]

theorem keepsBut.getUnit_eq {W : List Part} {s t : State} (h : keepsBut W s t) (hp : W.contains .units = false) (k : Nat) :
    getUnit t k = getUnit s k := by
  rw [getUnit, h.units_eq hp, getUnit]

theorem keepsBut.getLane_eq {W : List Part} {s t : State} (h : keepsBut W s t) (hp : W.contains .lanes = false) (k : Nat) :
    getLane t k = getLane s k := by
  rw [getLane, h.lanes_eq hp, getLane]

theorem keepsBut.getBench_eq {W : List Part} {s t : State} (h : keepsBut W s t) (hp : W.contains .house = false) (k : Nat) :
    getBench t k = getBench s k := by
  rw [getBench, h.house_eq hp, getBench]

theorem keepsBut.domOn_eq {W : List Part} {s t : State} (h : keepsBut W s t) (hp : W.contains .ration = false) (d : Nat) :
    domOn t d = domOn s d := by
  have hdom : getDom t d = getDom s d := by rw [getDom, h.ration_eq hp, getDom]
  rw [domOn, hdom, domOn]

theorem keepsBut.quarRead_eq {W : List Part} {s t : State} (h : keepsBut W s t) (hp : W.contains .units = false) (u : Nat) :
    quarRead t u = quarRead s u := by
  simp only [quarRead, getUnit, h.units_eq hp]

theorem keepsBut.unitCtrlWord_eq {W : List Part} {s t : State} (h : keepsBut W s t) (hp : W.contains .units = false) (u : Nat) :
    unitCtrlWord t u = unitCtrlWord s u := by
  simp only [unitCtrlWord, quarRead, getUnit, h.units_eq hp]

@[simp] theorem tookWrite_mode (s : State) (p : CtlPort) (off n : Nat) : (tookWrite s p off n).mode = s.mode :=
  (keeps_tookWrite s p off n).mode_eq rfl

@[simp] theorem getRoute_tookWrite (s : State) (p : CtlPort) (off n k : Nat) : getRoute (tookWrite s p off n) k = getRoute s k :=
  (keeps_tookWrite s p off n).getRoute_eq rfl k

@[simp] theorem getUnit_tookWrite (s : State) (p : CtlPort) (off n k : Nat) : getUnit (tookWrite s p off n) k = getUnit s k :=
  (keeps_tookWrite s p off n).getUnit_eq rfl k

/-- A write of registers that a port may take runs on the state in which it is answered. -/
theorem portSet_of_mayTake {s : State} {p : CtlPort} {off : Nat} {wide : Bool} (h : mayTake s p off (if wide then 8 else 4) = true)
    (data : W64) (act : State → Host.Outcome State Fault Refusal) :
    portSet s p off wide data act = act (tookWrite s p off (if wide then 8 else 4)) := by
  simp only [mayTake, Bool.and_eq_true, Bool.not_eq_true'] at h
  exact portWrite_acts h.1 h.2

/-! ### The route store (R67 to R69) -/

theorem getRoute_upRoutes_of_table {s : State} {f : RouteStore → RouteStore} (h : (f s.routes).routes = s.routes.routes) (k : Nat) :
    getRoute (upRoutes s f) k = getRoute s k := by
  rw [getRoute, upRoutes_routes, h, getRoute]

theorem getRoute_routeClear_same (s : State) (n : Nat) :
    getRoute (routeClear s n) n = { getRoute s n with valid := false, rlen := 0 } := getRoute_modRoute_same _ _ _

theorem getRoute_routeClear_other (s : State) {n k : Nat} (h : k ≠ n) : getRoute (routeClear s n) k = getRoute s k :=
  getRoute_modRoute_other _ _ h

theorem getRoute_slotSet_same (s : State) (n slot : Nat) (insn : W64) :
    getRoute (slotSet s n slot insn) n =
      { getRoute s n with slots := tset 0 (getRoute s n).slots slot insn, valid := false, rlen := 0 } := by
  unfold slotSet
  extract_lets s1
  have h1 := getRoute_modRoute_same s n (fun r => { r with slots := tset 0 r.slots slot insn, valid := false, rlen := 0 })
  split
  · rw [getRoute_upRoutes_of_table rfl, h1]
  · exact h1

theorem getRoute_slotSet_other (s : State) {n k : Nat} (slot : Nat) (insn : W64) (h : k ≠ n) :
    getRoute (slotSet s n slot insn) k = getRoute s k := by
  unfold slotSet
  extract_lets s1
  have h1 : getRoute s1 k = getRoute s k := getRoute_modRoute_other _ _ h
  split
  · rw [getRoute_upRoutes_of_table rfl, h1]
  · exact h1

theorem exec_routeSlotWrite {p : CtlPort} {route : BitVec 10} {slot : BitVec 5} {s : State} (insn : W64)
    (hp : mayTake s p (rtSlot route.toNat slot.toNat) 8 = true) (hm : s.mode.mode = .provision) (hr : route ≠ 0) :
    exec (.routeSlotWrite p route slot insn) s =
      .next (slotSet (tookWrite s p (rtSlot route.toNat slot.toNat) 8) route.toNat slot.toNat insn) := by
  show execRouteSlotWrite p route slot insn s = _
  rw [execRouteSlotWrite, if_neg hr, portSet_of_mayTake (wide := true) hp]
  exact if_pos (by simp [stopWritable, inMode, hm])

theorem routeSlotWrite_lands {p : CtlPort} {route : BitVec 10} {slot : BitVec 5} {s : State} (insn : W64)
    (hp : mayTake s p (rtSlot route.toNat slot.toNat) 8 = true) (hm : s.mode.mode = .provision) (hr : route ≠ 0) :
    ∃ t, exec (.routeSlotWrite p route slot insn) s = .next t ∧ (getRoute t route.toNat).valid = false ∧
      (getRoute t route.toNat).slots = tset 0 (getRoute s route.toNat).slots slot.toNat insn ∧
      (∀ r, r ≠ route.toNat → getRoute t r = getRoute s r) ∧ keepsBut [.routes] (tookWrite s p (rtSlot route.toNat slot.toNat) 8) t := by
  refine ⟨_, exec_routeSlotWrite insn hp hm hr, ?_, ?_, fun r hne => ?_, keeps_slotSet _ _ _ _⟩
  · rw [getRoute_slotSet_same]
  · rw [getRoute_slotSet_same, getRoute_tookWrite]
  · rw [getRoute_slotSet_other _ _ _ hne, getRoute_tookWrite]

theorem exec_routeValidate {p : CtlPort} {rlen : BitVec 6} {s : State} (route : BitVec 10) (hp : mayTake s p rtCmd 4 = true)
    (hm : s.mode.mode = .provision) (hb : s.routes.busy = false) :
    exec (.routeValidate p route rlen) s = .next (upRoutes (routeClear (tookWrite s p rtCmd 4) route.toNat)
      (fun x => { x with busy := true, route := route.toNat, rlen := rlen.toNat })) := by
  have hbusy : (tookWrite s p rtCmd 4).routes.busy = false := by rw [(keeps_tookWrite _ _ _ _).routes_eq rfl, hb]
  show execRouteValidate p route rlen s = _
  rw [execRouteValidate, portCmd_of_mayTake hp]
  simp [hbusy, inMode, hm]

theorem routeValidate_starts {p : CtlPort} {rlen : BitVec 6} {s : State} (route : BitVec 10) (hp : mayTake s p rtCmd 4 = true)
    (hm : s.mode.mode = .provision) (hb : s.routes.busy = false) :
    ∃ t, exec (.routeValidate p route rlen) s = .next t ∧ t.routes.busy = true ∧ t.routes.route = route.toNat ∧
      t.routes.rlen = rlen.toNat ∧ (getRoute t route.toNat).valid = false ∧
      (∀ r, r ≠ route.toNat → getRoute t r = getRoute s r) ∧ keepsBut [.routes] (tookWrite s p rtCmd 4) t := by
  refine ⟨_, exec_routeValidate route hp hm hb, rfl, rfl, rfl, ?_, fun r hne => ?_,
    keepsBut.step (keeps_upRoutes _ _) (by decide) (keeps_routeClear _ _)⟩
  · rw [getRoute_upRoutes_of_table rfl, getRoute_routeClear_same]
  · rw [getRoute_upRoutes_of_table rfl, getRoute_routeClear_other _ hne, getRoute_tookWrite]

/-- The state after a VALIDATE in which slot `i` is the first that fails, or none. -/
def validated (s : State) : Option Nat → State
  | some i => upRoutes s (fun x => { x with busy := false, result := Status.encoding.code, badv := true, badpos := BitVec.ofNat 5 i })
  | none => upRoutes (modRoute s s.routes.route (fun r => { r with valid := true, rlen := s.routes.rlen }))
      (fun x => { x with busy := false, result := Status.done.code, badv := false, badpos := 0 })

theorem exec_validateComplete {s : State} (hb : s.routes.busy = true) (h1 : 1 ≤ s.routes.rlen) (h32 : s.routes.rlen ≤ 32)
    (hr : s.routes.route ≠ 0) : exec .validateComplete s = .next (validated s (firstBad s s.routes.route s.routes.rlen)) := by
  show execValidateComplete s = _
  unfold execValidateComplete
  extract_lets n k
  rw [if_neg (by simp [hb]), if_neg (by simp [n, k, hr]; omega)]
  cases firstBad s k n <;> rfl

theorem keeps_validated (s : State) (o : Option Nat) : keepsBut [.routes] s (validated s o) := by
  cases o with
  | some i => exact keeps_upRoutes _ _
  | none => exact keepsBut.step (keeps_upRoutes _ _) (by decide) (keeps_modRoute _ _ _)

theorem validated_busy (s : State) (o : Option Nat) : (validated s o).routes.busy = false := by
  cases o <;> rfl

theorem validateComplete_ends {s : State} (hb : s.routes.busy = true) (h1 : 1 ≤ s.routes.rlen) (h32 : s.routes.rlen ≤ 32)
    (hr : s.routes.route ≠ 0) :
    ∃ t, exec .validateComplete s = .next t ∧ t.routes.busy = false ∧
      (firstBad s s.routes.route s.routes.rlen = none → t.routes.result = Status.done.code ∧
        (getRoute t s.routes.route).valid = true ∧ (getRoute t s.routes.route).rlen = s.routes.rlen) ∧
      (∀ i, firstBad s s.routes.route s.routes.rlen = some i → t.routes.result = Status.encoding.code ∧ t.routes.badv = true ∧
        t.routes.badpos = BitVec.ofNat 5 i ∧ t.routes.routes = s.routes.routes) ∧ keepsBut [.routes] s t := by
  refine ⟨_, exec_validateComplete hb h1 h32 hr, validated_busy _ _, fun hnone => ?_, fun i hsome => ?_, keeps_validated _ _⟩
  · rw [hnone, validated, getRoute_upRoutes_of_table rfl, getRoute_modRoute_same]
    exact ⟨rfl, rfl, rfl⟩
  · rw [hsome]
    exact ⟨rfl, rfl, rfl, rfl⟩

theorem exec_routeInvalidate {p : CtlPort} {route : BitVec 10} {s : State} (hp : mayTake s p rtCmd 4 = true)
    (hm : s.mode.mode = .provision) (hb : s.routes.busy = false) (hr : route ≠ 0) :
    exec (.routeInvalidate p route) s = .next (upRoutes (routeClear (tookWrite s p rtCmd 4) route.toNat)
      (fun x => { x with result := Status.done.code, badv := false, badpos := 0 })) := by
  have hbusy : (tookWrite s p rtCmd 4).routes.busy = false := by rw [(keeps_tookWrite _ _ _ _).routes_eq rfl, hb]
  show execRouteInvalidate p route s = _
  rw [execRouteInvalidate, portCmd_of_mayTake hp]
  simp only [hbusy, Bool.false_eq_true, if_false]
  rw [if_neg (by simp [inMode, hm]), if_neg hr]

theorem routeInvalidate_ends {p : CtlPort} {route : BitVec 10} {s : State} (hp : mayTake s p rtCmd 4 = true)
    (hm : s.mode.mode = .provision) (hb : s.routes.busy = false) (hr : route ≠ 0) :
    ∃ t, exec (.routeInvalidate p route) s = .next t ∧ (getRoute t route.toNat).valid = false ∧ t.routes.result = Status.done.code ∧
      (∀ r, r ≠ route.toNat → getRoute t r = getRoute s r) ∧ keepsBut [.routes] (tookWrite s p rtCmd 4) t := by
  refine ⟨_, exec_routeInvalidate hp hm hb hr, ?_, rfl, fun r hne => ?_,
    keepsBut.step (keeps_upRoutes _ _) (by decide) (keeps_routeClear _ _)⟩
  · rw [getRoute_upRoutes_of_table rfl, getRoute_routeClear_same]
  · rw [getRoute_upRoutes_of_table rfl, getRoute_routeClear_other _ hne, getRoute_tookWrite]

/-! ### ENABLE (R16) -/

theorem exec_enableWrite {p : CtlPort} {u : Fin 32} {s : State} (v : Bool) (hp : mayTake s p (uwCtrl u.val) 4 = true) :
    exec (.enableWrite p u v) s = .next (setEnable (tookWrite s p (uwCtrl u.val) 4) u.val v) := by
  show execEnableWrite p u v s = _
  rw [execEnableWrite, portSet_of_mayTake (wide := false) hp]
  rfl

theorem enableWrite_sets {p : CtlPort} {u : Fin 32} {s : State} (v : Bool) (hp : mayTake s p (uwCtrl u.val) 4 = true) :
    ∃ t, exec (.enableWrite p u v) s = .next t ∧ getUnit t u.val = { getUnit s u.val with enable := v } ∧
      (∀ k, k ≠ u.val → getUnit t k = getUnit s k) ∧ keepsBut [.units] (tookWrite s p (uwCtrl u.val) 4) t := by
  refine ⟨_, exec_enableWrite v hp, ?_, fun k hne => ?_, keeps_modUnit _ _ _⟩
  · rw [setEnable, getUnit_modUnit_same, getUnit_tookWrite]
  · rw [setEnable, getUnit_modUnit_other _ _ hne, getUnit_tookWrite]

/-! ### Leaves (R11) -/

theorem isLeaf_of_mem_leavesOf {u k : Nat} (h : k ∈ leavesOf u) : isLeaf k = true := by
  have hk := (List.mem_filter.mp h).2
  simp only [Bool.and_eq_true] at hk
  exact hk.1

/-- A leaf is the unit of a lane or of a bench. -/
theorem isLeaf_cases {k : Nat} (h : isLeaf k = true) : (∃ l, l < 16 ∧ k = laneUnit l) ∨ (∃ b, b < 8 ∧ k = benchUnit b) := by
  simp only [isLeaf, Bool.or_eq_true, Bool.and_eq_true, decide_eq_true_eq] at h
  rcases h with h | h
  · exact .inl ⟨k - 7, by omega, by rw [laneUnit]; omega⟩
  · exact .inr ⟨k - 24, by omega, by rw [benchUnit]; omega⟩

/-! ### QUARANTINE_SET (R15, R16) -/

/-- A leaf of a unit whose QUARANTINE is set: one that is quarantined already stays as it is. -/
def quarantineOnce (s : State) (k : Nat) : State := if (getUnit s k).quarantine then s else quarantineLeaf s k

theorem setQuarantine_true (s : State) (u : Nat) : setQuarantine s u true = forAll (leavesOf u) quarantineOnce s := rfl

theorem setQuarantine_false (s : State) (u : Nat) : setQuarantine s u false = forAll (leavesOf u) releaseLeaf s := rfl

theorem getUnit_quarantineLeaf (s : State) (k j : Nat) :
    getUnit (quarantineLeaf s k) j = getUnit (modUnit s k (fun x => { x with quarantine := true })) j := by
  unfold quarantineLeaf
  split <;> rfl

theorem quarantineOnce_same (s : State) (k : Nat) : (getUnit (quarantineOnce s k) k).quarantine = true := by
  unfold quarantineOnce
  split
  · assumption
  · rw [getUnit_quarantineLeaf, getUnit_modUnit_same]

theorem getUnit_quarantineOnce_other (s : State) {k j : Nat} (h : j ≠ k) : getUnit (quarantineOnce s k) j = getUnit s j := by
  unfold quarantineOnce
  split
  · rfl
  · rw [getUnit_quarantineLeaf, getUnit_modUnit_other _ _ h]

theorem quarantineOnce_keeps_quarantine {s : State} {k : Nat} (j : Nat) (h : (getUnit s k).quarantine = true) :
    (getUnit (quarantineOnce s j) k).quarantine = true := by
  by_cases hj : k = j
  · subst hj; exact quarantineOnce_same s k
  · rwa [getUnit_quarantineOnce_other s hj]

theorem keeps_quarantineOnce (s : State) (k : Nat) : keepsBut [.units, .lanes] s (quarantineOnce s k) :=
  keepsBut.ite (keepsBut.refl _ _) (keeps_quarantineLeaf s k)

/-- What the operation on each key of a list keeps, the whole list keeps. -/
theorem forAll_preserves_mem {P : State → Prop} {f : State → Nat → State} {l : List Nat} (keep : ∀ s, ∀ j ∈ l, P s → P (f s j))
    {s : State} (h : P s) : P (forAll l f s) := by
  induction l generalizing s with
  | nil => exact h
  | cons j l ih => exact ih (fun s k hk => keep s k (List.mem_cons_of_mem _ hk)) (keep s j List.mem_cons_self h)

/-- Operations on the keys of a list leave what each of them leaves. -/
theorem forAll_other {β : Type} {view : State → β} {f : State → Nat → State} {l : List Nat}
    (h : ∀ s, ∀ j ∈ l, view (f s j) = view s) (s : State) : view (forAll l f s) = view s :=
  forAll_preserves_mem (P := fun t => view t = view s) (fun t j hj ht => (h t j hj).trans ht) rfl

/-- What holds until the operation on `k`, which turns it into what every later one keeps. -/
theorem forAll_turns {P Q : State → Prop} {f : State → Nat → State} {k : Nat} {l : List Nat}
    (wait : ∀ s, ∀ j ∈ l, j ≠ k → P s → P (f s j)) (turn : ∀ s, P s → Q (f s k))
    (keep : ∀ s, ∀ j ∈ l, Q s → Q (f s j)) (hk : k ∈ l) {s : State} (h : P s) : Q (forAll l f s) := by
  induction l generalizing s with
  | nil => cases hk
  | cons j l ih =>
    have keep' : ∀ s, ∀ i ∈ l, Q s → Q (f s i) := fun s i hi => keep s i (List.mem_cons_of_mem _ hi)
    by_cases hj : j = k
    · subst hj
      exact forAll_preserves_mem keep' (turn s h)
    · exact ih (fun s i hi => wait s i (List.mem_cons_of_mem _ hi)) keep' ((List.mem_cons.mp hk).resolve_left (Ne.symm hj))
        (wait s j List.mem_cons_self hj h)

theorem exec_quarantineSet {p : CtlPort} {u : Fin 32} {s : State} (hp : mayTake s p (uwCtrl u.val) 4 = true) :
    exec (.quarantineSet p u) s = .next (writeQuarantine (tookWrite s p (uwCtrl u.val) 4) p u.val true) := by
  show execQuarantineSet p u s = _
  rw [execQuarantineSet, portSet_of_mayTake (wide := false) hp]
  rfl

theorem writeQuarantine_of_provision {s : State} (h : s.mode.mode = .provision) (p : CtlPort) (u : Nat) (v : Bool) :
    writeQuarantine s p u v = setQuarantine s u v := if_pos (by simp [stopWritable, inMode, h])

theorem quarantineSet_quarantines {p : CtlPort} {u : Fin 32} {s : State} (hp : mayTake s p (uwCtrl u.val) 4 = true)
    (hm : s.mode.mode = .provision) :
    ∃ t, exec (.quarantineSet p u) s = .next t ∧ (∀ k, k ∈ leavesOf u.val → (getUnit t k).quarantine = true) ∧
      (∀ k, k ∉ leavesOf u.val → getUnit t k = getUnit s k) ∧ keepsBut [.units, .lanes] (tookWrite s p (uwCtrl u.val) 4) t := by
  have hexec := exec_quarantineSet hp
  rw [writeQuarantine_of_provision (by rw [tookWrite_mode, hm]), setQuarantine_true] at hexec
  refine ⟨_, hexec, fun k hk => ?_, fun k hk => ?_, keepsBut.each keeps_quarantineOnce (keepsBut.refl _ _)⟩
  · exact forAll_establishes (P := fun t => (getUnit t k).quarantine = true) (fun s => quarantineOnce_same s k)
      (fun s j h => quarantineOnce_keeps_quarantine j h) hk _
  · rw [forAll_other (view := fun s => getUnit s k) (fun s j hj => getUnit_quarantineOnce_other s (fun h => hk (h ▸ hj))),
      getUnit_tookWrite]

/-- Outside Provision a write that would set QUARANTINE is refused and logged. -/
theorem quarantineSet_refused {p : CtlPort} {u : Fin 32} {s : State} (hp : mayTake s p (uwCtrl u.val) 4 = true)
    (hm : s.mode.mode ≠ .provision) (hq : quarRead s u.val = false) :
    ∃ t, exec (.quarantineSet p u) s = .next t ∧
      recordOffered s t 2 1 Status.accessFault.code [w32 (uwCtrl u.val + 2 ^ 24 * portBit p + 2 ^ 25),
        getHalf (w64 ((unitCtrlWord s u.val).toNat % 4 + 4)) false] ∧ keepsBut [.ledger] (tookWrite s p (uwCtrl u.val) 4) t := by
  have took := keeps_tookWrite s p (uwCtrl u.val) 4
  have hprod : producerOf (uwCtrl u.val) = 2 := by
    rw [producerOf, if_pos (by rw [uwCtrl]; omega)]
  have hwrite : writeQuarantine (tookWrite s p (uwCtrl u.val) 4) p u.val true =
      regAccess (tookWrite s p (uwCtrl u.val) 4) p 1 (uwCtrl u.val) false (w64 (quarWord s u.val true)) := by
    unfold writeQuarantine
    extract_lets word
    rw [if_neg (by simp [stopWritable, inMode, hm]), if_neg (by simp [took.quarRead_eq rfl, hq])]
    simp only [word, quarWord, took.unitCtrlWord_eq rfl]
  refine ⟨_, exec_quarantineSet hp, ?_, ?_⟩
  · rw [hwrite, regAccess, regLog, hprod, recordOffered]
    simp only [emit, emitFor, upLedger_ledger, took.ledger_eq rfl, took.cycle_eq rfl, quarWord]
    rfl
  · rw [hwrite]
    exact keeps_regAccess _ _ _ _ _ _

/-! ### QUARANTINE_RELEASE (R174, R252) -/

theorem releaseLeaf_of_not_quarantined {s : State} {k : Nat} (h : (getUnit s k).quarantine = false) : releaseLeaf s k = s := by
  simp [releaseLeaf, h]

/-- A lane as its release leaves it: its known-answer test starts where its train has power, and it has still to pass one. -/
def laneReleased (on : Bool) (x : LaneRec) : LaneRec := { x with kat := on, retest := true }

/-- A bench as its release leaves it. -/
def benchReleased (on : Bool) (x : BenchRec) : BenchRec := { x with kat := on }

/-- A unit as its release leaves it. -/
def unitReleased (x : UnitRec) : UnitRec := { x with quarantine := false }

theorem releaseLeaf_laneUnit {s : State} {l : Nat} (hl : l < 16) (h : (getUnit s (laneUnit l)).quarantine = true) :
    releaseLeaf s (laneUnit l) = modLane (modUnit s (laneUnit l) unitReleased) l (laneReleased (domOn s (trainOf l))) := by
  have hlt : laneUnit l < 24 := by rw [laneUnit]; omega
  have hsub : laneUnit l - 7 = l := by rw [laneUnit]; omega
  unfold releaseLeaf
  rw [if_neg (by simp [h])]
  extract_lets s1
  rw [if_pos hlt, hsub]
  rfl

theorem releaseLeaf_benchUnit {s : State} {b : Nat} (h : (getUnit s (benchUnit b)).quarantine = true) :
    releaseLeaf s (benchUnit b) = modBench (modUnit s (benchUnit b) unitReleased) b (benchReleased (domOn s 2)) := by
  have hge : ¬ benchUnit b < 24 := by rw [benchUnit]; omega
  have hsub : benchUnit b - 24 = b := by rw [benchUnit]; omega
  unfold releaseLeaf
  rw [if_neg (by simp [h])]
  extract_lets s1
  rw [if_neg hge, hsub]
  rfl

/-- What a release of a leaf does. -/
theorem releaseLeaf_cases {s : State} {k : Nat} (hk : isLeaf k = true) :
    ((getUnit s k).quarantine = false ∧ releaseLeaf s k = s) ∨
    (∃ l, k = laneUnit l ∧ releaseLeaf s k = modLane (modUnit s k unitReleased) l (laneReleased (domOn s (trainOf l)))) ∨
    (∃ b, k = benchUnit b ∧ 24 ≤ k ∧ releaseLeaf s k = modBench (modUnit s k unitReleased) b (benchReleased (domOn s 2))) := by
  cases hq : (getUnit s k).quarantine with
  | false => exact .inl ⟨rfl, releaseLeaf_of_not_quarantined hq⟩
  | true =>
    rcases isLeaf_cases hk with ⟨l, hl, rfl⟩ | ⟨b, _, rfl⟩
    · exact .inr (.inl ⟨l, rfl, releaseLeaf_laneUnit hl hq⟩)
    · exact .inr (.inr ⟨b, rfl, Nat.le_add_right _ _, releaseLeaf_benchUnit hq⟩)

theorem getUnit_releaseLeaf_same {s : State} {k : Nat} (hk : isLeaf k = true) :
    (getUnit (releaseLeaf s k) k).quarantine = false := by
  rcases releaseLeaf_cases (s := s) hk with ⟨hq, h⟩ | ⟨l, _, h⟩ | ⟨b, _, _, h⟩ <;> rw [h]
  · exact hq
  · exact congrArg UnitRec.quarantine (getUnit_modUnit_same s k unitReleased)
  · exact congrArg UnitRec.quarantine (getUnit_modUnit_same s k unitReleased)

theorem getUnit_releaseLeaf_other {s : State} {k j : Nat} (hk : isLeaf k = true) (hj : j ≠ k) :
    getUnit (releaseLeaf s k) j = getUnit s j := by
  rcases releaseLeaf_cases (s := s) hk with ⟨_, h⟩ | ⟨l, _, h⟩ | ⟨b, _, _, h⟩ <;> rw [h]
  · exact getUnit_modUnit_other s unitReleased hj
  · exact getUnit_modUnit_other s unitReleased hj

theorem getLane_releaseLeaf_other {s : State} {k l : Nat} (hk : isLeaf k = true) (hl : laneUnit l ≠ k) :
    getLane (releaseLeaf s k) l = getLane s l := by
  rcases releaseLeaf_cases (s := s) hk with ⟨_, h⟩ | ⟨m, rfl, h⟩ | ⟨b, _, _, h⟩ <;> rw [h]
  · exact getLane_modLane_other _ _ (fun hm => hl (hm ▸ rfl))
  · rfl

theorem getBench_releaseLeaf_other {s : State} {k b : Nat} (hk : isLeaf k = true) (hb : benchUnit b ≠ k) :
    getBench (releaseLeaf s k) b = getBench s b := by
  rcases releaseLeaf_cases (s := s) hk with ⟨_, h⟩ | ⟨m, _, h⟩ | ⟨c, rfl, _, h⟩ <;> rw [h]
  · rfl
  · exact getBench_modBench_other _ _ (fun hm => hb (hm ▸ rfl))

theorem domOn_releaseLeaf (s : State) (k d : Nat) : domOn (releaseLeaf s k) d = domOn s d := (keeps_releaseLeaf s k).domOn_eq rfl d

section
variable {s : State} {u : Nat}

theorem releaseLeaves_units {k : Nat} (hk : k ∈ leavesOf u) : (getUnit (forAll (leavesOf u) releaseLeaf s) k).quarantine = false := by
  refine forAll_turns (P := fun _ => True) (Q := fun t => (getUnit t k).quarantine = false) (fun _ _ _ _ _ => trivial)
    (fun s _ => getUnit_releaseLeaf_same (isLeaf_of_mem_leavesOf hk)) (fun s j hj h => ?_) hk trivial
  by_cases hkj : k = j
  · subst hkj; exact getUnit_releaseLeaf_same (isLeaf_of_mem_leavesOf hk)
  · rwa [getUnit_releaseLeaf_other (isLeaf_of_mem_leavesOf hj) hkj]

theorem releaseLeaves_other_units {k : Nat} (hk : k ∉ leavesOf u) :
    getUnit (forAll (leavesOf u) releaseLeaf s) k = getUnit s k :=
  forAll_other (view := fun s => getUnit s k)
    (fun _ _ hj => getUnit_releaseLeaf_other (isLeaf_of_mem_leavesOf hj) (fun h => hk (h ▸ hj))) s

/-- Every quarantined lane below the unit is released once. -/
theorem releaseLeaves_lanes {l : Nat} (hl : l < 16) (hk : laneUnit l ∈ leavesOf u) (hq : (getUnit s (laneUnit l)).quarantine = true) :
    getLane (forAll (leavesOf u) releaseLeaf s) l = laneReleased (domOn s (trainOf l)) (getLane s l) := by
  refine (forAll_turns
    (P := fun t => (getUnit t (laneUnit l)).quarantine = true ∧ getLane t l = getLane s l ∧ domOn t (trainOf l) = domOn s (trainOf l))
    (Q := fun t => (getUnit t (laneUnit l)).quarantine = false ∧ getLane t l = laneReleased (domOn s (trainOf l)) (getLane s l))
    (fun _ _ hj hne h => ?_) (fun t h => ?_) (fun _ j hj h => ?_) hk ⟨hq, rfl, rfl⟩).2
  · rwa [getUnit_releaseLeaf_other (isLeaf_of_mem_leavesOf hj) (Ne.symm hne),
      getLane_releaseLeaf_other (isLeaf_of_mem_leavesOf hj) (Ne.symm hne), domOn_releaseLeaf]
  · obtain ⟨hquar, hlane, hdom⟩ := h
    refine ⟨getUnit_releaseLeaf_same (isLeaf_of_mem_leavesOf hk), ?_⟩
    rw [releaseLeaf_laneUnit hl hquar, getLane_modLane_same, hdom, ← hlane]
    rfl
  · by_cases hne : laneUnit l = j
    · rwa [← hne, releaseLeaf_of_not_quarantined h.1]
    · rwa [getUnit_releaseLeaf_other (isLeaf_of_mem_leavesOf hj) hne, getLane_releaseLeaf_other (isLeaf_of_mem_leavesOf hj) hne]

/-- Every quarantined bench below the unit is released once. -/
theorem releaseLeaves_benches {b : Nat} (hk : benchUnit b ∈ leavesOf u) (hq : (getUnit s (benchUnit b)).quarantine = true) :
    getBench (forAll (leavesOf u) releaseLeaf s) b = benchReleased (domOn s 2) (getBench s b) := by
  refine (forAll_turns
    (P := fun t => (getUnit t (benchUnit b)).quarantine = true ∧ getBench t b = getBench s b ∧ domOn t 2 = domOn s 2)
    (Q := fun t => (getUnit t (benchUnit b)).quarantine = false ∧ getBench t b = benchReleased (domOn s 2) (getBench s b))
    (fun _ _ hj hne h => ?_) (fun t h => ?_) (fun _ j hj h => ?_) hk ⟨hq, rfl, rfl⟩).2
  · rwa [getUnit_releaseLeaf_other (isLeaf_of_mem_leavesOf hj) (Ne.symm hne),
      getBench_releaseLeaf_other (isLeaf_of_mem_leavesOf hj) (Ne.symm hne), domOn_releaseLeaf]
  · obtain ⟨hquar, hbench, hdom⟩ := h
    refine ⟨getUnit_releaseLeaf_same (isLeaf_of_mem_leavesOf hk), ?_⟩
    rw [releaseLeaf_benchUnit hquar, getBench_modBench_same, hdom, ← hbench]
    rfl
  · by_cases hne : benchUnit b = j
    · rwa [← hne, releaseLeaf_of_not_quarantined h.1]
    · rwa [getUnit_releaseLeaf_other (isLeaf_of_mem_leavesOf hj) hne, getBench_releaseLeaf_other (isLeaf_of_mem_leavesOf hj) hne]

end

theorem exec_quarantineRelease {p : CtlPort} {u : Fin 32} {s : State} (hp : mayTake s p (uwCtrl u.val) 4 = true)
    (hm : s.mode.mode = .provision) :
    exec (.quarantineRelease p u) s = .next (forAll (leavesOf u.val) releaseLeaf (tookWrite s p (uwCtrl u.val) 4)) := by
  show execQuarantineRelease p u s = _
  rw [execQuarantineRelease, portSet_of_mayTake (wide := false) hp]
  show Host.Outcome.next (writeQuarantine (tookWrite s p (uwCtrl u.val) 4) p u.val false) = _
  rw [writeQuarantine_of_provision (by rw [tookWrite_mode, hm]), setQuarantine_false]

theorem quarantineRelease_releases {p : CtlPort} {u : Fin 32} {s : State} (hp : mayTake s p (uwCtrl u.val) 4 = true)
    (hm : s.mode.mode = .provision) :
    ∃ t, exec (.quarantineRelease p u) s = .next t ∧ (∀ k, k ∈ leavesOf u.val → (getUnit t k).quarantine = false) ∧
      (∀ l, l < 16 → laneUnit l ∈ leavesOf u.val → (getUnit s (laneUnit l)).quarantine = true →
        getLane t l = { getLane s l with kat := domOn s (trainOf l), retest := true }) ∧
      (∀ b, b < 8 → benchUnit b ∈ leavesOf u.val → (getUnit s (benchUnit b)).quarantine = true →
        getBench t b = { getBench s b with kat := domOn s 2 }) ∧
      (∀ k, k ∉ leavesOf u.val → getUnit t k = getUnit s k) ∧
      keepsBut [.units, .lanes, .house] (tookWrite s p (uwCtrl u.val) 4) t := by
  have took := keeps_tookWrite s p (uwCtrl u.val) 4
  refine ⟨_, exec_quarantineRelease hp hm, fun k hk => releaseLeaves_units hk, fun l hl hk hq => ?_, fun b _ hk hq => ?_,
    fun k hk => ?_, keepsBut.each keeps_releaseLeaf (keepsBut.refl _ _)⟩
  · rw [releaseLeaves_lanes hl hk (by rwa [getUnit_tookWrite]), took.domOn_eq rfl, took.getLane_eq rfl, laneReleased]
  · rw [releaseLeaves_benches hk (by rwa [getUnit_tookWrite]), took.domOn_eq rfl, took.getBench_eq rfl, benchReleased]
  · rw [releaseLeaves_other_units hk, getUnit_tookWrite]

/-- Settles O12: the slot write, VALIDATE and its end, INVALIDATE; ENABLE, and QUARANTINE set, released, and refused outside Provision. -/
theorem routesAndUnitControls : Obligations.RoutesAndUnitControls := by
  unfold Obligations.RoutesAndUnitControls
  refine ⟨⟨?_, ?_, ?_, ?_⟩, ?_, ?_, ?_, ?_⟩
  · exact fun p route slot insn s hp hm hr => routeSlotWrite_lands insn hp hm hr
  · exact fun p route rlen s hp hm hb => routeValidate_starts route hp hm hb
  · exact fun s hb h1 h32 hr => validateComplete_ends hb h1 h32 hr
  · exact fun p route s hp hm hb hr => routeInvalidate_ends hp hm hb hr
  · exact fun p u v s hp => enableWrite_sets v hp
  · exact fun p u s hp hm => quarantineSet_quarantines hp hm
  · exact fun p u s hp hm => quarantineRelease_releases hp hm
  · exact fun p u s hp hm hq => quarantineSet_refused hp hm hq

end Sys2Proof.Machine
end

section
/-! SUPPORT. The instructions that a lane runs by itself (R62, R63, R75, R76, R107, R117, R118): how an instruction ends where a yoke's
copies agree, and the obligation on BRANCH, FENCE, EVENT, END and CMP. -/

namespace Sys2Proof.Machine

/-! ### The end of an instruction (R172) -/

@[simp] theorem progressDiffers_same (s : State) (l : Nat) : progressDiffers s l .same = false := by simp [progressDiffers]

@[simp] theorem itemDiffers_same (s : State) (l row : Nat) : itemDiffers s l .same row = false := by simp [itemDiffers]

/-- A job that its instruction has left as `y`, gone on to the next one. -/
def jobNext (y : Job) : Job :=
  { y with pos := y.pos + 1, wait := .nothing, kept := none, wrote := none, done := 0, source := [], stuck := 0 }

theorem complete_same (s : State) (l j : Nat) : complete s l j .same = modJob s j jobNext := by
  unfold complete
  rw [if_neg (by simp)]
  rfl

/-- An instruction that has left its job as `y`, and no other job changed, ends with the job gone on. -/
theorem ranTo_complete_same {s u : State} {j : Nat} {y : Job} (l : Nat) (hj : getJob u j = y)
    (ho : ∀ k, k ≠ j → getJob u k = getJob s k) : ranTo s (complete u l j .same) j y := by
  rw [complete_same]
  refine ⟨by rw [getJob_modJob_same, hj, jobNext], fun k hk => ?_⟩
  rw [getJob_modJob_other _ _ hk, ho k hk]

theorem keeps_complete_same (s : State) (l j : Nat) : keepsBut [.jobs] s (complete s l j .same) := by
  rw [complete_same]
  exact keeps_modJob _ _ _

/-- An instruction with no output to memory takes its new state and ends. -/
theorem runPure_ok_nil_same (s : State) (l j : Nat) (y : Job) :
    runPure s l j .same (.ok (y, [])) = complete (modJob s j (fun _ => y)) l j .same := by
  simp [runPure, goOn, outsLeft, commit, issueOuts]

theorem ranTo_modJob_complete_same (s : State) (l j : Nat) (f : Job → Job) :
    ranTo s (complete (modJob s j f) l j .same) j (f (getJob s j)) :=
  ranTo_complete_same l (getJob_modJob_same _ _ _) (fun _ hk => getJob_modJob_other _ _ hk)

theorem keeps_modJob_complete_same (s : State) (l j : Nat) (f : Job → Job) :
    keepsBut [.jobs] s (complete (modJob s j f) l j .same) :=
  keepsBut.step (keeps_complete_same _ _ _) (by decide) (keeps_modJob _ _ _)

/-! ### BRANCH (R75) -/

theorem branchJob_pos (x : Job) (i : W64) :
    (branchJob x i).pos = x.pos + (if branchTaken x.flags (wA i) (wB i % 4) then wImm i else 0) := by
  unfold branchJob
  split <;> split <;> simp [*]

/-- CLR clears the soft flags and the pending status. -/
theorem branchJob_of_clr {x : Job} {i : W64} (h : tb i 23 = true) :
    (branchJob x i).flags = flagsClear x.flags ∧ (branchJob x i).pend = .done := by
  simp [branchJob, h]

theorem branchJob_of_not_clr {x : Job} {i : W64} (h : tb i 23 = false) :
    (branchJob x i).flags = x.flags ∧ (branchJob x i).pend = x.pend := by
  simp [branchJob, h]

theorem exec_branch {l : Fin 16} {j : Nat} {i : W64} {s : State} (h : laneTask s l.val (isOp .branch) = some (j, i)) :
    exec (.branch l .same) s = .next (complete (modJob s j (fun x => branchJob x i)) l.val j .same) := by
  show execBranch l .same s = _
  simp only [execBranch, h]

theorem branch_runs {l : Fin 16} {j : Nat} {i : W64} {s : State} (h : laneTask s l.val (isOp .branch) = some (j, i)) :
    ∃ t, exec (.branch l .same) s = .next t ∧ ranTo s t j (branchJob (getJob s j) i) ∧
      (getJob t j).pos = (getJob s j).pos + 1 + (if branchTaken (getJob s j).flags (wA i) (wB i % 4) then wImm i else 0) ∧
      (tb i 23 = true → (getJob t j).pend = .done ∧ (getJob t j).flags.tf = false ∧ (getJob t j).flags.cf = false ∧
        (getJob t j).flags.sft = false ∧ (getJob t j).flags.hit = (getJob s j).flags.hit) ∧
      (tb i 23 = false → (getJob t j).flags = (getJob s j).flags ∧ (getJob t j).pend = (getJob s j).pend) ∧ keepsBut [.jobs] s t := by
  have ran := ranTo_modJob_complete_same s l.val j (fun x => branchJob x i)
  refine ⟨_, exec_branch h, ran, ?_, fun hclr => ?_, fun hclr => ?_, keeps_modJob_complete_same _ _ _ _⟩
  · rw [ran.1]
    show (branchJob (getJob s j) i).pos + 1 = _
    rw [branchJob_pos, Nat.add_right_comm]
  · obtain ⟨hflags, hpend⟩ := branchJob_of_clr (x := getJob s j) hclr
    rw [ran.1]
    exact ⟨hpend, by simp only [hflags]; exact ⟨rfl, rfl, rfl, rfl⟩⟩
  · rw [ran.1]
    exact branchJob_of_not_clr hclr

/-! ### FENCE and EVENT (R117, R118) -/

theorem exec_fence {l : Fin 16} {j : Nat} {i : W64} {s : State} (h : laneTask s l.val (isOp .fence) = some (j, i))
    (hw : writesDone s j = true) : exec (.fence l .same) s = .next (complete s l.val j .same) := by
  show execFence l .same s = _
  simp only [execFence, h, if_pos hw]

theorem fence_runs {l : Fin 16} {j : Nat} {i : W64} {s : State} (h : laneTask s l.val (isOp .fence) = some (j, i))
    (hw : writesDone s j = true) :
    ∃ t, exec (.fence l .same) s = .next t ∧ ranTo s t j (getJob s j) ∧ keepsBut [.jobs] s t :=
  ⟨_, exec_fence h hw, ranTo_complete_same l.val rfl (fun _ _ => rfl), keeps_complete_same _ _ _⟩

theorem exec_event {l : Fin 16} {j : Nat} {i : W64} {s : State} (h : laneTask s l.val (isOp .event) = some (j, i))
    (hw : writesDone s j = true) :
    exec (.event l .same) s = .next (complete (laneEvent s (immF i 0 9)) l.val j .same) := by
  show execEvent l .same s = _
  simp [execEvent, h, hw]

theorem event_runs {l : Fin 16} {j : Nat} {i : W64} {s : State} (h : laneTask s l.val (isOp .event) = some (j, i))
    (hw : writesDone s j = true) :
    ∃ t, exec (.event l .same) s = .next t ∧ ranTo s t j (getJob s j) ∧
      tget 0 t.relay.laneAdds (immF i 0 9) = tget 0 s.relay.laneAdds (immF i 0 9) + 1 ∧
      (∀ k, k ≠ immF i 0 9 → tget 0 t.relay.laneAdds k = tget 0 s.relay.laneAdds k) ∧ keepsBut [.jobs, .relay] s t := by
  have keep := keeps_complete_same (laneEvent s (immF i 0 9)) l.val j
  refine ⟨_, exec_event h hw, ranTo_complete_same l.val rfl (fun _ _ => rfl), ?_, fun k hk => ?_,
    keepsBut.step keep (by decide) ((keeps_upRelay _ _).sub (by decide))⟩
  · rw [keep.relay_eq rfl]
    exact tget_tmod_same 0 s.relay.laneAdds _ (· + 1)
  · rw [keep.relay_eq rfl]
    exact tget_tmod_other 0 s.relay.laneAdds (· + 1) hk

/-! ### END (R76) -/

/-- A job at its end, with its pending status. -/
def jobOver (x : Job) : Job := { x with isOver := true, status := x.pend }

theorem exec_endI {l : Fin 16} {j : Nat} {s : State} (hr : (getLane s l.val).run = some j) (ho : (getJob s j).isOver = false)
    (hp : (getLane s l.val).preempt = false) (hh : laneHeld s l.val = false) (hm : jobMoves s l.val j = true)
    (he : progLen s (getJob s j) ≤ (getJob s j).pos ∨ isOp .endW (instrAt s (getJob s j) (getJob s j).pos) = true) :
    exec (.endI l .same) s = .next (modJob s j jobOver) := by
  show execEndI l .same s = _
  simp only [execEndI, hr]
  rw [if_neg (by simp [ho, hp, hh, hm]), if_pos (by simpa using he), if_neg (by simp)]
  rfl

theorem endI_ends {l : Fin 16} {j : Nat} {s : State} (hr : (getLane s l.val).run = some j) (ho : (getJob s j).isOver = false)
    (hp : (getLane s l.val).preempt = false) (hh : laneHeld s l.val = false) (hm : jobMoves s l.val j = true)
    (he : progLen s (getJob s j) ≤ (getJob s j).pos ∨ isOp .endW (instrAt s (getJob s j) (getJob s j).pos) = true) :
    ∃ t, exec (.endI l .same) s = .next t ∧ getJob t j = { getJob s j with isOver := true, status := (getJob s j).pend } ∧
      (∀ k, k ≠ j → getJob t k = getJob s k) ∧ keepsBut [.jobs] s t :=
  ⟨_, exec_endI hr ho hp hh hm he, getJob_modJob_same _ _ _, fun _ hk => getJob_modJob_other _ _ hk, keeps_modJob _ _ _⟩

/-! ### CMP (R107) -/

/-- A job that its CMP has left as `z`, with the flags and the pending status that the comparison sets. -/
def compared (z : Job) (eq : Bool) : Job :=
  { z with flags := (flagsCompare z.flags z.pend eq).1, pend := (flagsCompare z.flags z.pend eq).2 }

theorem compared_equal (z : Job) : compared z true = { z with flags := { z.flags with cf := false } } := by
  simp [compared, flagsCompare]

theorem compared_first_difference {z : Job} (h : z.pend = .done) :
    compared z false = { z with flags := { z.flags with cf := true, sft := true }, pend := .compareFalse } := by
  simp [compared, flagsCompare, softPend, h]

theorem compared_later_difference {z : Job} (h : z.pend ≠ .done) :
    compared z false = { z with flags := { z.flags with cf := true } } := by
  simp [compared, flagsCompare, softPend, h]

theorem exec_cmp {l : Fin 16} {j : Nat} {i : W64} {p q : List Byte} {z : Job} {s : State}
    (h : laneTask s l.val (isOp .cmp) = some (j, i)) (hi : issueOk (getJob s j) i = true)
    (hc : cmpIn (getJob s j) i = .ok (p, q, z)) :
    exec (.cmp l .same) s = .next (complete (modJob s j (fun _ => compared z (decide (p = q)))) l.val j .same) := by
  have hrun : cmpRun (getJob s j) i = .ok (compared z (decide (p = q)), []) := by
    simp only [cmpRun, hc, bindRes, compared]
  show execCmp l .same s = _
  simp only [execCmp, h]
  rw [if_neg (by simp [hi]), hrun, runPure_ok_nil_same]

theorem cmp_runs {l : Fin 16} {j : Nat} {i : W64} {p q : List Byte} {z : Job} {s : State}
    (h : laneTask s l.val (isOp .cmp) = some (j, i)) (hi : issueOk (getJob s j) i = true)
    (hc : cmpIn (getJob s j) i = .ok (p, q, z)) :
    ∃ t, exec (.cmp l .same) s = .next t ∧
      (p = q → ranTo s t j { z with flags := { z.flags with cf := false } }) ∧
      (p ≠ q → z.pend = .done →
        ranTo s t j { z with flags := { z.flags with cf := true, sft := true }, pend := .compareFalse }) ∧
      (p ≠ q → z.pend ≠ .done → ranTo s t j { z with flags := { z.flags with cf := true } }) ∧ keepsBut [.jobs] s t := by
  have ran : ∀ {y}, compared z (decide (p = q)) = y →
      ranTo s (complete (modJob s j (fun _ => compared z (decide (p = q)))) l.val j .same) j y := by
    rintro _ rfl
    exact ranTo_modJob_complete_same s l.val j _
  refine ⟨_, exec_cmp h hi hc, fun heq => ran ?_, fun hne hpend => ran ?_, fun hne hpend => ran ?_,
    keeps_modJob_complete_same _ _ _ _⟩
  · rw [decide_eq_true heq, compared_equal]
  · rw [decide_eq_false hne, compared_first_difference hpend]
  · rw [decide_eq_false hne, compared_later_difference hpend]

/-- Settles O35: BRANCH, FENCE, EVENT, END and CMP, one clause each. -/
theorem controlFlowRuns : Obligations.ControlFlowRuns := by
  unfold Obligations.ControlFlowRuns
  refine ⟨?_, ?_, ?_, ?_, ?_⟩
  · exact fun l j i s h => branch_runs h
  · exact fun l j i s h hw => fence_runs h hw
  · exact fun l j i s h hw => event_runs h hw
  · exact fun l j s hr ho hp hh hm he => endI_ends hr ho hp hh hm he
  · exact fun l j i p q z s h hi hc => cmp_runs h hi hc

end Sys2Proof.Machine
end

section
/-! SUPPORT. KEY (R61, R98, R190, R196, R213 to R217, R238, R267): what releasing and loading a key register leaves in the jobs and in the
slots, what a lookup answers, how a fill begins and how a long bale goes into its engine, and the obligation on KEY. -/

namespace Sys2Proof.Machine

/-! ### Reading through operations -/

theorem keepsBut.getSlot_eq {W : List Part} {s t : State} (h : keepsBut W s t) (hp : W.contains .serai = false) (k : Nat) :
    getSlot t k = getSlot s k := by
  rw [getSlot, h.serai_eq hp, getSlot]

theorem keepsBut.slotKey_eq {W : List Part} {s t : State} (h : keepsBut W s t) (hp : W.contains .serai = false) (k : Nat) :
    slotKey t k = slotKey s k := by
  rw [slotKey, maskOf, h.getSlot_eq hp, h.serai_eq hp, slotKey, maskOf]

theorem keepsBut.keyRefOf_eq {W : List Part} {s t : State} (h : keepsBut W s t) (hp : W.contains .serai = false) (k : Nat) :
    keyRefOf t k = keyRefOf s k := by
  simp only [keyRefOf, h.getSlot_eq hp]

theorem keepsBut.keyReg_eq {W : List Part} {s t : State} (h : keepsBut W s t) (hp : W.contains .jobs = false) (j n : Nat) :
    keyReg t j n = keyReg s j n := by
  rw [keyReg, h.getJob_eq hp, keyReg]

theorem keepsBut.getFill_eq {W : List Part} {s t : State} (h : keepsBut W s t) (hp : W.contains .mint = false) (k : Nat) :
    getFill t k = getFill s k := by
  rw [getFill, h.mint_eq hp, getFill]

theorem keepsBut.getCtx_eq {W : List Part} {s t : State} (h : keepsBut W s t) (hp : W.contains .scales = false) (k : Nat) :
    getCtx t k = getCtx s k := by
  rw [getCtx, h.scales_eq hp, getCtx]

theorem keepsBut.ownerHeld_eq {W : List Part} {s t : State} (h : keepsBut W s t) (hp : W.contains .watch = false) :
    ownerHeld t = ownerHeld s := by
  rw [ownerHeld, h.watch_eq hp, ownerHeld]

theorem keepsBut.laneWindowOk_eq {W : List Part} {s t : State} (h : keepsBut W s t) (hp : W.contains .almanac = false) (nb na : Nat) :
    laneWindowOk t nb na = laneWindowOk s nb na := by
  rw [laneWindowOk, h.almanac_eq hp, laneWindowOk]

/-! ### Key registers (R61) -/

/-- From `s` to `t` the jobs have lost key registers at most. -/
def keysLost (s t : State) : Prop :=
  ∀ m, ∃ ks, getJob t m = { getJob s m with keys := ks } ∧ ∀ n, keyReg s m n = none → tget none ks n = none

theorem keysLost.refl (s : State) : keysLost s s := fun m => ⟨(getJob s m).keys, rfl, fun _ h => h⟩

theorem keysLost.keyReg_none {s t : State} (h : keysLost s t) {m n : Nat} (hn : keyReg s m n = none) : keyReg t m n = none := by
  obtain ⟨ks, hjob, hks⟩ := h m
  rw [keyReg, hjob]
  exact hks n hn

theorem keysLost.trans {s t u : State} (h : keysLost s t) (k : keysLost t u) : keysLost s u := by
  intro m
  obtain ⟨ks, hjob, _⟩ := h m
  obtain ⟨ks', hjob', hks'⟩ := k m
  exact ⟨ks', by rw [hjob', hjob], fun n hn => hks' n (h.keyReg_none hn)⟩

/-- What leaves the jobs takes no key register. -/
theorem keysLost.of_keeps {W : List Part} {s t : State} (h : keepsBut W s t) (hp : W.contains .jobs = false) : keysLost s t := by
  intro m
  rw [h.getJob_eq hp]
  exact keysLost.refl s m

theorem keysLost.forAll {f : State → Nat → State} (hf : ∀ s k, keysLost s (f s k)) (l : List Nat) (s : State) :
    keysLost s (forAll l f s) :=
  forAll_preserves (P := fun t => keysLost s t) (fun t k h => h.trans (hf t k)) l (keysLost.refl s)

theorem releaseKey_of_empty {s : State} {j n : Nat} (h : keyReg s j n = none) : releaseKey s j n = s := by
  simp [releaseKey, h]

theorem getJob_releaseKey_other (s : State) {j m : Nat} (n : Nat) (h : m ≠ j) : getJob (releaseKey s j n) m = getJob s m := by
  unfold releaseKey
  split
  · rw [getJob_modJob_other _ _ h, (keeps_returnLease _ _).getJob_eq rfl]
  · rfl

theorem getJob_releaseKey_same (s : State) (j n : Nat) :
    getJob (releaseKey s j n) j = { getJob s j with keys := tset none (getJob s j).keys n none } ∨
      (keyReg s j n = none ∧ getJob (releaseKey s j n) j = getJob s j) := by
  unfold releaseKey
  split
  · rw [getJob_modJob_same, (keeps_returnLease _ _).getJob_eq rfl]
    exact .inl rfl
  · exact .inr ⟨‹_›, rfl⟩

@[simp] theorem keyReg_releaseKey_same (s : State) (j n : Nat) : keyReg (releaseKey s j n) j n = none := by
  rcases getJob_releaseKey_same s j n with h | ⟨hn, h⟩ <;> rw [keyReg, h]
  · exact tget_tset_same none _ n none
  · exact hn

theorem releaseKey_keysLost (s : State) (j n : Nat) : keysLost s (releaseKey s j n) := by
  intro m
  by_cases hm : m = j
  · subst hm
    rcases getJob_releaseKey_same s m n with h | ⟨_, h⟩ <;> rw [h]
    · refine ⟨_, rfl, fun k hk => ?_⟩
      rw [tget_tset]
      split
      · rfl
      · exact hk
    · exact keysLost.refl s m
  · rw [getJob_releaseKey_other s n hm]
    exact keysLost.refl s m

@[simp] theorem jobTenant_releaseKey (s : State) (j n m : Nat) : jobTenant (releaseKey s j n) m = jobTenant s m := by
  obtain ⟨ks, hjob, _⟩ := releaseKey_keysLost s j n m
  rw [jobTenant, (keeps_releaseKey s j n).getRing_eq rfl, hjob, jobTenant]

/-- A job whose key register `n` is loaded with `r`. -/
def keyLoaded (n : Nat) (r : KeyRef) (x : Job) : Job := { x with keys := tset none x.keys n (some r) }

theorem loadKey_of_empty {s : State} {j n : Nat} (h : keyReg s j n = none) (slot : Nat) :
    loadKey s j n slot = modJob s j (keyLoaded n (keyRefOf s slot)) := by
  rw [loadKey, releaseKey_of_empty h]
  rfl

/-! ### Leases (R217) -/

theorem getSlot_takeLease_same (s : State) (k : Nat) :
    getSlot (takeLease s k) k = { getSlot s k with leases := (getSlot s k).leases + 1 } :=
  getSlot_modSlot_same s k (fun r => { r with leases := r.leases + 1 })

theorem keyRefOf_takeLease (s : State) (k : Nat) : keyRefOf (takeLease s k) k = keyRefOf s k := by
  simp only [keyRefOf, getSlot_takeLease_same]

theorem slotKey_takeLease_same (s : State) (k : Nat) : slotKey (takeLease s k) k = slotKey s k := by
  simp only [slotKey, getSlot_takeLease_same]
  rfl

/-- A job whose KEY has set HIT to `hit`. -/
def hitSet (hit : Bool) (x : Job) : Job := { x with flags := { x.flags with hit := hit } }

/-- A KEY that has taken its slot ends: its register holds `r`, HIT says how it came, and the job goes on. -/
def keyDone (s : State) (j n : Nat) (r : KeyRef) (hit : Bool) : State :=
  modJob (modJob (modJob s j (keyLoaded n r)) j (hitSet hit)) j jobNext

theorem keeps_keyDone (s : State) (j n : Nat) (r : KeyRef) (hit : Bool) : keepsBut [.jobs] s (keyDone s j n r hit) :=
  keepsBut.step (keeps_modJob _ _ _) (by decide) (keepsBut.step (keeps_modJob _ _ _) (by decide) (keeps_modJob _ _ _))

theorem getJob_keyDone_same (s : State) (j n : Nat) (r : KeyRef) (hit : Bool) :
    getJob (keyDone s j n r hit) j = jobNext (hitSet hit (keyLoaded n r (getJob s j))) := by
  rw [keyDone, getJob_modJob_same, getJob_modJob_same, getJob_modJob_same]

theorem getJob_keyDone_other (s : State) {j m : Nat} (n : Nat) (r : KeyRef) (hit : Bool) (h : m ≠ j) :
    getJob (keyDone s j n r hit) m = getJob s m := by
  rw [keyDone, getJob_modJob_other _ _ h, getJob_modJob_other _ _ h, getJob_modJob_other _ _ h]

theorem keyReg_keyDone (s : State) (j n : Nat) (r : KeyRef) (hit : Bool) : keyReg (keyDone s j n r hit) j n = some r := by
  rw [keyReg, getJob_keyDone_same]
  exact tget_tset_same none _ n (some r)

/-- A KEY that hits, of an empty register. -/
theorem complete_keyTake_of_empty {s : State} {j n : Nat} (h : keyReg s j n = none) (l k : Nat) :
    complete (keyTake s j n k) l j .same = keyDone (takeLease s k) j n (keyRefOf s k) true := by
  rw [complete_same, keyTake, releaseKey_of_empty h,
    loadKey_of_empty (by rwa [(keeps_takeLease s k).keyReg_eq rfl]), keyRefOf_takeLease]
  rfl

/-! ### Lookups (R182, R213) -/

theorem returnLent_mint (s : State) (j : Nat) : ∃ l, (returnLent s j).mint = { s.mint with lent := l } := by
  unfold returnLent
  split
  · rw [upMint_mint, (keeps_returnLease _ _).mint_eq rfl]
    exact ⟨_, rfl⟩
  · exact ⟨_, rfl⟩

/-- A tenant record that is there: its use moves leases, and of the Mint no more than what it has lent. -/
theorem recordUse_here {s sr : State} {j : Nat} {bs : List Byte} (h : recordUse s j = .here bs sr) :
    keepsBut [.serai, .mint] s sr ∧ ∃ l, sr.mint = { s.mint with lent := l } := by
  unfold recordUse at h
  extract_lets t at h
  split at h
  · cases h
    exact ⟨keepsBut.refl _ _, _, rfl⟩
  · split at h
    · split at h
      · cases h
      · cases h
        exact ⟨keeps_returnLent _ _, returnLent_mint _ _⟩
    · split at h
      · cases h
      · cases h
        exact ⟨keepsBut.step (keeps_briefLease _) (by decide) ((keeps_upSerai _ _).sub (by decide)), _, rfl⟩
      · cases h

/-- A lookup that hits counts it, and changes nothing else. -/
theorem lookupKey_hit {s s' : State} {t : BitVec 12} {idx k : Nat} {e : W32} (h : lookupKey s t idx e = (.hit k, s')) :
    s' = upSerai s (fun x => { x with hits := x.hits + 1 }) := by
  unfold lookupKey at h
  extract_lets cur at h
  split at h
  · cases h
  · split at h
    · cases h; rfl
    · cases h
  · cases h

/-! ### The start of KEY (R61, R98) -/

/-- Job `j` on lane `l` stands at the KEY `i`, which waits for nothing and passes the checks at issue, and an owner secret is held. -/
structure KeyReady (s : State) (l j : Nat) (i : W64) : Prop where
  task : laneTask s l (fun i => isOp .key i && wArg i ≠ 1) = some (j, i)
  idle : (getJob s j).wait = .nothing
  issue : issueOk (getJob s j) i = true
  flags : wArg i ≠ 0xFF
  owner : ownerHeld s = true

/-- The state in which a KEY looks up its bale: what its register held is released. -/
def keyReleased (s : State) (j : Nat) (i : W64) : State := releaseKey s j (keyNum (wA i))

theorem getJob_keyReleased_same (s : State) (j : Nat) (i : W64) :
    ∃ ks, getJob (keyReleased s j i) j = { getJob s j with keys := ks } := by
  obtain ⟨ks, hjob, _⟩ := releaseKey_keysLost s j (keyNum (wA i)) j
  exact ⟨ks, hjob⟩

theorem getJob_keyReleased_other (s : State) {j m : Nat} (i : W64) (h : m ≠ j) : getJob (keyReleased s j i) m = getJob s m :=
  getJob_releaseKey_other s _ h

@[simp] theorem keyReg_keyReleased (s : State) (j : Nat) (i : W64) : keyReg (keyReleased s j i) j (keyNum (wA i)) = none :=
  keyReg_releaseKey_same _ _ _

@[simp] theorem jobTenant_keyReleased (s : State) (j : Nat) (i : W64) (m : Nat) : jobTenant (keyReleased s j i) m = jobTenant s m :=
  jobTenant_releaseKey _ _ _ _

theorem keeps_keyReleased (s : State) (j : Nat) (i : W64) : keepsBut [.jobs, .serai] s (keyReleased s j i) := keeps_releaseKey _ _ _

theorem keyReleased_owner {s : State} {l j : Nat} {i : W64} (h : KeyReady s l j i) : ownerHeld (keyReleased s j i) = true := by
  rw [(keeps_keyReleased s j i).ownerHeld_eq rfl, h.owner]

theorem exec_key {s : State} {l : Fin 16} {j : Nat} {i : W64} (h : KeyReady s l.val j i) :
    exec (.key l .same) s = .next (if wB i = 0 then keyShort (keyReleased s j i) l.val j i .same
      else keyLong (keyReleased s j i) l.val j i .same) := by
  show execKey l .same s = _
  simp only [execKey, h.task]
  rw [if_neg (by simp [h.idle]), if_neg (by simp [h.issue]), if_neg h.flags]
  split <;> rfl

/-! ### KEY of a short bale that hits (R213, R217) -/

theorem keyShort_of_hit {s sr s' : State} {l j k : Nat} {i : W64} {bs : List Byte} (ho : ownerHeld s = true)
    (hr : recordUse s j = .here bs sr) (hl : lookupKey sr (jobTenant s j) (wIndex i) (parseRecord bs).epoch = (.hit k, s'))
    (hw : laneWindowOk s' 0 (getSlot s' k).notAfter.toNat = true) :
    keyShort s l j i .same = complete (keyTake s' j (keyNum (wA i)) k) l j .same := by
  simp [keyShort, ho, hr, hl, hw]

theorem key_hits {l : Fin 16} {j k : Nat} {i : W64} {bs : List Byte} {sr s' s : State} (h : KeyReady s l.val j i) (hb : wB i = 0)
    (hr : recordUse (keyReleased s j i) j = .here bs sr)
    (hl : lookupKey sr (jobTenant s j) (wIndex i) (parseRecord bs).epoch = (.hit k, s'))
    (hw : laneWindowOk s 0 (getSlot s' k).notAfter.toNat = true) :
    ∃ t, exec (.key l .same) s = .next t ∧ keyReg t j (keyNum (wA i)) = some (keyRefOf s' k) ∧
      (getJob t j).pos = (getJob s j).pos + 1 ∧ (getJob t j).flags = { (getJob s j).flags with hit := true } ∧
      (getSlot t k).leases = (getSlot s' k).leases + 1 ∧ slotKey t k = slotKey s' k ∧
      (∀ m, m ≠ j → getJob t m = getJob s m) ∧ keepsBut [.jobs, .serai, .mint] s t := by
  have released := keeps_keyReleased s j i
  have looked : keepsBut [.serai, .mint] (keyReleased s j i) s' := by
    rw [lookupKey_hit hl]
    exact keepsBut.step (keeps_upSerai _ _) (by decide) (recordUse_here hr).1
  have toHit : keepsBut [.jobs, .serai, .mint] s s' := keepsBut.step looked (by decide) (released.sub (by decide))
  have hempty : keyReg s' j (keyNum (wA i)) = none := by
    rw [looked.keyReg_eq rfl, keyReg_keyReleased]
  have hexec := exec_key h
  rw [if_pos hb, keyShort_of_hit (keyReleased_owner h) hr (by rw [jobTenant_keyReleased, hl])
    (by rw [toHit.laneWindowOk_eq rfl, hw]), complete_keyTake_of_empty hempty] at hexec
  have done := keeps_keyDone (takeLease s' k) j (keyNum (wA i)) (keyRefOf s' k) true
  have lease := keeps_takeLease s' k
  obtain ⟨ks, hjob⟩ := getJob_keyReleased_same s j i
  have hjob' : getJob (takeLease s' k) j = { getJob s j with keys := ks } := by
    rw [lease.getJob_eq rfl, looked.getJob_eq rfl, hjob]
  refine ⟨_, hexec, keyReg_keyDone _ _ _ _ _, ?_, ?_, ?_, ?_, fun m hm => ?_, ?_⟩
  · rw [getJob_keyDone_same, hjob']
    rfl
  · rw [getJob_keyDone_same, hjob']
    rfl
  · rw [done.getSlot_eq rfl, getSlot_takeLease_same]
  · rw [done.slotKey_eq rfl, slotKey_takeLease_same]
  · rw [getJob_keyDone_other _ _ _ _ hm, lease.getJob_eq rfl, looked.getJob_eq rfl, getJob_keyReleased_other s i hm]
  · exact keepsBut.step done (by decide) (keepsBut.step lease (by decide) toHit)

theorem keepsBut.recordAddr_eq {W : List Part} {s t : State} (h : keepsBut W s t) (hm : W.contains .mint = false)
    (hw : W.contains .watch = false) (n : Nat) : recordAddr t n = recordAddr s n := by
  rw [recordAddr, h.mint_eq hm, h.watch_eq hw, recordAddr]

/-! ### The start of a fill (R214) -/

theorem wIndex_lt (i : W64) : wIndex i < 2 ^ 24 := Nat.mod_lt _ (by decide)

theorem findFill_congr {s t : State} (h : t.mint.fills = s.mint.fills) (u : BitVec 12) (idx : BitVec 24) (b : Bool) :
    findFill t u idx b = findFill s u idx b := by
  rw [findFill, h, findFill]

/-- Job `j` waits for a new fill, which begins as `r`. -/
def fillBegun (s : State) (j : Nat) (r : FillRec) : State := joinFill (newFill s r).2 j s.mint.nextFill .same

theorem keeps_fillBegun (s : State) (j : Nat) (r : FillRec) : keepsBut [.jobs, .mint] s (fillBegun s j r) :=
  keepsBut.step (keeps_joinFill _ _ _ _) (by decide) ((keeps_newFill s r).sub (by decide))

theorem getFill_fillBegun (s : State) (j : Nat) (r : FillRec) :
    getFill (fillBegun s j r) s.mint.nextFill = { r with joined := r.joined ++ [j] } := by
  have hnew : getFill (newFill s r).2 s.mint.nextFill = r := tget_tset_same _ _ _ _
  rw [fillBegun, joinFill, (keeps_modJob _ _ _).getFill_eq rfl, getFill_modFill_same, hnew]

theorem getJob_fillBegun_same (s : State) (j : Nat) (r : FillRec) :
    getJob (fillBegun s j r) j = { getJob s j with wait := .mint s.mint.nextFill, cmp := .same } := by
  rw [fillBegun, joinFill, getJob_modJob_same, (keeps_modFill _ _ _).getJob_eq rfl, (keeps_newFill _ _).getJob_eq rfl]

theorem getJob_fillBegun_other (s : State) {j m : Nat} (r : FillRec) (h : m ≠ j) : getJob (fillBegun s j r) m = getJob s m := by
  rw [fillBegun, joinFill, getJob_modJob_other _ _ h, (keeps_modFill _ _ _).getJob_eq rfl, (keeps_newFill _ _).getJob_eq rfl]

@[simp] theorem fillBegun_tallyAddr (s : State) (j : Nat) (r : FillRec) : (fillBegun s j r).mint.tallyAddr = s.mint.tallyAddr := rfl

theorem recordAddr_fillBegun (s : State) (j : Nat) (r : FillRec) (n : Nat) : recordAddr (fillBegun s j r) n = recordAddr s n := by
  rw [recordAddr, fillBegun_tallyAddr, (keeps_fillBegun s j r).watch_eq rfl, recordAddr]

/-- A fill that reads from `addr`. -/
def fillAt (addr : W64) (x : FillRec) : FillRec := { x with addr := addr }

/-- After a KEY of job `j` has asked for a fill in state `s`: the fill stands as `f`, and the job waits for it with its register empty. -/
structure FillAsked (s t : State) (j n : Nat) (f : FillRec) : Prop where
  wait : (getJob t j).wait = .mint s.mint.nextFill
  pos : (getJob t j).pos = (getJob s j).pos
  reg : keyReg t j n = none
  next : t.mint.nextFill = s.mint.nextFill + 1
  fill : getFill t s.mint.nextFill = f
  others : ∀ m, m ≠ j → getJob t m = getJob s m

/-- A fill that has begun and reads from `addr`. -/
theorem FillAsked.of_mint {u t : State} {j n : Nat} {r : FillRec} {addr : W64} (hempty : keyReg u j n = none)
    (hkeep : keepsBut [.mint, .ai, .ration] (fillBegun u j r) t)
    (hmint : t.mint = (modFill (fillBegun u j r) u.mint.nextFill (fillAt addr)).mint) :
    FillAsked u t j n { r with joined := r.joined ++ [j], addr := addr } := by
  have hjob := getJob_fillBegun_same u j r
  refine ⟨?_, ?_, ?_, ?_, ?_, fun m hm => ?_⟩
  · rw [hkeep.getJob_eq rfl, hjob]
  · rw [hkeep.getJob_eq rfl, hjob]
  · rw [keyReg, hkeep.getJob_eq rfl, hjob]
    exact hempty
  · rw [hmint]
    rfl
  · rw [getFill, hmint]
    exact (getFill_modFill_same (fillBegun u j r) _ (fillAt addr)).trans (by rw [getFill_fillBegun, fillAt])
  · rw [hkeep.getJob_eq rfl, getJob_fillBegun_other _ _ hm]

/-- The read of the fill's tenant record follows (R182). -/
theorem FillAsked.of_readRecord {u : State} {j n : Nat} {r : FillRec} (hempty : keyReg u j n = none) :
    FillAsked u (readRecord (fillBegun u j r) u.mint.nextFill) j n
      { r with joined := r.joined ++ [j], addr := recordAddr u r.tenant.toNat } := by
  have hread : (readRecord (fillBegun u j r) u.mint.nextFill).mint =
      (modFill (fillBegun u j r) u.mint.nextFill (fillAt (recordAddr u r.tenant.toNat))).mint := by
    unfold readRecord
    extract_lets n v
    have hn : n = r.tenant.toNat := by simp only [n, getFill_fillBegun]
    rw [(keeps_issueAccess _ _ _ _ _ _).mint_eq rfl]
    simp only [v, hn, recordAddr_fillBegun]
    rfl
  exact .of_mint hempty (keeps_readRecord _ _) hread

/-- The read of the fill's key table entry follows, where its memory is in reach (R187, R367). -/
theorem FillAsked.of_readBale {u : State} {j n : Nat} {r : FillRec} (hempty : keyReg u j n = none)
    (hreach : (parseRecord r.record).spaceLocal = true ∨ u.pins.linkLost = false) :
    FillAsked u (readBale (fillBegun u j r) u.mint.nextFill) j n
      { r with joined := r.joined ++ [j], addr := (parseRecord r.record).base + w64 (128 * r.index.toNat) } := by
  have hlink : (fillBegun u j r).pins.linkLost = u.pins.linkLost := by rw [(keeps_fillBegun u j r).pins_eq rfl]
  have hread : (readBale (fillBegun u j r) u.mint.nextFill).mint = (modFill (fillBegun u j r) u.mint.nextFill
      (fillAt ((parseRecord r.record).base + w64 (128 * r.index.toNat)))).mint := by
    unfold readBale
    extract_lets x q addr
    have hx : x = { r with joined := r.joined ++ [j] } := getFill_fillBegun u j r
    rw [if_neg (by rcases hreach with h | h <;> simp [q, hx, hlink, h]), (keeps_issueAccess _ _ _ _ _ _).mint_eq rfl]
    simp only [addr, q, hx]
    rfl
  exact .of_mint hempty (keeps_readBale _ _) hread

/-- What was looked up before the fill was asked for leaves the jobs but for their registers, and the number of the next fill. -/
theorem FillAsked.from {s u t : State} {j n : Nat} {f : FillRec} (h : FillAsked u t j n f) (hnext : u.mint.nextFill = s.mint.nextFill)
    (hpos : (getJob u j).pos = (getJob s j).pos) (hothers : ∀ m, m ≠ j → getJob u m = getJob s m) : FillAsked s t j n f where
  wait := by rw [h.wait, hnext]
  pos := h.pos.trans hpos
  reg := h.reg
  next := by rw [h.next, hnext]
  fill := by rw [← hnext, h.fill]
  others m hm := (h.others m hm).trans (hothers m hm)

theorem keyReleased_pos (s : State) (j : Nat) (i : W64) : (getJob (keyReleased s j i) j).pos = (getJob s j).pos := by
  obtain ⟨ks, hjob⟩ := getJob_keyReleased_same s j i
  rw [hjob]

/-! ### KEY of a short bale that misses (R214) -/

/-- The fill that a KEY of a short bale asks for. -/
def baleFill (t : BitVec 12) (i : W64) (bs : List Byte) : FillRec := { tenant := t, index := BitVec.ofNat 24 (wIndex i), record := bs }

theorem baleFill_index (t : BitVec 12) (i : W64) (bs : List Byte) : (baleFill t i bs).index.toNat = wIndex i := by
  rw [baleFill, BitVec.toNat_ofNat, Nat.mod_eq_of_lt (wIndex_lt i)]

theorem keyShort_of_miss {s sr s' : State} {l j : Nat} {i : W64} {bs : List Byte} (ho : ownerHeld s = true)
    (hr : recordUse s j = .here bs sr) (hl : lookupKey sr (jobTenant s j) (wIndex i) (parseRecord bs).epoch = (.miss, s'))
    (ht : tableHas (parseRecord bs) (wIndex i) = true) (hb : entryBusy s (jobTenant s j) (BitVec.ofNat 24 (wIndex i)) = false)
    (hf : findFill s' (jobTenant s j) (BitVec.ofNat 24 (wIndex i)) false = none) :
    keyShort s l j i .same = readBale (fillBegun s' j (baleFill (jobTenant s j) i bs)) s'.mint.nextFill := by
  simp only [keyShort, ho, hr, hl, ht, hb, hf, itemDiffers_same, Bool.not_true, Bool.false_eq_true, if_false]
  rfl

theorem key_misses {l : Fin 16} {j : Nat} {i : W64} {bs : List Byte} {sr s' s : State} (h : KeyReady s l.val j i) (hb : wB i = 0)
    (hr : recordUse (keyReleased s j i) j = .here bs sr)
    (hl : lookupKey sr (jobTenant s j) (wIndex i) (parseRecord bs).epoch = (.miss, s'))
    (ht : tableHas (parseRecord bs) (wIndex i) = true) (hbusy : entryBusy s (jobTenant s j) (BitVec.ofNat 24 (wIndex i)) = false)
    (hf : findFill s (jobTenant s j) (BitVec.ofNat 24 (wIndex i)) false = none)
    (hreach : (parseRecord bs).spaceLocal = true ∨ s.pins.linkLost = false) :
    ∃ t, exec (.key l .same) s = .next t ∧ FillAsked s t j (keyNum (wA i)) { baleFill (jobTenant s j) i bs with
        joined := [j], addr := (parseRecord bs).base + w64 (128 * wIndex i) } ∧
      keepsBut [.jobs, .serai, .mint, .ledger, .ai, .ration] s t := by
  have released := keeps_keyReleased s j i
  obtain ⟨used, lent, hlent⟩ := recordUse_here hr
  have looked : keepsBut [.serai, .ledger] sr s' := step_lookupKey hl rfl (keepsBut.refl _ _)
  have toMiss : keepsBut [.jobs, .serai, .mint, .ledger] s s' :=
    keepsBut.step looked (by decide) (keepsBut.step used (by decide) (released.sub (by decide)))
  have hmint : s'.mint = { s.mint with lent := lent } := by rw [looked.mint_eq rfl, hlent, released.mint_eq rfl]
  have hjobs : ∀ m, getJob s' m = getJob (keyReleased s j i) m := fun m => by rw [looked.getJob_eq rfl, used.getJob_eq rfl]
  have hten := jobTenant_keyReleased s j i j
  have hfills : s'.mint.fills = s.mint.fills := by rw [hmint]
  have hexec := exec_key h
  rw [if_pos hb, keyShort_of_miss (keyReleased_owner h) hr (by rw [hten, hl]) ht
    (by rw [hten, entryBusy, released.mint_eq rfl, ← entryBusy, hbusy])
    (by rw [hten]; exact (findFill_congr hfills _ _ _).trans hf), hten] at hexec
  have asked : FillAsked s' _ j (keyNum (wA i)) _ := .of_readBale (r := baleFill (jobTenant s j) i bs)
    (by rw [keyReg, hjobs]; exact keyReg_keyReleased s j i) (by rw [toMiss.pins_eq rfl]; exact hreach)
  rw [baleFill_index] at asked
  exact ⟨_, hexec, asked.from (by rw [hmint]) (by rw [hjobs, keyReleased_pos])
      (fun m hm => by rw [hjobs, getJob_keyReleased_other s i hm]),
    keepsBut.step (keeps_readBale _ _) (by decide) (keepsBut.step (keeps_fillBegun _ _ _) (by decide) (toMiss.sub (by decide)))⟩

/-! ### KEY without its tenant record (R182, R214) -/

/-- The fill that reads a tenant record. -/
def recordFill (t : BitVec 12) : FillRec := { tenant := t, index := BitVec.ofNat 24 (idxRecord t.toNat), recordOnly := true }

theorem wantRecord_of_new {s : State} {j : Nat}
    (hf : findFill s (jobTenant s j) (BitVec.ofNat 24 (idxRecord (jobTenant s j).toNat)) true = none) :
    wantRecord s j = readRecord (fillBegun (longLookup s) j (recordFill (jobTenant s j))) (longLookup s).mint.nextFill := by
  have hf' : findFill (longLookup s) (jobTenant s j) (BitVec.ofNat 24 (idxRecord (jobTenant s j).toNat)) true = none := hf
  unfold wantRecord
  extract_lets t idx s1
  have hs1 : findFill s1 t idx true = none := hf'
  rw [hs1]
  rfl

theorem keyShort_of_no_record {s : State} {j : Nat} (l : Nat) (i : W64) (ho : ownerHeld s = true) (hr : recordUse s j = .miss) :
    keyShort s l j i .same = wantRecord s j := by
  simp [keyShort, ho, hr]

theorem keyLong_of_no_record {s : State} {j : Nat} (l : Nat) (i : W64) (ho : ownerHeld s = true) (hr : recordUse s j = .miss) :
    keyLong s l j i .same = wantRecord s j := by
  simp [keyLong, ho, hr]

theorem key_asks_record {l : Fin 16} {j : Nat} {i : W64} {s : State} (h : KeyReady s l.val j i)
    (hr : recordUse (keyReleased s j i) j = .miss)
    (hf : findFill s (jobTenant s j) (BitVec.ofNat 24 (idxRecord (jobTenant s j).toNat)) true = none) :
    ∃ t, exec (.key l .same) s = .next t ∧ FillAsked s t j (keyNum (wA i)) { recordFill (jobTenant s j) with
        joined := [j], addr := recordAddr s (jobTenant s j).toNat } ∧ keepsBut [.jobs, .serai, .mint, .ai, .ration] s t := by
  have released := keeps_keyReleased s j i
  have looked : keepsBut [.serai] (keyReleased s j i) (longLookup (keyReleased s j i)) := keeps_longLookup _
  have toMiss : keepsBut [.jobs, .serai] s (longLookup (keyReleased s j i)) := keepsBut.step looked (by decide) released
  have hten := jobTenant_keyReleased s j i j
  have hfills : (keyReleased s j i).mint.fills = s.mint.fills := by rw [released.mint_eq rfl]
  have hwant := wantRecord_of_new (s := keyReleased s j i) (j := j)
    (by rw [hten]; exact (findFill_congr hfills _ _ _).trans hf)
  rw [hten] at hwant
  have hexec := exec_key h
  rw [keyShort_of_no_record _ _ (keyReleased_owner h) hr, keyLong_of_no_record _ _ (keyReleased_owner h) hr, ite_self, hwant] at hexec
  have asked : FillAsked (longLookup (keyReleased s j i)) _ j (keyNum (wA i)) _ := .of_readRecord (r := recordFill (jobTenant s j))
    (by rw [looked.keyReg_eq rfl, keyReg_keyReleased])
  rw [toMiss.recordAddr_eq rfl rfl] at asked
  exact ⟨_, hexec, asked.from (by rw [toMiss.mint_eq rfl]) (by rw [looked.getJob_eq rfl, keyReleased_pos])
      (fun m hm => by rw [looked.getJob_eq rfl, getJob_keyReleased_other s i hm]),
    keepsBut.step (keeps_readRecord _ _) (by decide) (keepsBut.step (keeps_fillBegun _ _ _) (by decide) (toMiss.sub (by decide)))⟩

/-! ### Wipes and key registers (R196, R234) -/

theorem revokeLease_keysLost (s : State) (b i cause : Nat) : keysLost s (revokeLease s b i cause) :=
  .of_keeps (keeps_revokeLease s b i cause) rfl

theorem freeHolding_keysLost (s : State) (e : Nat) : keysLost s (freeHolding s e) := by
  unfold freeHolding
  extract_lets of_ slots released
  split
  · exact keysLost.refl s
  · refine keysLost.trans (keysLost.forAll (fun t j => ?_) _ _) (.of_keeps (keeps_flushWhere _ _) rfl)
    refine keysLost.forAll (fun t n => ?_) _ _
    split
    · exact releaseKey_keysLost t j n
    · exact keysLost.refl t

theorem wipeBench_keysLost (s : State) (b cause : Nat) : keysLost s (wipeBench s b cause) := by
  unfold wipeBench
  extract_lets live s1 rest s2 s3
  have h1 : keysLost s s1 := keysLost.forAll (fun t i => revokeLease_keysLost t b i cause) live s
  have h2 : keysLost s s2 := h1.trans (.of_keeps (keeps_modBench s1 b _) rfl)
  have h3 : keysLost s s3 := h2.trans (freeHolding_keysLost s2 b)
  exact h3.trans (.of_keeps (keepsBut.step (keeps_raise _ _) (by decide) ((keeps_upHouse s3 _).sub (by decide)) :
    keepsBut [.house, .relay] s3 _) rfl)

theorem benchOwn_keysLost (s : State) (b : Nat) (w : Owner) : keysLost s (benchOwn s b w) := by
  unfold benchOwn
  extract_lets o s1
  have h1 : keysLost s s1 := by
    dsimp only [s1]
    split
    · exact keysLost.refl s
    · exact wipeBench_keysLost s b 2
  exact h1.trans (.of_keeps (keeps_modBench s1 b _) rfl)

/-! ### Material in an engine (R190, R196) -/

/-- A bench that holds material `m` of a key type for job `j`. -/
def benchHolds (j ktype : Nat) (m : List Byte) (x : BenchRec) : BenchRec :=
  { x with holder := some j, holdLen := m.length, holdType := BitVec.ofNat 6 ktype, mem := tfill 0 x.mem 0x8000 m }

/-- A context that holds material `m` of a key type for job `j` of lane `l`. -/
def ctxHolds (l j ktype : Nat) (m : List Byte) (x : CtxRec) : CtxRec :=
  { x with holder := some j, holdLen := m.length, holdType := BitVec.ofNat 6 ktype, holdLane := l, mem := tfill 0 x.mem 16384 m }

theorem holdTake_of_bench {s : State} {e : Nat} (h : e < 8) (l j ktype : Nat) (m : List Byte) :
    ∃ u, holdTake s l j e ktype m = modBench u e (benchHolds j ktype m) ∧ keysLost s u :=
  ⟨_, if_pos h, (benchOwn_keysLost s e _).trans (.of_keeps (keeps_modUnit _ _ _) rfl)⟩

theorem holdTake_of_ctx {s : State} {e : Nat} (h : 8 ≤ e) (l j ktype : Nat) (m : List Byte) :
    holdTake s l j e ktype m = modCtx s (e - 8) (ctxHolds l j ktype m) := if_neg (Nat.not_lt.mpr h)

theorem holdTake_keysLost (s : State) (l j e ktype : Nat) (m : List Byte) : keysLost s (holdTake s l j e ktype m) := by
  rcases Nat.lt_or_ge e 8 with h | h
  · obtain ⟨u, htake, hlost⟩ := holdTake_of_bench (s := s) h l j ktype m
    rw [htake]
    exact hlost.trans (.of_keeps (keeps_modBench u e _) rfl)
  · rw [holdTake_of_ctx h]
    exact .of_keeps (keeps_modCtx s (e - 8) _) rfl

theorem holdTake_bench {s : State} {l j e ktype : Nat} {m : List Byte} (h : e < 8) :
    (getBench (holdTake s l j e ktype m) e).holder = some j ∧ (getBench (holdTake s l j e ktype m) e).holdLen = m.length ∧
      readBytes (getBench (holdTake s l j e ktype m) e).mem 0x8000 m.length = m := by
  obtain ⟨u, htake, _⟩ := holdTake_of_bench (s := s) h l j ktype m
  rw [htake, getBench_modBench_same]
  exact ⟨rfl, rfl, tread_tfill_same 0 m (getBench u e).mem 0x8000⟩

theorem holdTake_ctx {s : State} {l j e ktype : Nat} {m : List Byte} (h : 8 ≤ e) :
    (getCtx (holdTake s l j e ktype m) (e - 8)).holder = some j ∧ (getCtx (holdTake s l j e ktype m) (e - 8)).holdLen = m.length ∧
      readBytes (getCtx (holdTake s l j e ktype m) (e - 8)).mem 16384 m.length = m := by
  rw [holdTake_of_ctx h, getCtx_modCtx_same]
  exact ⟨rfl, rfl, tread_tfill_same 0 m (getCtx s (e - 8)).mem 16384⟩

/-! ### Private slots (R216) -/

theorem getSlot_fillPrivate_same (s : State) (k : Nat) (t : BitVec 12) (kind : SlotKind) (len lane engine : Nat) (r : SlotRec)
    (key : List Byte) : (getSlot (fillPrivate s k t kind len lane engine r key) k).kind = kind ∧
      (getSlot (fillPrivate s k t kind len lane engine r key) k).leases = 1 := by
  rw [fillPrivate, getSlot_takeLease_same, fillSlot, getSlot_modSlot_same]
  exact ⟨rfl, rfl⟩

/-! ### A long bale that may open (R190, R194, R196, R238, R241, R267) -/

/-- The key type in the header of a long bale (Table 7.3). -/
def longType (h : List Byte) : Nat := ofLe (slice h 1 1)

/-- The length of the material, in the same header. -/
def longLen (h : List Byte) : Nat := ofLe (slice h 26 4)

/-- What the cipher of R190 takes: KEK, nonce, header, tag and ciphertext. -/
def longArgs (kek h c : List Byte) : List (List Byte) := [kek, slice h 32 12, h.take 32, slice h 48 16, c]

/-- The material with its padding. -/
def longPlain (kek h c : List Byte) : List Byte := stdBytes (.gcmSiv true) (longArgs kek h c) c.length

/-- The material of a long bale. -/
def longMaterial (kek h c : List Byte) : List Byte := (longPlain kek h c).take (longLen h)

/-- The bale's tag holds, and its padding is zero. -/
def longTagOk (kek h c : List Byte) : Bool :=
  Config.stdOk (.gcmSiv true) (longArgs kek h c) && ((longPlain kek h c).drop (longLen h)).all (fun b => b = 0)

/-- The bale opens: its material also meets the conditions of the engine that is to hold it. -/
def longOpens (kek h c : List Byte) (e : Nat) : Bool :=
  longTagOk kek h c &&
    (if e < 8 then chMaterialOk (longType h) (longMaterial kek h c) else scMaterialOk (longType h) (longMaterial kek h c))

/-- A KEY of job `j` has in `s` the header `h` and the ciphertext `c` of a long bale that passes steps 5 to 9 of Table 7.4 but for its tag,
an engine `e` for it, and the tenant's KEK, with which the state is `su`. -/
structure LongBale (s : State) (j : Nat) (i : W64) (bs h c kek : List Byte) (e : Nat) (z : Job) (sr su : State) : Prop where
  record : recordUse s j = .here bs sr
  read : ∃ st y, (desigOf (wB i)).bind streamOf = some st ∧ takeStream (getJob s j) st 64 = .ok (h, y) ∧
    takeStream y st (16 * ceilDiv (longLen h) 16) = .ok (c, z)
  form : headerOk h true = true
  padding : ofLe (slice h 44 4) = 0
  sound : baleFault s h true (jobTenant s j) (wIndex i) (parseRecord bs).epoch true = none
  free : holdsOne s j (longType h) = false
  engine : holdEngine s j (longType h) = some e
  kek : useKek (longLookup sr) (jobTenant s j) (parseRecord bs).epoch = .got kek su

/-- A bale without a fault is the one that its handle names. -/
theorem baleFault_none_names {s : State} {h : List Byte} {long : Bool} {t : BitVec 12} {idx : Nat} {e : W32} {tagOk : Bool}
    (hf : baleFault s h long t idx e tagOk = none) : ofLe (slice h 6 2) = t.toNat ∧ ofLe (slice h 12 3) = idx := by
  unfold baleFault at hf
  extract_lets b at hf
  split at hf
  · cases hf
  · split at hf
    · cases hf
    · next hn => simpa [b] using hn

theorem keyLong_of_bale {s sr su : State} {l j e : Nat} {i : W64} {bs h c kek : List Byte} {z : Job} (ho : ownerHeld s = true)
    (hb : LongBale s j i bs h c kek e z sr su) :
    keyLong s l j i .same = keyLongTake s (longLookup sr) l j e i .same h (parseRecord bs) false (c, z) := by
  obtain ⟨st, y, hst, hhead, hbody⟩ := hb.read
  obtain ⟨hten, hidx⟩ := baleFault_none_names hb.sound
  have hkeyLong : keyLong s l j i .same = keyLongBody s sr l j i .same (parseRecord bs) h st y := by
    simp [keyLong, ho, hb.record, hst, hhead, goOn]
  have hfree := hb.free
  have hengine := hb.engine
  rw [longType] at hfree hengine
  rw [longLen] at hbody
  rw [hkeyLong]
  unfold keyLongBody
  extract_lets t ktype len at_ early structural foreign
  have hearly : early = none := hb.sound
  rw [if_neg (by simp [structural, hb.form, hb.padding]), if_neg (by simp [foreign, t, hten, hidx]), if_neg (by simp [hearly]),
    if_neg (by simp [ktype, hfree])]
  simp only [ktype, len, hengine, hbody, goOn, hearly]
  rfl

/-- The state in which a KEY of a long bale takes its material: an unwrap whose tag holds is counted. -/
def longUnwrapped (su : State) (tagOk : Bool) : State := whenS tagOk (fun s => upMint s (fun q => { q with unwraps := q.unwraps + 1 })) su

/-- The material of a long bale that does not stay passes through its engine, which is wiped. -/
def longDropped (s : State) (l j e : Nat) (kek h c : List Byte) : State :=
  holdDrop (holdTake s l j e (longType h) (longMaterial kek h c)) e

theorem keyLongTake_of_bad {s sr su : State} {l j e : Nat} {i : W64} {h c kek : List Byte} {r : TenantRec} {z : Job}
    (hk : useKek sr (jobTenant s j) r.epoch = .got kek su) (ho : longOpens kek h c e = false) :
    keyLongTake s sr l j e i .same h r false (c, z) =
      endBale (longDropped (longUnwrapped su (longTagOk kek h c)) l j e kek h c) j .baleInvalid := by
  unfold keyLongTake
  extract_lets t ktype len
  simp only [t, hk]
  exact if_pos (show (!longOpens kek h c e) = true by rw [ho]; rfl)

/-- The state in which the material of a long bale of tenant `t` stays in its engine, slot `k` stands for it, and its stream is read. -/
def longHeld (s : State) (t : BitVec 12) (l j e k : Nat) (kek h c : List Byte) (z : Job) : State :=
  modJob (fillPrivate (holdTake s l j e (longType h) (longMaterial kek h c)) k t .holding (longLen h % 256) l e (headerSlot h) []) j
    (fun x => { x with cursors := z.cursors, buf := z.buf })

theorem longTagOk_of_opens {kek h c : List Byte} {e : Nat} (ho : longOpens kek h c e = true) : longTagOk kek h c = true := by
  rw [longOpens, Bool.and_eq_true] at ho
  exact ho.1

/-- The KEY of a bale that opens goes on with the way for its slot. -/
theorem keyLongTake_of_good {s sr su : State} {l j e : Nat} {i : W64} {h c kek : List Byte} {r : TenantRec} {z : Job}
    (hk : useKek sr (jobTenant s j) r.epoch = .got kek su) (ho : longOpens kek h c e = true) :
    keyLongTake s sr l j e i .same h r false (c, z) =
      withWay s (privateWay (longUnwrapped su true)) (endHard (longDropped (longUnwrapped su true) l j e kek h c) j .storageFault)
        (fun k sw => complete (modJob (loadKey (longHeld sw (jobTenant s j) l j e k kek h c z) j (keyNum (wA i)) k) j (hitSet false))
          l j .same) := by
  have htag : longUnwrapped su true = longUnwrapped su (longTagOk kek h c) := by rw [longTagOk_of_opens ho]
  rw [htag]
  unfold keyLongTake
  extract_lets t ktype len
  simp only [t, hk]
  refine (if_neg (show ¬(!longOpens kek h c e) = true by rw [ho]; decide)).trans ?_
  rw [if_neg (by decide), if_neg (by rw [itemDiffers_same]; decide)]
  rfl

theorem keeps_longUnwrapped (su : State) (b : Bool) : keepsBut [.mint] su (longUnwrapped su b) :=
  keepsBut.when (keepsBut.refl _ _) (fun _ h => keepsBut.step (keeps_upMint _ _) (by decide) h)

theorem keeps_longDropped (s : State) (l j e : Nat) (kek h c : List Byte) :
    keepsBut [.units, .jobs, .serai, .house, .scales, .relay, .ledger] s (longDropped s l j e kek h c) :=
  keepsBut.step (keeps_holdDrop _ _) (by decide) (keeps_holdTake _ _ _ _ _ _)

/-- From the material in its engine on, no more than the job and the slot change. -/
theorem keeps_longHeld_of_holdTake (s : State) (t : BitVec 12) (l j e k : Nat) (kek h c : List Byte) (z : Job) :
    keepsBut [.jobs, .serai] (holdTake s l j e (longType h) (longMaterial kek h c)) (longHeld s t l j e k kek h c z) :=
  keepsBut.step (keeps_modJob _ _ _) (by decide) ((keeps_fillPrivate _ _ _ _ _ _ _ _ _).sub (by decide))

theorem keeps_longHeld (s : State) (t : BitVec 12) (l j e k : Nat) (kek h c : List Byte) (z : Job) :
    keepsBut [.units, .jobs, .serai, .house, .scales, .relay, .ledger] s (longHeld s t l j e k kek h c z) :=
  keepsBut.step (keeps_longHeld_of_holdTake s t l j e k kek h c z) (by decide) (keeps_holdTake _ _ _ _ _ _)

section
variable (s : State) (t : BitVec 12) (l j e k : Nat) (kek h c : List Byte) (z : Job)

theorem getSlot_longHeld : (getSlot (longHeld s t l j e k kek h c z) k).kind = .holding ∧
    (getSlot (longHeld s t l j e k kek h c z) k).leases = 1 := by
  rw [longHeld, (keeps_modJob _ _ _).getSlot_eq rfl]
  exact getSlot_fillPrivate_same _ _ _ _ _ _ _ _ _

/-- The job has read its bale stream, and has lost key registers at most. -/
theorem getJob_longHeld :
    ∃ ks, getJob (longHeld s t l j e k kek h c z) j = { getJob s j with keys := ks, cursors := z.cursors, buf := z.buf } ∧
      ∀ n, keyReg s j n = none → tget none ks n = none := by
  obtain ⟨ks, hjob, hks⟩ := holdTake_keysLost s l j e (longType h) (longMaterial kek h c) j
  exact ⟨ks, by rw [longHeld, getJob_modJob_same, (keeps_fillPrivate _ _ _ _ _ _ _ _ _).getJob_eq rfl, hjob], hks⟩

end

/-- The loading of an empty register ends a KEY of a long bale. -/
theorem complete_loadKey_of_empty {s : State} {j n : Nat} (h : keyReg s j n = none) (l k : Nat) :
    complete (modJob (loadKey s j n k) j (hitSet false)) l j .same = keyDone s j n (keyRefOf s k) false := by
  rw [complete_same, loadKey_of_empty h, keyDone]

/-! ### KEY of a long bale (R190, R196, R216, R238, R267) -/

section
variable {s : State} {l : Fin 16} {j e : Nat} {i : W64} {bs h c kek : List Byte} {z : Job} {sr su : State}

theorem exec_key_long (hk : KeyReady s l.val j i) (hb : wB i ≠ 0) (hl : LongBale (keyReleased s j i) j i bs h c kek e z sr su) :
    exec (.key l .same) s =
      .next (keyLongTake (keyReleased s j i) (longLookup sr) l.val j e i .same h (parseRecord bs) false (c, z)) := by
  rw [exec_key hk, if_neg hb, keyLong_of_bale (keyReleased_owner hk) hl]

/-- Up to the tenant's KEK, the lookups of a KEY of a long bale. -/
theorem LongBale.keeps (hl : LongBale (keyReleased s j i) j i bs h c kek e z sr su) :
    keepsBut [.jobs, .serai, .mint, .well, .ledger] s su ∧ (∀ m, getJob su m = getJob (keyReleased s j i) m) ∧
      su.mint.unwraps = s.mint.unwraps := by
  have released := keeps_keyReleased s j i
  obtain ⟨used, lent, hlent⟩ := recordUse_here hl.record
  have looked : keepsBut [.serai, .well, .ledger] sr su :=
    step_useKek_got hl.kek (by decide) ((keeps_longLookup sr).sub (by decide))
  refine ⟨keepsBut.step looked (by decide) (keepsBut.step used (by decide) (released.sub (by decide))), fun m => ?_, ?_⟩
  · rw [looked.getJob_eq rfl, used.getJob_eq rfl]
  · rw [looked.mint_eq rfl, hlent, released.mint_eq rfl]

theorem getJob_endHard (s : State) (j : Nat) (st : Status) :
    (getJob (endHard s j st) j).isOver = true ∧ (getJob (endHard s j st) j).status = st := by
  rw [endHard, getJob_modJob_same]
  exact ⟨rfl, rfl⟩

theorem withWay_way (s₀ : State) (k : Nat) (t no : State) (f : Nat → State → State) : withWay s₀ (.way k t) no f = f k t := rfl

/-- A long bale that does not open ends the job with BALE_INVALID. -/
theorem key_long_invalid (hk : KeyReady s l.val j i) (hb : wB i ≠ 0) (hl : LongBale (keyReleased s j i) j i bs h c kek e z sr su)
    (ho : longOpens kek h c e = false) :
    ∃ t, exec (.key l .same) s = .next t ∧ t.fuse = s.fuse ∧ t.mode = s.mode ∧ t.pending = s.pending ∧
      (getJob t j).isOver = true ∧ (getJob t j).status = .baleInvalid := by
  have hexec := exec_key_long hk hb hl
  rw [keyLongTake_of_bad hl.kek ho] at hexec
  have keep := keepsBut.step (keeps_endBale _ j .baleInvalid) (by decide)
    (keepsBut.step (keeps_longDropped _ l.val j e kek h c) (by decide)
      (keepsBut.step (keeps_longUnwrapped su (longTagOk kek h c)) (by decide) (hl.keeps.1.sub
        (W := [.units, .jobs, .serai, .mint, .house, .scales, .well, .relay, .ledger, .ai]) (by decide))))
  exact ⟨_, hexec, keep.fuse_eq rfl, keep.mode_eq rfl, keep.1, getJob_endHard _ _ _⟩

/-- A long bale for whose slot no set has a way ends the job with STORAGE_FAULT. -/
theorem key_long_no_way (hk : KeyReady s l.val j i) (hb : wB i ≠ 0) (hl : LongBale (keyReleased s j i) j i bs h c kek e z sr su)
    (ho : longOpens kek h c e = true) (hw : privateWay (longUnwrapped su true) = .none) :
    ∃ t, exec (.key l .same) s = .next t ∧ t.fuse = s.fuse ∧ t.mode = s.mode ∧ t.pending = s.pending ∧
      (getJob t j).isOver = true ∧ (getJob t j).status = .storageFault := by
  have hexec := exec_key_long hk hb hl
  rw [keyLongTake_of_good hl.kek ho, hw] at hexec
  have keep := keepsBut.step (keeps_endHard _ j .storageFault) (by decide)
    (keepsBut.step (keeps_longDropped _ l.val j e kek h c) (by decide)
      (keepsBut.step (keeps_longUnwrapped su true) (by decide) (hl.keeps.1.sub
        (W := [.units, .jobs, .serai, .mint, .house, .scales, .well, .relay, .ledger, .ai]) (by decide))))
  exact ⟨_, hexec, keep.fuse_eq rfl, keep.mode_eq rfl, keep.1, getJob_endHard _ _ _⟩

/-- A long bale that opens stays in its engine, and its KEY loads the register with a HOLDING slot. -/
theorem key_long_opens {k : Nat} {sw : State} (hk : KeyReady s l.val j i) (hb : wB i ≠ 0)
    (hl : LongBale (keyReleased s j i) j i bs h c kek e z sr su) (ho : longOpens kek h c e = true)
    (hw : privateWay (longUnwrapped su true) = .way k sw) :
    ∃ t, exec (.key l .same) s = .next t ∧ t.fuse = s.fuse ∧ t.mode = s.mode ∧ t.pending = s.pending ∧
      (getJob t j).pos = (getJob s j).pos + 1 ∧ (getJob t j).flags = { (getJob s j).flags with hit := false } ∧
      t.mint.unwraps = s.mint.unwraps + 1 ∧ (getJob t j).cursors = z.cursors ∧
      keyReg t j (keyNum (wA i)) = some (keyRefOf t k) ∧ (getSlot t k).kind = .holding ∧ (getSlot t k).leases = 1 ∧
      (e < 8 → (getBench t e).holder = some j ∧ (getBench t e).holdLen = (longMaterial kek h c).length ∧
        readBytes (getBench t e).mem 0x8000 (longMaterial kek h c).length = longMaterial kek h c) ∧
      (8 ≤ e → (getCtx t (e - 8)).holder = some j ∧ (getCtx t (e - 8)).holdLen = (longMaterial kek h c).length ∧
        readBytes (getCtx t (e - 8)).mem 16384 (longMaterial kek h c).length = longMaterial kek h c) := by
  obtain ⟨looked, hjobs, hunwraps⟩ := hl.keeps
  have counted := keeps_longUnwrapped su true
  have chosen : keepsBut [.serai, .well] (longUnwrapped su true) sw := step_privateWay_way hw rfl (keepsBut.refl _ _)
  have toWay : keepsBut [.jobs, .serai, .mint, .well, .ledger] s sw :=
    keepsBut.step chosen (by decide) (keepsBut.step counted (by decide) looked)
  have hsw : ∀ m, getJob sw m = getJob (keyReleased s j i) m := fun m => by
    rw [chosen.getJob_eq rfl, counted.getJob_eq rfl, hjobs]
  have hcount : sw.mint.unwraps = s.mint.unwraps + 1 := by
    rw [chosen.mint_eq rfl, ← hunwraps]
    rfl
  have hexec := exec_key_long hk hb hl
  rw [keyLongTake_of_good hl.kek ho, hw, withWay_way] at hexec
  obtain ⟨ks₀, hjob₀⟩ := getJob_keyReleased_same s j i
  obtain ⟨ks, hjob, hks⟩ := getJob_longHeld sw (jobTenant (keyReleased s j i) j) l.val j e k kek h c z
  rw [hsw, hjob₀] at hjob
  obtain ⟨hkind, hleases⟩ := getSlot_longHeld sw (jobTenant (keyReleased s j i) j) l.val j e k kek h c z
  have heldOn := keeps_longHeld sw (jobTenant (keyReleased s j i) j) l.val j e k kek h c z
  have held := keeps_longHeld_of_holdTake sw (jobTenant (keyReleased s j i) j) l.val j e k kek h c z
  generalize longHeld sw (jobTenant (keyReleased s j i) j) l.val j e k kek h c z = u at hexec hjob hkind hleases heldOn held
  have hempty : keyReg u j (keyNum (wA i)) = none := by
    rw [keyReg, hjob]
    exact hks _ (by rw [keyReg, hsw]; exact keyReg_keyReleased s j i)
  rw [complete_loadKey_of_empty hempty] at hexec
  have done := keeps_keyDone u j (keyNum (wA i)) (keyRefOf u k) false
  have keep := keepsBut.step done (by decide) (keepsBut.step heldOn (by decide)
    (toWay.sub (W := [.units, .jobs, .serai, .mint, .house, .scales, .well, .relay, .ledger]) (by decide)))
  have hend := getJob_keyDone_same u j (keyNum (wA i)) (keyRefOf u k) false
  rw [hjob] at hend
  refine ⟨_, hexec, keep.fuse_eq rfl, keep.mode_eq rfl, keep.1, by rw [hend]; rfl, by rw [hend]; rfl, ?_, by rw [hend]; rfl, ?_, ?_, ?_,
    fun he => ?_, fun he => ?_⟩
  · rw [done.mint_eq rfl, heldOn.mint_eq rfl, hcount]
  · rw [keyReg_keyDone, done.keyRefOf_eq rfl]
  · rw [done.getSlot_eq rfl, hkind]
  · rw [done.getSlot_eq rfl, hleases]
  · rw [done.getBench_eq rfl, held.getBench_eq rfl]
    exact holdTake_bench he
  · rw [done.getCtx_eq rfl, held.getCtx_eq rfl]
    exact holdTake_ctx he

end

/-- Settles O27: a KEY of a short bale that hits, one that misses, a KEY without its tenant record, and a KEY of a long bale that does not
open, that finds no way, and that opens. -/
theorem keyHitsOrFills : Obligations.KeyHitsOrFills := by
  unfold Obligations.KeyHitsOrFills
  refine ⟨?_, ?_, ?_, ?_⟩
  · intro l j k i bs sr s' s s0 htask hwait hissue harg hb howner hr hl hw
    exact key_hits ⟨htask, hwait, hissue, harg, howner⟩ hb hr hl hw
  · intro l j i bs sr s' s s0 r htask hwait hissue harg hb howner hr hl ht hbusy hf hreach
    obtain ⟨t, hexec, asked, hkeep⟩ := key_misses ⟨htask, hwait, hissue, harg, howner⟩ hb hr hl ht hbusy hf hreach
    refine ⟨t, hexec, asked.wait, asked.pos, asked.reg, asked.next, ?_, asked.others, hkeep⟩
    rw [asked.fill]
    exact ⟨rfl, rfl, rfl, rfl, rfl, rfl, rfl⟩
  · intro l j i s t0 htask hwait hissue harg howner hr hf
    obtain ⟨t, hexec, asked, hkeep⟩ := key_asks_record ⟨htask, hwait, hissue, harg, howner⟩ hr hf
    refine ⟨t, hexec, asked.wait, asked.pos, asked.reg, asked.next, ?_, asked.others, hkeep⟩
    rw [asked.fill]
    exact ⟨rfl, rfl, rfl, rfl, rfl, rfl⟩
  · intro l j e st i bs h c kek y z sr su s s0 r t0 kt n args plain m opens way htask hwait hissue harg hb howner hr hst hhead
      hform hpad hsound hfree hengine hbody hkek
    have ready : KeyReady s l.val j i := ⟨htask, hwait, hissue, harg, howner⟩
    have hten := jobTenant_keyReleased s j i j
    have bale : LongBale (keyReleased s j i) j i bs h c kek e z sr su :=
      ⟨hr, ⟨st, y, hst, hhead, hbody⟩, hform, hpad, by rw [hten]; exact hsound, hfree, hengine, by rw [hten]; exact hkek⟩
    exact ⟨fun ho => key_long_invalid ready hb bale ho, fun ho hw => key_long_no_way ready hb bale ho hw,
      fun k sw ho hw => key_long_opens ready hb bale ho hw⟩

end Sys2Proof.Machine
end

section
/-! SUPPORT. Admission (R126, R127, R129, R130): what the end of a job's work leaves of the jobs, the class that a job is given, the
queue that it joins, and the end of one that is refused; and the proof of O31. -/

namespace Sys2Proof.Machine

/-! ### The end of a job's work, in the jobs (R82, R247, R269) -/

theorem keysLost.forAll_if {c : State → Nat → Prop} [∀ t k, Decidable (c t k)] {f : State → Nat → State}
    (hf : ∀ t k, keysLost t (f t k)) (l : List Nat) (s : State) :
    keysLost s (Machine.forAll l (fun t k => if c t k then f t k else t) s) :=
  keysLost.forAll (fun t k => by
    split
    · exact hf t k
    · exact keysLost.refl t) l s

theorem releaseKeys_keysLost (s : State) (j : Nat) : keysLost s (releaseKeys s j) :=
  keysLost.forAll (fun t n => releaseKey_keysLost t j n) _ s

theorem getJob_releaseKeys_other (s : State) {j m : Nat} (h : m ≠ j) : getJob (releaseKeys s j) m = getJob s m :=
  forAll_other (view := fun t => getJob t m) (fun t n _ => getJob_releaseKey_other t n h) s

theorem dropCtxHolding_keysLost (s : State) (c : Nat) : keysLost s (dropCtxHolding s c) := by
  unfold dropCtxHolding
  split
  · exact keysLost.refl s
  · extract_lets s1 s2
    have h1 : keysLost s s1 := .of_keeps (keeps_modCtx s c _) rfl
    have h2 : keysLost s s2 := h1.trans (freeHolding_keysLost s1 (8 + c))
    exact h2.trans (.of_keeps (keepsBut.step (keeps_raise _ _) (by decide) ((keeps_upScales s2 _).sub (by decide)) :
      keepsBut [.scales, .relay] s2 _) rfl)

theorem abortBench_keysLost (s : State) (b row : Nat) : keysLost s (abortBench s b row) :=
  (keysLost.of_keeps (keeps_stopBench s b row) rfl).trans (wipeBench_keysLost _ b _)

theorem abortCtx_keysLost (s : State) (c : Nat) : keysLost s (abortCtx s c) := by
  unfold abortCtx
  extract_lets held u
  have h : keysLost s u := .of_keeps (keeps_stopCtx s c) rfl
  split
  · exact h.trans (dropCtxHolding_keysLost _ c)
  · exact h.trans (.of_keeps (keeps_upScales _ _) rfl)

theorem wipeEnded_keysLost (s : State) (j row : Nat) : keysLost s (wipeEnded s j row) :=
  keysLost.forAll (fun t b => (keysLost.of_keeps (keeps_modBench t b _) rfl).trans (wipeBench_keysLost _ b _)) _ s

/-- What drops a job's work takes key registers of the jobs at most. -/
theorem dropWork_keysLost (s : State) (j row : Nat) : keysLost s (dropWork s j row) := by
  unfold dropWork
  extract_lets s1 s2 s3 s4 s5 s6 s7 s8
  have h6 : keysLost s s6 := .of_keeps (W := [.serai, .mint, .house, .scales, .well])
    (keepsBut.step (keeps_upMint s5 _) (by decide) (keepsBut.step (keeps_upWell s4 _) (by decide)
      (keepsBut.step (keeps_upScales s3 _) (by decide) (keepsBut.step (keeps_upHouse s2 _) (by decide)
        (keepsBut.step (keeps_returnLent s1 j) (by decide) ((keeps_upSerai s _).sub (by decide))))))) rfl
  have h7 : keysLost s s7 := by
    dsimp only [s7]
    cases decide (row ≠ 2)
    · exact h6
    · exact h6.trans (wipeEnded_keysLost s6 j row)
  have h8 : keysLost s s8 := h7.trans (keysLost.forAll_if (fun t b => abortBench_keysLost t b row) _ s7)
  exact h8.trans (keysLost.forAll_if (fun t c => abortCtx_keysLost t c) _ s8)

theorem keysLost.seat_eq {s t : State} (h : keysLost s t) (m : Nat) : (getJob t m).seat = (getJob s m).seat := by
  obtain ⟨ks, hjob, _⟩ := h m
  rw [hjob]

theorem keysLost.status_eq {s t : State} (h : keysLost s t) (m : Nat) : (getJob t m).status = (getJob s m).status := by
  obtain ⟨ks, hjob, _⟩ := h m
  rw [hjob]

theorem keysLost.cls_eq {s t : State} (h : keysLost s t) (m : Nat) : (getJob t m).cls = (getJob s m).cls := by
  obtain ⟨ks, hjob, _⟩ := h m
  rw [hjob]

/-- A job whose state is destroyed at its end (R82 step 3). -/
def jobCleared (x : Job) : Job :=
  { ring := x.ring, seq := x.seq, entry := x.entry, word0 := x.word0, cls := x.cls, seat := .ended, status := x.status
    noStatus := x.noStatus, bell := x.bell, isOver := true, occ := x.occ, onLane := x.onLane, endLane := x.endLane, settled := x.settled }

/-- The end of a job clears it once its keys, its holdings and its reads are given up. -/
theorem clearJob_clears (s : State) (j : Nat) : ∃ u, clearJob s j = modJob u j jobCleared ∧ keysLost s u := by
  refine ⟨_, rfl, ?_⟩
  refine keysLost.trans ?_ (.of_keeps (keeps_orphanReads _ j) rfl)
  refine keysLost.trans ?_ (keysLost.forAll_if (fun t c => dropCtxHolding_keysLost t c) _ _)
  exact (releaseKeys_keysLost s j).trans (keysLost.forAll_if (fun t b => wipeBench_keysLost t b 4) _ _)

/-- A job cleared at its end has the status that it ended with. -/
theorem getJob_clearJob_same (s : State) (j : Nat) :
    (getJob (clearJob s j) j).seat = .ended ∧ (getJob (clearJob s j) j).isOver = true ∧
      (getJob (clearJob s j) j).status = (getJob s j).status := by
  obtain ⟨u, hu, hlost⟩ := clearJob_clears s j
  rw [hu, getJob_modJob_same]
  exact ⟨rfl, rfl, hlost.status_eq j⟩

@[simp] theorem getJob_upMuster (s : State) (f : MusterRec → MusterRec) (k : Nat) : getJob (upMuster s f) k = getJob s k := rfl

/-- The settlement of a job notes that it is settled, and of Muster moves the bucket's level alone. -/
theorem settle_fields (s : State) (j : Nat) :
    (∀ k, ∃ b, getJob (settle s j) k = { getJob s k with settled := b }) ∧
      ∃ v, (settle s j).muster = { s.muster with cbLevel := v } := by
  unfold settle
  extract_lets x m top v s1
  split
  · exact ⟨fun _ => ⟨_, rfl⟩, _, rfl⟩
  · refine ⟨fun k => ?_, _, rfl⟩
    rw [getJob_upMuster]
    by_cases h : k = j
    · subst h
      exact ⟨true, getJob_modJob_same s k (fun x => { x with settled := true })⟩
    · exact ⟨_, getJob_modJob_other _ _ h⟩

/-! ### A job that ends outside the lanes (R130) -/

theorem whenS_cases (c : Bool) (f : State → State) (s : State) : whenS c f s = s ∨ whenS c f s = f s := by
  cases c
  · exact .inl rfl
  · exact .inr rfl

/-- A job that ends outside the lanes has ended with its status, and stands in no queue of Muster. -/
theorem endAside_ends (s : State) (j : Nat) (st : Status) :
    (getJob (endAside s j st none) j).seat = .ended ∧ (getJob (endAside s j st none) j).isOver = true ∧
      (getJob (endAside s j st none) j).status = st ∧
      j ∉ (endAside s j st none).muster.arrCourier ∧ j ∉ (endAside s j st none).muster.arrOther := by
  unfold endAside finishJob
  extract_lets x s1 s2
  have hdropped : (getJob (dropWork (modJob s j (fun x => { x with status := st, isOver := true })) j 2) j).status = st := by
    rw [(dropWork_keysLost _ j 2).status_eq, getJob_modJob_same]
  have hstatus : (getJob s1 j).status = st := by
    rw [(keepsBut.step (keeps_unqueue _ _) (by decide) ((keeps_unseat _ _).sub (by decide)) :
      keepsBut [.lanes, .muster] _ s1).getJob_eq rfl, hdropped]
  have hqueues : j ∉ s1.muster.arrCourier ∧ j ∉ s1.muster.arrOther := by simp [s1, unqueue]
  obtain ⟨hseat, hover, hcleared⟩ := getJob_clearJob_same s1 j
  have hmuster : (clearJob s1 j).muster = s1.muster := (keeps_clearJob s1 j).muster_eq rfl
  have hdone : s2 = clearJob s1 j ∨ s2 = settle (clearJob s1 j) j := whenS_cases _ _ _
  dsimp only
  clear_value s2 s1
  rcases hdone with h | h <;> rw [h]
  · rw [hmuster]
    exact ⟨hseat, hover, hcleared.trans hstatus, hqueues⟩
  · obtain ⟨hjobs, v, hm⟩ := settle_fields (clearJob s1 j) j
    obtain ⟨b, hj⟩ := hjobs j
    rw [hj, hm, hmuster]
    dsimp only
    exact ⟨hseat, hover, hcleared.trans hstatus, hqueues⟩

/-! ### ADMISSION (R126, R127, R129, R130) -/

theorem exec_admission {s : State} {j : Nat} (h : (s.muster.arrCourier ++ s.muster.arrOther).find? (admitMay s) = some j) :
    exec .admission s = .next (admitJob s j) := by
  show execAdmission s = _
  rw [execAdmission, h]

/-- A job that is not refused joins the queue of the class that admission gives it. -/
theorem admitJob_of_accepted {s : State} {j : Nat} (hr : entryRefused (getJob s j).word0 = false)
    (hy : e0Yoke (getJob s j).word0 = true → anyYoke s = true) :
    admitJob s j = enqueue (classify (unqueue s j) j).2 j (classify (unqueue s j) j).1 := by
  refine if_neg ?_
  rw [hr, show anyYoke (unqueue s j) = anyYoke s from rfl]
  simpa using hy

theorem admitJob_of_refused {s : State} {j : Nat}
    (h : entryRefused (getJob s j).word0 = true ∨ (e0Yoke (getJob s j).word0 = true ∧ anyYoke s = false)) :
    admitJob s j = endAside (unqueue s j) j .encoding none := by
  refine if_pos ?_
  rw [show anyYoke (unqueue s j) = anyYoke s from rfl]
  simpa using h

section
variable {s : State} {j : Nat}

theorem classify_post (h : e0Class (getJob s j).word0 = 1) : classify s j = (.post, s) := by
  simp [classify, h]

theorem classify_freight (h : e0Class (getJob s j).word0 = 2) : classify s j = (.freight, s) := by
  simp [classify, h]

theorem classify_ballast (h : e0Class (getJob s j).word0 = 3) : classify s j = (.ballast, s) := by
  simp [classify, h]

theorem classify_other_ring (h : e0Class (getJob s j).word0 = 0) (hr : (getRing s (getJob s j).ring).courier = false) :
    classify s j = (.post, s) := by
  simp [classify, h, hr]

/-- The bucket that lets a Courier job in is charged. -/
theorem classify_courier (h : e0Class (getJob s j).word0 = 0) (hr : (getRing s (getJob s j).ring).courier = true)
    (hc : 1024 * (chargeVal s : Int) ≤ s.muster.cbLevel) :
    classify s j = (.courier, upMuster s (fun m => { m with
      cbLevel := m.cbLevel - 1024 * (chargeVal s : Int), cbAdmitted := m.cbAdmitted + 1 })) := by
  simp [classify, h, hr, hc]

/-- A Courier job that finds the bucket below its charge is demoted. -/
theorem classify_demoted (h : e0Class (getJob s j).word0 = 0) (hr : (getRing s (getJob s j).ring).courier = true)
    (hc : s.muster.cbLevel < 1024 * (chargeVal s : Int)) :
    classify s j = (.post, upMuster s (fun m => { m with cbDemoted := m.cbDemoted + 1 })) := by
  simp [classify, h, hr, Int.not_le.mpr hc]

end

theorem getJob_enqueue_same (s : State) (j : Nat) (c : JobClass) :
    getJob (enqueue s j c) j = { getJob s j with cls := c, seat := .queued, adm := s.muster.admitSeq } := by
  simp only [enqueue, getJob_upMuster, getJob_modJob_same]

theorem getJob_enqueue_other (s : State) {j k : Nat} (c : JobClass) (h : k ≠ j) : getJob (enqueue s j c) k = getJob s k := by
  simp only [enqueue, getJob_upMuster, getJob_modJob_other _ _ h]

theorem enqueue_cbLevel (s : State) (j : Nat) (c : JobClass) : (enqueue s j c).muster.cbLevel = s.muster.cbLevel := by
  cases c <;> rfl

theorem enqueue_cbAdmitted (s : State) (j : Nat) (c : JobClass) : (enqueue s j c).muster.cbAdmitted = s.muster.cbAdmitted := by
  cases c <;> rfl

theorem enqueue_cbDemoted (s : State) (j : Nat) (c : JobClass) : (enqueue s j c).muster.cbDemoted = s.muster.cbDemoted := by
  cases c <;> rfl

/-- A job stands last in the queue that it has joined. -/
theorem enqueue_last (s : State) (j : Nat) (c : JobClass) : (classQueue (enqueue s j c) c).getLast? = some j := by
  cases c <;> exact List.getLast?_concat

/-- Settles O31: a job that is not refused is queued, in each class by its waybill or by its ring and the bucket; one that is refused ends
with ENCODING. -/
theorem admissionClassifies : Obligations.AdmissionClassifies := by
  unfold Obligations.AdmissionClassifies
  refine ⟨fun j s hfind hr hy => ?_, fun j s hfind h => ?_⟩
  · have hclassified : keepsBut [.muster] s (classify (unqueue s j) j).2 :=
      keepsBut.step (keeps_classify _ _) (by decide) (keeps_unqueue s j)
    refine ⟨_, exec_admission hfind, ?_⟩
    rw [admitJob_of_accepted hr hy]
    refine ⟨by rw [getJob_enqueue_same], ⟨fun hc => ?_, fun hc => ?_, fun hc => ?_, fun hc hring => ?_, fun hc hring hlevel => ?_,
      fun hc hring hlevel => ?_⟩, fun k hk => ?_, keepsBut.step (keeps_enqueue _ _ _) (by decide) (hclassified.sub (by decide))⟩
    · rw [classify_post (s := unqueue s j) hc, getJob_enqueue_same]
      exact ⟨rfl, enqueue_cbLevel _ _ _, enqueue_last _ _ .post⟩
    · rw [classify_freight (s := unqueue s j) hc, getJob_enqueue_same]
      exact ⟨rfl, enqueue_cbLevel _ _ _, enqueue_last _ _ .freight⟩
    · rw [classify_ballast (s := unqueue s j) hc, getJob_enqueue_same]
      exact ⟨rfl, enqueue_cbLevel _ _ _, enqueue_last _ _ .ballast⟩
    · rw [classify_other_ring (s := unqueue s j) hc hring, getJob_enqueue_same]
      exact ⟨rfl, enqueue_cbLevel _ _ _⟩
    · rw [classify_courier (s := unqueue s j) hc hring hlevel, getJob_enqueue_same]
      exact ⟨rfl, enqueue_last _ _ .courier, enqueue_cbLevel _ _ _, enqueue_cbAdmitted _ _ _⟩
    · rw [classify_demoted (s := unqueue s j) hc hring hlevel, getJob_enqueue_same]
      exact ⟨rfl, enqueue_cbLevel _ _ _, enqueue_cbDemoted _ _ _⟩
    · rw [getJob_enqueue_other _ _ hk, hclassified.getJob_eq rfl]
  · have keep := keeps_admitJob s j
    refine ⟨_, exec_admission hfind, ?_⟩
    rw [admitJob_of_refused h] at keep ⊢
    obtain ⟨hseat, hover, hstatus, hcourier, hother⟩ := endAside_ends (unqueue s j) j .encoding
    exact ⟨hseat, hover, hstatus, hcourier, hother, keep.fuse_eq rfl, keep.mode_eq rfl, keep.1⟩

end Sys2Proof.Machine
end

section
/-! SUPPORT. Placement (R131 to R136, R154): what the first reads of a job leave of the jobs, what a placement leaves on the lanes, how a
job enters execution, and the proof of O32. -/

namespace Sys2Proof.Machine

/-! ### The first reads of a job (R145, R154) -/

/-- From `s` to `t` the jobs have asked for data at most. -/
def readsAsked (s t : State) : Prop := ∀ m, ∃ a n, getJob t m = { getJob s m with asked := a, fragAsked := n }

theorem readsAsked.refl (s : State) : readsAsked s s := fun _ => ⟨_, _, rfl⟩

theorem readsAsked.trans {s t u : State} (h : readsAsked s t) (h' : readsAsked t u) : readsAsked s u := fun m => by
  obtain ⟨a, n, hjob⟩ := h m
  obtain ⟨a', n', hjob'⟩ := h' m
  exact ⟨a', n', by rw [hjob', hjob]⟩

/-- What leaves the jobs asks for nothing. -/
theorem readsAsked.of_keeps {W : List Part} {s t : State} (h : keepsBut W s t) (hp : W.contains .jobs = false) : readsAsked s t :=
  fun m => ⟨_, _, h.getJob_eq hp m⟩

theorem readsAsked.seat_eq {s t : State} (h : readsAsked s t) (m : Nat) : (getJob t m).seat = (getJob s m).seat := by
  obtain ⟨a, n, hjob⟩ := h m
  rw [hjob]

theorem modJob_asked_readsAsked (s : State) (j : Nat) (a : Table Nat) : readsAsked s (modJob s j (fun x => { x with asked := a })) :=
  fun m => by
    by_cases h : m = j
    · subst h
      exact ⟨a, _, getJob_modJob_same s m (fun x => { x with asked := a })⟩
    · exact ⟨_, _, getJob_modJob_other s _ h⟩

theorem modJob_fragAsked_readsAsked (s : State) (j n : Nat) : readsAsked s (modJob s j (fun x => { x with fragAsked := n })) :=
  fun m => by
    by_cases h : m = j
    · subst h
      exact ⟨_, n, getJob_modJob_same s m (fun x => { x with fragAsked := n })⟩
    · exact ⟨_, _, getJob_modJob_other s _ h⟩

theorem askStream_readsAsked (s : State) (j : Nat) (w : Need) : readsAsked s (askStream s j w) := by
  unfold askStream
  extract_lets x lo hi s1
  split
  · exact readsAsked.refl s
  · have h1 : readsAsked s s1 := modJob_asked_readsAsked s j _
    refine h1.trans (.of_keeps (W := [.ai, .ration]) ?_ rfl)
    exact keepsBut.fold (fun t p => keeps_issueAccess t _ _ _ _ _) _ s1 (keepsBut.refl _ s1)

theorem askManifest_readsAsked (s : State) (j : Nat) : readsAsked s (askManifest s j) := by
  unfold askManifest
  extract_lets x b s1
  split
  · exact readsAsked.refl s
  · exact (modJob_fragAsked_readsAsked s j _).trans (.of_keeps (keeps_issueAccess s1 _ _ _ _ _) rfl)

theorem askBlock_readsAsked (s : State) (j : Nat) : readsAsked s (askBlock s j) := by
  unfold askBlock
  split
  · exact askManifest_readsAsked s j
  · exact readsAsked.refl s

theorem readAhead_readsAsked (j : Nat) (a : Ahead) (st : Nat) (n : Option Nat) : readsAsked a.s (readAhead j a st n).s := by
  unfold readAhead
  extract_lets x from_ till top
  split
  · exact readsAsked.refl a.s
  · exact askStream_readsAsked a.s j _

theorem writeAhead_state (j : Nat) (a : Ahead) (st : Nat) (n : Option Nat) : (writeAhead j a st n).s = a.s := by
  cases n <;> rfl

theorem useAhead_readsAsked (j : Nat) (a : Ahead) (u : StreamUse) : readsAsked a.s (useAhead j a u).s := by
  cases u with
  | read st n => exact readAhead_readsAsked j a st n
  | bale st => exact readAhead_readsAsked j a st _
  | readSame st =>
    rw [useAhead]
    split
    · exact readAhead_readsAsked j a st _
    · exact readsAsked.refl a.s
  | write st n => exact (writeAhead_state j a st n).symm ▸ readsAsked.refl a.s
  | writeSame st => exact (writeAhead_state j a st a.last).symm ▸ readsAsked.refl a.s

theorem foldl_useAhead_readsAsked (j : Nat) (us : List StreamUse) (a : Ahead) : readsAsked a.s (us.foldl (useAhead j) a).s := by
  induction us generalizing a with
  | nil => exact readsAsked.refl a.s
  | cons u us ih => exact (useAhead_readsAsked j a u).trans (ih _)

theorem prefetch_readsAsked (s : State) (j : Nat) : readsAsked s (prefetch s j) := foldl_useAhead_readsAsked j _ { s := s }

theorem startReads_readsAsked (s : State) (j : Nat) : readsAsked s (startReads s j) := by
  unfold startReads
  extract_lets x
  split
  · exact readsAsked.refl s
  split
  · split
    · exact askBlock_readsAsked s j
    · exact readsAsked.refl s
  · exact prefetch_readsAsked s j

/-! ### COURIER_PLACEMENT (R132, R154) -/

theorem getLane_displace_same (s : State) (l : Nat) : getLane (displace s l) l = { getLane s l with prep := none, setup := none } := by
  unfold displace
  extract_lets js
  rw [getLane_modLane_same, (keepsBut.each (fun t k => keeps_unprepare t k) (keepsBut.refl _ s) :
    keepsBut [.jobs, .serai] s (forAll js unprepare s)).getLane_eq rfl]

theorem getLane_displace_other (s : State) {l k : Nat} (h : k ≠ l) : getLane (displace s l) k = getLane s k := by
  unfold displace
  extract_lets js
  rw [getLane_modLane_other _ _ h, (keepsBut.each (fun t k => keeps_unprepare t k) (keepsBut.refl _ s) :
    keepsBut [.jobs, .serai] s (forAll js unprepare s)).getLane_eq rfl]

theorem exec_courierPlacement {s : State} {j l : Nat} (hj : s.muster.courierQ.find? (placeMay s) = some j)
    (hl : courierTarget s j = some l) : exec .courierPlacement s = .next (placeCourier s l j) := by
  show execCourierPlacement s = _
  rw [execCourierPlacement, hj]
  dsimp only
  rw [hl]

/-- A Courier job that is placed takes its seat, once its first reads are asked for. -/
theorem seat_placeCourier (s : State) (l j : Nat) : (getJob (placeCourier s l j) j).seat = .staged l := by
  unfold placeCourier
  rw [(startReads_readsAsked _ j).seat_eq, getJob_modJob_same]

/-- The target of a Courier job: the job waits on it, preparation and setup are empty, and a running job is asked to stop. -/
theorem getLane_placeCourier_same (s : State) (l j : Nat) :
    getLane (placeCourier s l j) l =
      { getLane s l with prep := none, setup := none, courier := some j, preempt := (getLane s l).run.isSome } := by
  unfold placeCourier
  rw [(keeps_startReads _ j).getLane_eq rfl, (keeps_modJob _ j _).getLane_eq rfl, getLane_modLane_same, getLane_displace_same,
    (keeps_unqueue s j).getLane_eq rfl]

theorem getLane_placeCourier_other (s : State) {l k : Nat} (j : Nat) (h : k ≠ l) : getLane (placeCourier s l j) k = getLane s k := by
  unfold placeCourier
  rw [(keeps_startReads _ j).getLane_eq rfl, (keeps_modJob _ j _).getLane_eq rfl, getLane_modLane_other _ _ h,
    getLane_displace_other _ h, (keeps_unqueue s j).getLane_eq rfl]

/-! ### Targets (R131, R134, R169) -/

/-- A yoke is told by the units and by what puts a lane out of use. -/
theorem members_congr {s t : State} (hu : t.units = s.units) (hf : ∀ k, (getLane t k).faulted = (getLane s k).faulted)
    (hr : ∀ k, (getLane t k).retest = (getLane s k).retest) (l : Nat) : members t l = members s l := by
  have hout : ∀ k, laneOut t k = laneOut s k := fun k => by rw [laneOut, getUnit, hu, hf, hr, laneOut, getUnit]
  have hyoke : yokeFormed t l = yokeFormed s l := by rw [yokeFormed, getUnit, hu, hout, hout, yokeFormed, getUnit]
  rw [members, hyoke, members]

theorem mem_of_argMin (key : Nat → Nat) {ls : List Nat} {l : Nat} (h : argMin key ls = some l) : l ∈ ls := by
  induction ls generalizing l with
  | nil => cases h
  | cons a as ih =>
    rw [argMin] at h
    cases hm : argMin key as with
    | none =>
      rw [hm] at h
      cases h
      exact List.mem_cons_self
    | some b =>
      rw [hm] at h
      dsimp only at h
      split at h
      · cases h
        exact List.mem_cons_self
      · cases h
        exact List.mem_cons_of_mem a (ih hm)

/-- A reserved target accepts a job of another class than Courier only when it is idle: it holds no staged job. -/
theorem staged_of_targetFor_reserved {s : State} {j l : Nat} (h : targetFor s j = some l) (hr : anyReserved s l = true) :
    (getLane s l).staged = [] := by
  have haccepts : acceptsJob s j l = true := (List.mem_filter.mp (mem_of_argMin _ h)).2
  simp only [acceptsJob, hr, Bool.and_eq_true, Bool.not_true, Bool.false_or] at haccepts
  obtain ⟨_, ⟨hidle, _⟩, _⟩ := haccepts
  simp only [laneIdle, Bool.and_eq_true, decide_eq_true_eq] at hidle
  exact hidle.2

/-! ### PLACEMENT (R133 to R135) -/

/-- A job staged on its target, with its class's turn noted and its first reads asked for. -/
def jobStaged (s : State) (l j : Nat) : State :=
  startReads (modJob (modLane (upMuster (unqueue s j) (fun m => { m with
    lastLane := l
    lastPost := if (getJob s j).cls = .post then (getJob s j).ring else m.lastPost
    lastFreight := if (getJob s j).cls = .freight then (getJob s j).ring else m.lastFreight
    lastBallast := if (getJob s j).cls = .ballast then (getJob s j).ring else m.lastBallast })) l
      (fun n => { n with staged := n.staged ++ [j] })) j (fun x => { x with seat := .staged l })) j

theorem placeJob_eq (s : State) (l j : Nat) :
    placeJob s l j = if anyReserved (jobStaged s l j) l then enterLane (jobStaged s l j) l j else jobStaged s l j := rfl

theorem keeps_jobStaged (s : State) (l j : Nat) : keepsBut [.jobs, .lanes, .muster, .ai, .ration] s (jobStaged s l j) :=
  keepsBut.step (keeps_startReads _ _) (by decide) (keepsBut.step (keeps_modJob _ _ _) (by decide)
    (keepsBut.step (keeps_modLane _ _ _) (by decide) (keepsBut.step (keeps_upMuster _ _) (by decide)
      ((keeps_unqueue s j).sub (by decide)))))

theorem seat_jobStaged (s : State) (l j : Nat) : (getJob (jobStaged s l j) j).seat = .staged l := by
  rw [jobStaged, (startReads_readsAsked _ j).seat_eq, getJob_modJob_same]

theorem getLane_jobStaged_same (s : State) (l j : Nat) :
    getLane (jobStaged s l j) l = { getLane s l with staged := (getLane s l).staged ++ [j] } := by
  rw [jobStaged, (keeps_startReads _ j).getLane_eq rfl, (keeps_modJob _ j _).getLane_eq rfl, getLane_modLane_same]
  rfl

theorem getLane_jobStaged_other (s : State) {l k : Nat} (j : Nat) (h : k ≠ l) : getLane (jobStaged s l j) k = getLane s k := by
  rw [jobStaged, (keeps_startReads _ j).getLane_eq rfl, (keeps_modJob _ j _).getLane_eq rfl, getLane_modLane_other _ _ h]
  rfl

theorem jobStaged_lastLane (s : State) (l j : Nat) : (jobStaged s l j).muster.lastLane = l := by
  rw [jobStaged, (keeps_startReads _ j).muster_eq rfl]
  rfl

theorem jobStaged_reserve (s : State) (l j : Nat) : (jobStaged s l j).muster.reserve = s.muster.reserve := by
  rw [jobStaged, (keeps_startReads _ j).muster_eq rfl]
  rfl

/-- A job that is staged leaves its target reserved or not. -/
theorem anyReserved_jobStaged (s : State) (l j : Nat) : anyReserved (jobStaged s l j) l = anyReserved s l := by
  have hlane : ∀ k, ∃ js, getLane (jobStaged s l j) k = { getLane s k with staged := js } := by
    intro k
    by_cases h : k = l
    · subst h
      exact ⟨_, getLane_jobStaged_same s k j⟩
    · exact ⟨_, getLane_jobStaged_other s j h⟩
  have hmembers : members (jobStaged s l j) l = members s l := by
    refine members_congr ((keeps_jobStaged s l j).units_eq rfl) (fun k => ?_) (fun k => ?_) l <;>
    · obtain ⟨js, hjs⟩ := hlane k
      rw [hjs]
  rw [anyReserved, hmembers, jobStaged_reserve, anyReserved]

theorem exec_placement {s : State} {j l : Nat} (hq : s.muster.courierQ = []) (hj : (classOrder s).findSome? (classJob s) = some j)
    (hl : targetFor s j = some l) : exec .placement s = .next (placeJob s l j) := by
  show execPlacement s = _
  simp [execPlacement, hq, hj, hl]

/-! ### Entry into execution (R80, R135) -/

theorem getLane_execute_same (s : State) (l j : Nat) : getLane (execute s l j) l = { getLane s l with run := some j } := by
  unfold execute
  extract_lets s1 s2
  have h2 : getLane s2 l = { getLane s l with run := some j } := by
    rw [(keeps_modJob s1 j _).getLane_eq rfl, getLane_modLane_same]
  split
  · rw [(keeps_endHard s2 j _).getLane_eq rfl, h2]
  · exact h2

theorem getLane_execute_other (s : State) {l k : Nat} (j : Nat) (h : k ≠ l) : getLane (execute s l j) k = getLane s k := by
  unfold execute
  extract_lets s1 s2
  have h2 : getLane s2 k = getLane s k := by
    rw [(keeps_modJob s1 j _).getLane_eq rfl, getLane_modLane_other _ _ h]
  split
  · rw [(keeps_endHard s2 j _).getLane_eq rfl, h2]
  · exact h2

theorem seat_endHard (s : State) (j : Nat) (st : Status) : (getJob (endHard s j st) j).seat = (getJob s j).seat := by
  rw [endHard, getJob_modJob_same]
  dsimp only
  exact (dropWork_keysLost s j 2).seat_eq j

theorem seat_execute (s : State) (l j : Nat) : (getJob (execute s l j) j).seat = .running l := by
  unfold execute
  extract_lets s1 s2
  have h2 : (getJob s2 j).seat = .running l := by rw [getJob_modJob_same]
  split
  · rw [seat_endHard, h2]
  · exact h2

/-- The lane that a job enters: the job runs there, and is staged, placed, prepared and set up no more. -/
theorem getLane_enterLane_same (s : State) (l j : Nat) :
    getLane (enterLane s l j) l = { getLane s l with
      run := some j, staged := (getLane s l).staged.filter (fun k => k ≠ j)
      courier := if (getLane s l).courier = some j then none else (getLane s l).courier
      prep := if (getLane s l).prep = some j then none else (getLane s l).prep
      setup := if (getLane s l).setup = some j then none else (getLane s l).setup } := by
  unfold enterLane
  extract_lets s1 s2
  have h1 : getLane s1 l = getLane s l := by
    dsimp only [s1]
    split
    · rfl
    · exact (keeps_startJob s l j).getLane_eq rfl l
  rw [getLane_execute_same, (keeps_modJob s2 j _).getLane_eq rfl, getLane_modLane_same, h1]

theorem getLane_enterLane_other (s : State) {l k : Nat} (j : Nat) (h : k ≠ l) : getLane (enterLane s l j) k = getLane s k := by
  unfold enterLane
  extract_lets s1 s2
  have h1 : getLane s1 k = getLane s k := by
    dsimp only [s1]
    split
    · rfl
    · exact (keeps_startJob s l j).getLane_eq rfl k
  rw [getLane_execute_other _ j h, (keeps_modJob s2 j _).getLane_eq rfl, getLane_modLane_other _ _ h, h1]

theorem seat_enterLane (s : State) (l j : Nat) : (getJob (enterLane s l j) j).seat = .running l := seat_execute _ l j

/-- Settles O32: a Courier job on its target, another job among the staged jobs of its target, and one on a reserved target in execution. -/
theorem placementSeatsJobs : Obligations.PlacementSeatsJobs := by
  unfold Obligations.PlacementSeatsJobs
  refine ⟨fun j l s hj hl => ?_, fun j l s hq hj hl hr => ?_, fun j l s hq hj hl hr => ?_⟩
  · refine ⟨_, exec_courierPlacement hj hl, seat_placeCourier s l j, ?_⟩
    rw [getLane_placeCourier_same]
    exact ⟨rfl, rfl, rfl, rfl, rfl, rfl, rfl, fun k hk => getLane_placeCourier_other s j hk, keeps_placeCourier s l j⟩
  · have hplaced : placeJob s l j = jobStaged s l j := by
      rw [placeJob_eq, anyReserved_jobStaged, hr]
      rfl
    refine ⟨_, exec_placement hq hj hl, ?_⟩
    rw [hplaced]
    exact ⟨seat_jobStaged s l j, jobStaged_lastLane s l j, getLane_jobStaged_same s l j, fun k hk => getLane_jobStaged_other s j hk,
      keeps_jobStaged s l j⟩
  · have hplaced : placeJob s l j = enterLane (jobStaged s l j) l j := by
      rw [placeJob_eq, anyReserved_jobStaged, hr]
      rfl
    have keep := keeps_placeJob s l j
    refine ⟨_, exec_placement hq hj hl, ?_⟩
    rw [hplaced] at keep ⊢
    refine ⟨seat_enterLane _ l j, ?_, ?_, ?_, fun k hk => ?_, keep.fuse_eq rfl, keep.mode_eq rfl, keep.1⟩
    · rw [(keeps_enterLane _ l j).muster_eq rfl, jobStaged_lastLane]
    · rw [getLane_enterLane_same]
    · rw [getLane_enterLane_same, getLane_jobStaged_same]
      simp [staged_of_targetFor_reserved hl hr]
    · rw [getLane_enterLane_other _ j hk, getLane_jobStaged_other s j hk]

end Sys2Proof.Machine
end

section
/-! SUPPORT. Preemption, resumption and windows (R133, R135, R137, R142, R157, R158, R170): what a change of every lane of a target leaves
on the lanes, what the return of staged jobs leaves in the jobs, the lanes and Muster's queues, and the proof of O33. -/

namespace Sys2Proof.Machine

/-! ### Changes of every lane of a target (R169, R170) -/

/-- A change of each of some lanes is made once on each. -/
theorem getLane_forAll_modLane (f : LaneRec → LaneRec) {ls : List Nat} (h : ls.Nodup) (s : State) (k : Nat) :
    getLane (forAll ls (fun s l => modLane s l f) s) k = if k ∈ ls then f (getLane s k) else getLane s k := by
  induction ls generalizing s with
  | nil => rfl
  | cons l ls ih =>
    obtain ⟨hl, hnodup⟩ := List.nodup_cons.mp h
    show getLane (forAll ls (fun s l => modLane s l f) (modLane s l f)) k = _
    rw [ih hnodup]
    by_cases hk : k = l
    · subst hk
      simp [hl]
    · rw [getLane_modLane_other _ _ hk]
      simp [hk]

theorem keeps_forAll_modLane (ls : List Nat) (f : LaneRec → LaneRec) (s : State) :
    keepsBut [.lanes] s (forAll ls (fun s l => modLane s l f) s) :=
  keepsBut.each (fun t l => keeps_modLane t l f) (keepsBut.refl _ s)

theorem members_nodup (s : State) (l : Nat) : (members s l).Nodup := by
  unfold members
  split
  · simp
  · simp

/-- A change of one lane that does not put it out of use, or back into it, leaves the lanes of every target. -/
theorem members_modLane (s : State) {l : Nat} {f : LaneRec → LaneRec} (hf : (f (getLane s l)).faulted = (getLane s l).faulted)
    (hr : (f (getLane s l)).retest = (getLane s l).retest) (k : Nat) : members (modLane s l f) k = members s k := by
  refine members_congr (modLane_units s l f) (fun m => ?_) (fun m => ?_) k
  · by_cases h : m = l
    · rw [h, getLane_modLane_same, hf]
    · rw [getLane_modLane_other _ _ h]
  · by_cases h : m = l
    · rw [h, getLane_modLane_same, hr]
    · rw [getLane_modLane_other _ _ h]

/-! ### PREEMPTION_SAVE (R137, R157, R170) -/

/-- A lane whose running job `j` is saved. -/
def jobSaved (j : Nat) (n : LaneRec) : LaneRec := { n with run := none, saved := j :: n.saved, preempt := false }

/-- A lane that has written `image` to a save slot for job `j`. -/
def slotWritten (j : Nat) (image : List Byte) (n : LaneRec) : LaneRec := { n with slots := (j, image) :: n.slots }

/-- The lanes of a target whose running job `j` is saved. -/
def savedLanes (s : State) (l j : Nat) : State :=
  forAll (members s l) (fun t k => modLane t k (slotWritten j (saveImage s j))) (modLane s l (jobSaved j))

theorem keeps_savedLanes (s : State) (l j : Nat) : keepsBut [.lanes] s (savedLanes s l j) :=
  keepsBut.step (keeps_forAll_modLane _ _ _) (by decide) (keeps_modLane s l _)

theorem getLane_savedLanes_same {s : State} {l : Nat} (j : Nat) (h : l ∈ members s l) :
    getLane (savedLanes s l j) l = slotWritten j (saveImage s j) (jobSaved j (getLane s l)) := by
  rw [savedLanes, getLane_forAll_modLane _ (members_nodup s l), if_pos h, getLane_modLane_same]

theorem getLane_savedLanes_member {s : State} {l k : Nat} (j : Nat) (h : k ∈ members s l) (hk : k ≠ l) :
    getLane (savedLanes s l j) k = slotWritten j (saveImage s j) (getLane s k) := by
  rw [savedLanes, getLane_forAll_modLane _ (members_nodup s l), if_pos h, getLane_modLane_other _ _ hk]

theorem getLane_savedLanes_other {s : State} {l k : Nat} (j : Nat) (hl : l ∈ members s l) (h : k ∉ members s l) :
    getLane (savedLanes s l j) k = getLane s k := by
  rw [savedLanes, getLane_forAll_modLane _ (members_nodup s l), if_neg h, getLane_modLane_other _ _ (ne_of_mem_of_not_mem hl h).symm]

/-- The state after a preemption: the job's seat and what its instruction has taken are noted, and the preemption is counted (R138). -/
def preempted (s : State) (l j : Nat) : State :=
  modUnit (modJob (savedLanes s l j) j (fun x => { x with seat := .saved l, eaten := eatenOf (savedLanes s l j) x }))
    (laneUnit l) (fun u => { u with preempts := u.preempts + 1 })

theorem exec_preemptionSave {l : Fin 16} {j : Nat} {s : State} (hrun : (getLane s l.val).run = some j)
    (hasked : (getLane s l.val).preempt = true) (hmay : preemptable s l.val = true) (hheld : laneHeld s l.val = false) :
    exec (.preemptionSave l) s = .next (preempted s l.val j) := by
  show execPreemptionSave l s = _
  rw [execPreemptionSave]
  simp only [hrun, hasked, hmay, hheld, Bool.and_self, Bool.not_true, Bool.or_self, Bool.false_eq_true, if_false]
  rw [members_modLane s (by rfl) (by rfl)]
  rfl

theorem getLane_preempted (s : State) (l j k : Nat) : getLane (preempted s l j) k = getLane (savedLanes s l j) k :=
  (keepsBut.step (keeps_modUnit _ _ _) (by decide) ((keeps_modJob _ _ _).sub (by decide)) :
    keepsBut [.units, .jobs] (savedLanes s l j) (preempted s l j)).getLane_eq rfl k

theorem getJob_preempted_same (s : State) (l j : Nat) :
    getJob (preempted s l j) j = { getJob s j with seat := .saved l, eaten := eatenOf (savedLanes s l j) (getJob s j) } := by
  rw [preempted, (keeps_modUnit _ _ _).getJob_eq rfl, getJob_modJob_same, (keeps_savedLanes s l j).getJob_eq rfl]

theorem getJob_preempted_other (s : State) (l : Nat) {j k : Nat} (h : k ≠ j) : getJob (preempted s l j) k = getJob s k := by
  rw [preempted, (keeps_modUnit _ _ _).getJob_eq rfl, getJob_modJob_other _ _ h, (keeps_savedLanes s l j).getJob_eq rfl]

theorem preempted_counts (s : State) (l j : Nat) :
    (getUnit (preempted s l j) (laneUnit l)).preempts = (getUnit s (laneUnit l)).preempts + 1 := by
  rw [preempted, getUnit_modUnit_same, (keeps_modJob _ _ _).getUnit_eq rfl, (keeps_savedLanes s l j).getUnit_eq rfl]

theorem keeps_preempted (s : State) (l j : Nat) : keepsBut [.units, .jobs, .lanes] s (preempted s l j) :=
  keepsBut.step (keeps_modUnit _ _ _) (by decide) (keepsBut.step (keeps_modJob _ _ _) (by decide)
    ((keeps_savedLanes s l j).sub (by decide)))

/-! ### RESUMPTION (R135, R158) -/

/-- A lane whose save slots for job `j` are cleared. -/
def slotsCleared (j : Nat) (n : LaneRec) : LaneRec := { n with slots := n.slots.filter (fun c => c.1 ≠ j) }

/-- The lanes of a target whose job `j` goes on, with `rest` still saved. -/
def resumedLanes (s : State) (l j : Nat) (rest : List Nat) : State :=
  forAll (members s l) (fun t k => modLane t k (slotsCleared j)) (modLane s l (fun n => { n with saved := rest }))

theorem keeps_resumedLanes (s : State) (l j : Nat) (rest : List Nat) : keepsBut [.lanes] s (resumedLanes s l j rest) :=
  keepsBut.step (keeps_forAll_modLane _ _ _) (by decide) (keeps_modLane s l _)

theorem getLane_resumedLanes_same {s : State} {l : Nat} (j : Nat) (rest : List Nat) (h : l ∈ members s l) :
    getLane (resumedLanes s l j rest) l = slotsCleared j { getLane s l with saved := rest } := by
  rw [resumedLanes, getLane_forAll_modLane _ (members_nodup s l), if_pos h, getLane_modLane_same]

theorem getLane_resumedLanes_member {s : State} {l k : Nat} (j : Nat) (rest : List Nat) (h : k ∈ members s l) (hk : k ≠ l) :
    getLane (resumedLanes s l j rest) k = slotsCleared j (getLane s k) := by
  rw [resumedLanes, getLane_forAll_modLane _ (members_nodup s l), if_pos h, getLane_modLane_other _ _ hk]

theorem getLane_resumedLanes_other {s : State} {l k : Nat} (j : Nat) (rest : List Nat) (hl : l ∈ members s l) (h : k ∉ members s l) :
    getLane (resumedLanes s l j rest) k = getLane s k := by
  rw [resumedLanes, getLane_forAll_modLane _ (members_nodup s l), if_neg h, getLane_modLane_other _ _ (ne_of_mem_of_not_mem hl h).symm]

/-- What a resumption asks of its lane and of the job saved last (R135, R435). -/
structure Resumes (s : State) (l j : Nat) (rest : List Nat) : Prop where
  saved : (getLane s l).saved = j :: rest
  free : laneFree s l = true
  sound : laneOut s l = false
  moves : jobMoves s l j = true
  noCourier : courierDue s l = false
  notHeld : laneHeld s l = false

theorem exec_resumption {l : Fin 16} {j : Nat} {rest : List Nat} {s : State} (h : Resumes s l.val j rest) :
    exec (.resumption l) s = .next (execute (resumedLanes s l.val j rest) l.val j) := by
  show execResumption l s = _
  rw [execResumption]
  simp only [h.saved, h.free, h.sound, h.moves, h.noCourier, h.notHeld, Bool.and_self, Bool.not_false, if_true]
  rw [members_modLane s (by rfl) (by rfl)]
  rfl

/-- A job that nothing has reached before its entry enters execution as it stands. -/
theorem execute_of_not_stopped {s : State} {j : Nat} (l : Nat) (h : (getJob s j).stop = none) :
    execute s l j = modJob (modLane s l (fun n => { n with run := some j })) j (fun x => { x with
      seat := .running l, onLane := true, stuck := 0, eaten := [] }) := by
  have hstop : (getJob (modJob (modLane s l (fun n => { n with run := some j })) j (fun x => { x with
      seat := .running l, onLane := true, stuck := 0, eaten := [] })) j).stop = none := by
    rw [getJob_modJob_same, (keeps_modLane s l _).getJob_eq rfl]
    exact h
  rw [execute]
  simp only [hstop]

/-! ### The return of staged jobs (R136, R142, R154) -/

theorem staged_unseat (s : State) (j k : Nat) :
    (getLane (unseat s j) k).staged = (getLane s k).staged.filter (fun m => m ≠ j) := by
  unfold unseat getLane
  extract_lets drop
  rw [tget_tmapv _ _ (fun _ => by simp [drop, terase])]

theorem staged_returnJob (s : State) (j k : Nat) :
    (getLane (returnJob s j) k).staged = (getLane s k).staged.filter (fun m => m ≠ j) := by
  unfold returnJob
  extract_lets s1
  have h1 : keepsBut [.jobs, .serai, .ai] (unseat s j) s1 :=
    keepsBut.step (keeps_orphanReads _ _) (by decide) ((keeps_unprepare _ _).sub (by decide))
  rw [(keeps_modJob _ _ _).getLane_eq rfl, h1.getLane_eq rfl, staged_unseat]

theorem getJob_returnJob_other (s : State) {j k : Nat} (h : k ≠ j) : getJob (returnJob s j) k = getJob s k := by
  unfold returnJob unprepare
  rw [getJob_modJob_other _ _ h, (keeps_orphanReads _ _).getJob_eq rfl, getJob_modJob_other _ _ h, getJob_releaseKeys_other _ h,
    (keeps_unseat _ _).getJob_eq rfl]

theorem started_returnJob (s : State) (j : Nat) : (getJob (returnJob s j) j).started = false := by
  unfold returnJob unprepare
  rw [getJob_modJob_same, (keeps_orphanReads _ _).getJob_eq rfl, getJob_modJob_same]

theorem cls_returnJob (s : State) (j k : Nat) : (getJob (returnJob s j) k).cls = (getJob s k).cls := by
  by_cases h : k = j
  · subst h
    unfold returnJob unprepare
    rw [getJob_modJob_same, (keeps_orphanReads _ _).getJob_eq rfl, getJob_modJob_same]
    dsimp only
    exact ((releaseKeys_keysLost _ k).cls_eq k).trans (by rw [(keeps_unseat s k).getJob_eq rfl])
  · rw [getJob_returnJob_other s h]

section
variable {s : State} {js : List Nat}

theorem started_returnJobs {j : Nat} (h : j ∈ js) : (getJob (forAll js returnJob s) j).started = false :=
  forAll_establishes (P := fun t => (getJob t j).started = false) (fun t => started_returnJob t j) (fun t k ht => by
    by_cases hk : j = k
    · subst hk
      exact started_returnJob t j
    · rw [getJob_returnJob_other t hk]
      exact ht) h s

theorem cls_returnJobs (k : Nat) : (getJob (forAll js returnJob s) k).cls = (getJob s k).cls :=
  forAll_other (view := fun t => (getJob t k).cls) (fun t j _ => cls_returnJob t j k) s

/-- A lane whose staged jobs have all returned holds none. -/
theorem staged_returnJobs {l : Nat} (h : ∀ j ∈ (getLane s l).staged, j ∈ js) : (getLane (forAll js returnJob s) l).staged = [] := by
  have hsub : ∀ j, j ∈ (getLane (forAll js returnJob s) l).staged → j ∈ (getLane s l).staged := by
    intro j
    refine forAll_preserves (P := fun t => j ∈ (getLane t l).staged → j ∈ (getLane s l).staged) (fun t k ht hj => ?_) js id
    rw [staged_returnJob] at hj
    exact ht (List.mem_filter.mp hj).1
  have hgone : ∀ j ∈ js, j ∉ (getLane (forAll js returnJob s) l).staged := by
    intro j hj
    refine forAll_establishes (P := fun t => j ∉ (getLane t l).staged) (fun t => ?_) (fun t k ht => ?_) hj s
    · simp [staged_returnJob]
    · rw [staged_returnJob]
      exact fun hm => ht (List.mem_filter.mp hm).1
  exact List.eq_nil_iff_forall_not_mem.mpr fun j hj => hgone j (h j (hsub j hj)) hj

theorem getJob_queueFront {j : Nat} (h : j ∈ js) :
    (getJob (queueFront s js) j).seat = .queued ∧ (getJob (queueFront s js) j).started = (getJob s j).started := by
  unfold queueFront
  extract_lets of_ s1
  rw [getJob_upMuster]
  refine ⟨?_, ?_⟩
  · refine forAll_establishes (P := fun t => (getJob t j).seat = .queued) (fun t => ?_) (fun t k ht => ?_) h s
    · rw [getJob_modJob_same]
    · by_cases hk : j = k
      · rw [hk, getJob_modJob_same]
      · rw [getJob_modJob_other _ _ hk, ht]
  · refine forAll_other (view := fun t => (getJob t j).started) (fun t k _ => ?_) s
    by_cases hk : j = k
    · rw [hk, getJob_modJob_same]
    · rw [getJob_modJob_other _ _ hk]

/-- The jobs go to the front of the queue of their class, in the order of the list. -/
theorem queueFront_muster : (queueFront s js).muster =
    let of_ := fun (c : JobClass) => js.filter (fun j => (getJob s j).cls = c)
    { s.muster with
      courierQ := of_ .courier ++ s.muster.courierQ, postQ := of_ .post ++ s.muster.postQ
      freightQ := of_ .freight ++ s.muster.freightQ, ballastQ := of_ .ballast ++ s.muster.ballastQ } := by
  unfold queueFront
  extract_lets of_ s1
  have h1 : keepsBut [.jobs] s s1 := keepsBut.each (fun t k => keeps_modJob t k _) (keepsBut.refl _ s)
  rw [upMuster_muster, h1.muster_eq rfl]

end

/-! ### The order of admission (R142) -/

/-- Job `a` was admitted no later than job `b`. -/
abbrev admittedFirst (s : State) (a b : Nat) : Prop := (getJob s a).adm ≤ (getJob s b).adm

theorem mem_insertAdm (s : State) (j k : Nat) (js : List Nat) : k ∈ insertAdm s j js ↔ k = j ∨ k ∈ js := by
  induction js with
  | nil => exact List.mem_singleton.trans (by simp only [List.not_mem_nil, or_false])
  | cons m ms ih =>
    rw [insertAdm]
    split
    · exact List.mem_cons
    · rw [List.mem_cons, List.mem_cons, ih, or_left_comm]

/-- A job admitted no later than the others goes before them. -/
theorem insertAdm_of_first {s : State} {j : Nat} {js : List Nat} (h : ∀ k ∈ js, admittedFirst s j k) : insertAdm s j js = j :: js := by
  cases js with
  | nil => rfl
  | cons k ks => exact if_pos (h k List.mem_cons_self)

/-- Jobs in the order of their admission (R142). -/
def byAdm (s : State) (js : List Nat) : List Nat := js.foldr (insertAdm s) []

theorem mem_byAdm (s : State) (k : Nat) (js : List Nat) : k ∈ byAdm s js ↔ k ∈ js := by
  induction js with
  | nil => rfl
  | cons j js ih =>
    show k ∈ insertAdm s j (byAdm s js) ↔ _
    rw [mem_insertAdm, ih, List.mem_cons]

/-- Jobs that stand in the order of their admission stay in it. -/
theorem byAdm_of_pairwise {s : State} {js : List Nat} (h : js.Pairwise (admittedFirst s)) : byAdm s js = js := by
  induction js with
  | nil => rfl
  | cons j js ih =>
    obtain ⟨hfirst, hrest⟩ := List.pairwise_cons.mp h
    show insertAdm s j (byAdm s js) = _
    rw [ih hrest, insertAdm_of_first hfirst]

/-- The staged jobs of a lane go back in the order of their admission. -/
theorem returnStaged_eq (s : State) (l : Nat) :
    returnStaged s l = queueFront (forAll (byAdm s (getLane s l).staged) returnJob s) (byAdm s (getLane s l).staged) := by
  simp only [returnStaged, returnLanes, List.flatMap_cons, List.flatMap_nil, List.append_nil, byAdm]

theorem staged_returnStaged (s : State) (l : Nat) : (getLane (returnStaged s l) l).staged = [] := by
  rw [returnStaged_eq, (keeps_queueFront _ _).getLane_eq rfl]
  exact staged_returnJobs fun j hj => (mem_byAdm s j _).mpr hj

theorem getJob_returnStaged {s : State} {l j : Nat} (h : j ∈ (getLane s l).staged) :
    (getJob (returnStaged s l) j).seat = .queued ∧ (getJob (returnStaged s l) j).started = false := by
  have hsorted := (mem_byAdm s j _).mpr h
  rw [returnStaged_eq]
  obtain ⟨hseat, hstarted⟩ := getJob_queueFront (s := forAll _ returnJob s) hsorted
  exact ⟨hseat, hstarted.trans (started_returnJobs hsorted)⟩

/-- Staged jobs that stand in the order of their admission go in that order to the front of the queues of their classes. -/
theorem returnStaged_muster {s : State} {l : Nat} (h : (getLane s l).staged.Pairwise (admittedFirst s)) :
    (returnStaged s l).muster =
      let of_ := fun (c : JobClass) => (getLane s l).staged.filter (fun j => (getJob s j).cls = c)
      { s.muster with
        courierQ := of_ .courier ++ s.muster.courierQ, postQ := of_ .post ++ s.muster.postQ
        freightQ := of_ .freight ++ s.muster.freightQ, ballastQ := of_ .ballast ++ s.muster.ballastQ } := by
  have keep : keepsBut [.jobs, .lanes, .serai, .ai] s (forAll (getLane s l).staged returnJob s) :=
    keepsBut.each (fun t k => keeps_returnJob t k) (keepsBut.refl _ s)
  rw [returnStaged_eq, byAdm_of_pairwise h, queueFront_muster, keep.muster_eq rfl]
  simp only [cls_returnJobs]

/-! ### LAGGARD, SHARE_WINDOW_END and LATMAX_CLEAR (R133, R142, Table 5.5) -/

theorem exec_laggard {l : Fin 16} {s : State} (hlead : leadOf s l.val = l.val) (hlag : isLaggard s l.val = true)
    (hnew : (getLane s l.val).laggard = false) :
    exec (.laggard l) s = .next (modLane (returnStaged s l.val) l.val (fun n => { n with laggard := true })) := by
  show execLaggard l s = _
  simp [execLaggard, hlead, hlag, hnew]

theorem exec_shareWindowEnd {s : State} (h : awake s = true) :
    exec .shareWindowEnd s = .next (upMuster s (fun m => { m with
      measPost := shareOf s m.occPost, measFreight := shareOf s m.occFreight, measBallast := shareOf s m.occBallast
      occPost := 0, occFreight := 0, occBallast := 0, occCourier := 0, winCycles := 0, sharesOff := m.throttle })) := by
  show execShareWindowEnd s = _
  simp [execShareWindowEnd, h]

theorem exec_latmaxClear {p : CtlPort} {s : State} (h : mayTake s p 0x200060 4 = true) :
    exec (.latmaxClear p) s = .next (upAi (tookWrite s p 0x200060 4) (fun a => { a with crLatMax := 0 })) := by
  show execLatmaxClear p s = _
  rw [execLatmaxClear, portSet_of_mayTake (wide := false) h]
  rfl

/-- Settles O33: a preemption, a resumption, a target that becomes a laggard, the end of a share window, and a write of MU_CR_LATMAX. -/
theorem preemptionAndWindows : Obligations.PreemptionAndWindows := by
  unfold Obligations.PreemptionAndWindows
  refine ⟨fun l j s hrun hasked hmay hheld hlead => ?_, fun l j rest s hsaved hfree hout hmoves hdue hheld hlead hstop => ?_,
    fun l s hlead hlag hnew => ?_, fun s hawake => ?_, fun p s hp => ?_⟩
  · refine ⟨_, exec_preemptionSave hrun hasked hmay hheld, ?_⟩
    simp only [getLane_preempted]
    exact ⟨getLane_savedLanes_same j hlead, fun k hk hne => getLane_savedLanes_member j hk hne, by rw [getJob_preempted_same],
      by rw [getJob_preempted_same], preempted_counts s l.val j, fun k hk => getJob_preempted_other s l.val hk,
      fun k hk => getLane_savedLanes_other j hlead hk, keeps_preempted s l.val j⟩
  · have lanes := keeps_resumedLanes s l.val j rest
    have hgoes := execute_of_not_stopped (s := resumedLanes s l.val j rest) (j := j) l.val (by rw [lanes.getJob_eq rfl, hstop])
    have hlane : getLane (execute (resumedLanes s l.val j rest) l.val j) l.val =
        { slotsCleared j { getLane s l.val with saved := rest } with run := some j } := by
      rw [getLane_execute_same, getLane_resumedLanes_same j rest hlead]
    refine ⟨_, exec_resumption ⟨hsaved, hfree, hout, hmoves, hdue, hheld⟩, hlane, ?_, fun k hk => ?_, fun k hk => ?_,
      fun k hk => ?_, ?_⟩
    · rw [hgoes, getJob_modJob_same, (keeps_modLane _ _ _).getJob_eq rfl, lanes.getJob_eq rfl]
    · rw [hgoes, getJob_modJob_other _ _ hk, (keeps_modLane _ _ _).getJob_eq rfl, lanes.getJob_eq rfl]
    · by_cases hne : k = l.val
      · rw [hne, hlane]
        rfl
      · rw [getLane_execute_other _ j hne, getLane_resumedLanes_member j rest hk hne]
        rfl
    · rw [getLane_execute_other _ j (ne_of_mem_of_not_mem hlead hk).symm, getLane_resumedLanes_other j rest hlead hk]
    · rw [hgoes]
      exact keepsBut.step (keeps_modJob _ _ _) (by decide) (keepsBut.step (keeps_modLane _ _ _) (by decide) (lanes.sub (by decide)))
  · have marked := keeps_modLane (returnStaged s l.val) l.val (fun n => { n with laggard := true })
    refine ⟨_, exec_laggard hlead hlag hnew, ?_, ?_, fun j hj => ?_, fun hadm => ?_,
      keepsBut.step marked (by decide) (keeps_returnStaged s l.val)⟩
    · rw [getLane_modLane_same]
    · rw [getLane_modLane_same]
      exact staged_returnStaged s l.val
    · rw [marked.getJob_eq rfl]
      exact getJob_returnStaged hj
    · rw [marked.muster_eq rfl]
      exact returnStaged_muster hadm
  · exact ⟨_, exec_shareWindowEnd hawake, rfl, keeps_upMuster s _⟩
  · have took := keeps_tookWrite s p 0x200060 4
    refine ⟨_, exec_latmaxClear hp, ?_, keeps_upAi _ _⟩
    rw [upAi_ai, took.ai_eq rfl]

end Sys2Proof.Machine
end

section
/-! SUPPORT. The lane pipeline (R65, R80, R82, R154, R160): what a lookup of a leading KEY asks of the jobs, what preparation leaves of its
job, how a job enters execution, what the end of a job leaves in the jobs, the lanes and the units, and the proof of O34. -/

namespace Sys2Proof.Machine

/-! ### Lookups of a leading KEY (R154, R182, R213) -/

/-- A leading KEY of a short bale hits when its tenant record is there, and the lookup finds a slot within its window. -/
theorem keyHits_eq_some {s s' : State} {j k : Nat} {i : W64} : keyHits s j i = some (k, s') ↔
    (wopOf (wOpcode i) = some .key && wB i = 0 && wArg i = 0 && ownerHeld s) = true ∧
      (∃ bs sr, recordUse s j = .here bs sr ∧ lookupKey sr (jobTenant s j) (wIndex i) (parseRecord bs).epoch = (.hit k, s')) ∧
      laneWindowOk s 0 (getSlot s k).notAfter.toNat = true := by
  unfold keyHits
  extract_lets t
  constructor
  · intro h
    split at h
    · cases h
    · next hkey =>
      refine ⟨by simpa using hkey, ?_⟩
      split at h
      · next bs sr hrec =>
        split at h
        · next hlook =>
          split at h
          · next hwindow =>
            cases h
            exact ⟨⟨bs, sr, hrec, hlook⟩, hwindow⟩
          · cases h
        · cases h
      · cases h
  · rintro ⟨hkey, ⟨bs, sr, hrec, hlook⟩, hwindow⟩
    rw [hkey, hrec]
    simp only [t, hlook, hwindow, if_true, Bool.not_true, Bool.false_eq_true, if_false]

theorem keyHits_some_keeps {s s' : State} {j k : Nat} {i : W64} (h : keyHits s j i = some (k, s')) :
    keepsBut [.serai, .mint] s s' := by
  obtain ⟨_, ⟨bs, sr, hrec, hlook⟩, _⟩ := keyHits_eq_some.mp h
  rw [lookupKey_hit hlook]
  exact keepsBut.step (keeps_upSerai _ _) (by decide) (recordUse_here hrec).1

section
variable {s : State} {j : Nat} {f : Job → Job}

theorem returnLease_modJob (s : State) (j k : Nat) (f : Job → Job) : returnLease (modJob s j f) k = modJob (returnLease s k) j f := by
  have hslot : getSlot (modJob s j f) k = getSlot s k := rfl
  simp only [returnLease, hslot]
  split
  · rfl
  · split <;> rfl

theorem returnLent_modJob (s : State) (j m : Nat) (f : Job → Job) : returnLent (modJob s j f) m = modJob (returnLent s m) j f := by
  simp only [returnLent, modJob_mint]
  split
  · rw [returnLease_modJob]
    rfl
  · rfl

theorem jobTenant_modJob (hf : (f (getJob s j)).ring = (getJob s j).ring) : jobTenant (modJob s j f) j = jobTenant s j := by
  have hring : ∀ r, getRing (modJob s j f) r = getRing s r := fun _ => rfl
  rw [jobTenant, getJob_modJob_same, hf, hring, jobTenant]

/-- A job that stays on its ring has its tenant record where it had it. -/
theorem recordUse_modJob_here (hf : (f (getJob s j)).ring = (getJob s j).ring) {bs : List Byte} {sr : State}
    (h : recordUse (modJob s j f) j = .here bs sr) : ∃ u, recordUse s j = .here bs u ∧ sr = modJob u j f := by
  have hmatch : ∀ kind t n c, matchSlots (modJob s j f) kind t n c = matchSlots s kind t n c := fun _ _ _ _ => rfl
  have hslot : ∀ k, getSlot (modJob s j f) k = getSlot s k := fun _ => rfl
  have hkey : ∀ k, slotKey (modJob s j f) k = slotKey s k := fun _ => rfl
  unfold recordUse at h ⊢
  simp only [jobTenant_modJob hf, modJob_watch, modJob_mint, hmatch, hslot, hkey, returnLent_modJob] at h ⊢
  split at h
  · cases h
    exact ⟨s, if_pos ‹_›, rfl⟩
  · rw [if_neg ‹_›]
    split at h
    · split at h
      · cases h
      · cases h
        exact ⟨_, if_neg ‹_›, rfl⟩
    · split at h
      · cases h
      · cases h
        exact ⟨_, rfl, rfl⟩
      · cases h

theorem lookupKey_modJob_hit {u s' : State} {t : BitVec 12} {n k : Nat} {e : W32} (h : lookupKey (modJob u j f) t n e = (.hit k, s')) :
    ∃ v, lookupKey u t n e = (.hit k, v) := by
  have hmatch : ∀ kind t n c, matchSlots (modJob u j f) kind t n c = matchSlots u kind t n c := fun _ _ _ _ => rfl
  have hslot : ∀ k, getSlot (modJob u j f) k = getSlot u k := fun _ => rfl
  unfold lookupKey at h ⊢
  simp only [hmatch, hslot] at h ⊢
  split at h
  · cases h
  · split at h
    · cases h
      exact ⟨_, if_pos ‹_›⟩
    · cases h
  · cases h

/-- Whether a leading KEY hits depends on its job's ring alone among what the jobs hold. -/
theorem keyHits_modJob_none (hf : (f (getJob s j)).ring = (getJob s j).ring) {i : W64} (h : keyHits s j i = none) :
    keyHits (modJob s j f) j i = none := by
  refine Option.eq_none_iff_forall_ne_some.mpr fun ⟨k, t⟩ hsome => ?_
  obtain ⟨hkey, ⟨bs, sr, hrec, hlook⟩, hwindow⟩ := keyHits_eq_some.mp hsome
  obtain ⟨u, hrec', rfl⟩ := recordUse_modJob_here hf hrec
  rw [jobTenant_modJob hf] at hlook
  obtain ⟨v, hlook'⟩ := lookupKey_modJob_hit hlook
  have hhit : keyHits s j i = some (k, v) := keyHits_eq_some.mpr ⟨hkey, ⟨bs, u, hrec', hlook'⟩, hwindow⟩
  rw [h] at hhit
  cases hhit

end

/-! ### Preparation (R154) -/

/-- A KEY that takes a slot leases it, loads its register and sets HIT. -/
theorem keyTake_eq (s : State) (j n k : Nat) : keyTake s j n k = modJob (modJob (takeLease (releaseKey s j n) k) j
    (keyLoaded n (keyRefOf (takeLease (releaseKey s j n) k) k))) j (hitSet true) := by
  rw [keyTake, loadKey_of_empty (by rw [(keeps_takeLease _ k).keyReg_eq rfl, keyReg_releaseKey_same])]
  rfl

theorem getJob_keyTake_same (s : State) (j n k : Nat) :
    ∃ ks, getJob (keyTake s j n k) j = hitSet true { getJob s j with keys := ks } := by
  obtain ⟨ks, hjob, _⟩ := releaseKey_keysLost s j n j
  have htaken : getJob (keyTake s j n k) j =
      hitSet true (keyLoaded n (keyRefOf (takeLease (releaseKey s j n) k) k) { getJob s j with keys := ks }) := by
    rw [keyTake_eq, getJob_modJob_same, getJob_modJob_same, (keeps_takeLease _ k).getJob_eq rfl, hjob]
  exact ⟨_, htaken⟩

theorem getJob_keyTake_other (s : State) {j m : Nat} (n k : Nat) (h : m ≠ j) : getJob (keyTake s j n k) m = getJob s m := by
  rw [keyTake_eq, getJob_modJob_other _ _ h, getJob_modJob_other _ _ h, (keeps_takeLease _ k).getJob_eq rfl,
    getJob_releaseKey_other s n h]

/-- A job past `n` leading KEYs, with the key registers `ks` and the flags `fl`. -/
def keysPrepared (ks : Table (Option KeyRef)) (fl : JobFlags) (n : Nat) (x : Job) : Job :=
  { x with keys := ks, flags := fl, pos := n, preparedTo := n }

theorem keysPrepared_self {x : Job} (h : x.preparedTo = x.pos) : keysPrepared x.keys x.flags x.pos x = x := by
  cases x
  cases h
  rfl

/-- From `s` to `t` preparation has performed leading KEYs of job `j` alone. -/
structure Prepares (s t : State) (j : Nat) : Prop where
  keeps : keepsBut [.jobs, .serai, .mint] s t
  job : ∃ ks fl n, getJob t j = keysPrepared ks fl n (getJob s j)
  others : ∀ m, m ≠ j → getJob t m = getJob s m

theorem Prepares.refl {s : State} {j : Nat} (h : (getJob s j).preparedTo = (getJob s j).pos) : Prepares s s j :=
  ⟨keepsBut.refl _ s, ⟨_, _, _, (keysPrepared_self h).symm⟩, fun _ _ => rfl⟩

theorem Prepares.trans {s t u : State} {j : Nat} (h : Prepares s t j) (h' : Prepares t u j) : Prepares s u j := by
  obtain ⟨_, _, _, hjob⟩ := h.job
  obtain ⟨ks, fl, n, hjob'⟩ := h'.job
  exact ⟨h.keeps.trans h'.keeps, ⟨ks, fl, n, by rw [hjob', hjob]; rfl⟩, fun m hm => (h'.others m hm).trans (h.others m hm)⟩

/-- The state after a leading KEY that hits: its register is loaded, and the job stands past it. -/
def keyPrepared (s : State) (j n k : Nat) : State :=
  modJob (keyTake s j n k) j (fun x => { x with pos := x.pos + 1, preparedTo := x.pos + 1 })

theorem keyPrepared_prepares {s s' : State} {j k : Nat} {i : W64} (h : keyHits s j i = some (k, s')) (n : Nat) :
    Prepares s (keyPrepared s' j n k) j := by
  have looked := keyHits_some_keeps h
  obtain ⟨ks, hjob⟩ := getJob_keyTake_same s' j n k
  refine ⟨keepsBut.step (keeps_modJob _ _ _) (by decide) (keepsBut.step (keeps_keyTake _ _ _ _) (by decide) (looked.sub (by decide))),
    ⟨ks, { (getJob s j).flags with hit := true }, (getJob s j).pos + 1, ?_⟩, fun m hm => ?_⟩
  · rw [keyPrepared, getJob_modJob_same, hjob, looked.getJob_eq rfl]
    rfl
  · rw [keyPrepared, getJob_modJob_other _ _ hm, getJob_keyTake_other _ _ _ hm, looked.getJob_eq rfl]

/-- Where a yoke's copies agree, or there is no yoke, preparation does no more than to perform leading KEYs. -/
theorem prepareKeys_same_prepares (fuel : Nat) {s : State} (l : Nat) {j : Nat} (h : (getJob s j).preparedTo = (getJob s j).pos) :
    Prepares s (prepareKeys fuel s l j .same) j := by
  induction fuel generalizing s with
  | zero => exact .refl h
  | succ fuel ih =>
    rw [prepareKeys]
    extract_lets i
    split
    · exact .refl h
    · split
      · exact .refl h
      · next k s' hhit =>
        simp only [itemDiffers_same, progressDiffers_same, Bool.false_eq_true, if_false]
        exact (keyPrepared_prepares hhit (keyNum (wA i))).trans (ih (by rw [keyPrepared, getJob_modJob_same]))

/-- Preparation stops at an instruction that is no KEY that hits. -/
theorem prepareKeys_of_no_hit {s : State} {j : Nat} (h : keyHits s j (instrAt s (getJob s j) (getJob s j).pos) = none)
    (fuel l : Nat) (c : Compare) : prepareKeys fuel s l j c = s := by
  cases fuel with
  | zero => rfl
  | succ fuel =>
    rw [prepareKeys]
    simp only [h, ite_self]

/-- A job with the job-start values of its state on lane `l` (R80, Table 3.1). -/
def jobStarted (s : State) (l : Nat) (x : Job) : Job :=
  { x with
    sat := [], cursors := [], flags := flagsStart (e0Manifest x.word0) (isYoke s l), pend := .done, pos := 0, run := none
    user := [], wait := .nothing, kept := none, wrote := none, started := true, setUp := false, preparedTo := 0
    stop := match startFault s x with
      | some st => some st
      | none => x.stop }

theorem getJob_startJob_same (s : State) (l j : Nat) : getJob (startJob s l j) j = jobStarted s l (getJob s j) := getJob_modJob_same _ _ _

theorem getJob_startJob_other (s : State) (l : Nat) {j m : Nat} (h : m ≠ j) : getJob (startJob s l j) m = getJob s m :=
  getJob_modJob_other _ _ h

/-- A started job that nothing stopped before is stopped by the first check that it fails. -/
theorem jobStarted_stop {s : State} {x : Job} (l : Nat) (h : x.stop = none) : (jobStarted s l x).stop = startFault s x := by
  simp only [jobStarted]
  split
  · exact Eq.symm ‹_›
  · rw [h, ‹startFault s x = none›]

/-- What PREPARATION asks of lane `l` and of its oldest staged job that is not set up. -/
structure PrepareReady (s : State) (l j : Nat) : Prop where
  oldest : (getLane s l).staged.find? (fun k => (getLane s l).setup ≠ some k) = some j
  noPrep : (getLane s l).prep = none
  noCourier : (getLane s l).courier = none
  fresh : (getJob s j).started = false
  notHeld : laneHeld s l = false
  moves : jobMoves s l j = true
  goesOn : (getJob s j).isOver = false

/-- The state in which the job-start work of a staged job is done. -/
def preparedState (s : State) (l j : Nat) : State := prepareKeys 38 (startJob s l j) l j .same

theorem preparedState_prepares (s : State) (l j : Nat) : Prepares (startJob s l j) (preparedState s l j) j :=
  prepareKeys_same_prepares 38 l (by rw [getJob_startJob_same]; rfl)

theorem getJob_preparedState_same (s : State) (l j : Nat) :
    ∃ ks fl n, getJob (preparedState s l j) j = keysPrepared ks fl n (jobStarted s l (getJob s j)) := by
  obtain ⟨ks, fl, n, hjob⟩ := (preparedState_prepares s l j).job
  exact ⟨ks, fl, n, by rw [hjob, getJob_startJob_same]⟩

theorem keeps_preparedState (s : State) (l j : Nat) : keepsBut [.jobs, .serai, .mint] s (preparedState s l j) :=
  keepsBut.step (preparedState_prepares s l j).keeps (by decide) ((keeps_startJob s l j).sub (by decide))

/-- A job whose first instruction is no KEY that hits is prepared by its start alone. -/
theorem preparedState_of_no_hit {s : State} (l : Nat) {j : Nat} (h : keyHits s j (instrAt s (getJob s j) 0) = none) :
    preparedState s l j = startJob s l j := by
  refine prepareKeys_of_no_hit ?_ 38 l .same
  rw [getJob_startJob_same]
  exact keyHits_modJob_none (by rfl) h

theorem exec_preparation {s : State} {l : Fin 16} {j : Nat} (h : PrepareReady s l.val j) :
    exec (.preparation l .same) s = .next (modLane (preparedState s l.val j) l.val (fun n => { n with prep := some j })) := by
  have hover : (getJob (preparedState s l.val j) j).isOver = false := by
    obtain ⟨ks, fl, n, hjob⟩ := getJob_preparedState_same s l.val j
    rw [hjob]
    exact h.goesOn
  show execPreparation l .same s = _
  rw [execPreparation]
  simp only [h.oldest]
  rw [if_neg (by simp [h.noPrep, h.noCourier, h.fresh, h.notHeld, h.moves])]
  exact congrArg Host.Outcome.next (if_neg (by rw [preparedState] at hover; rw [hover]; decide))

/-! ### SETUP and LANE_KAT_DONE (R154, R160) -/

theorem exec_setup {s : State} {l : Fin 16} {j : Nat} (hp : (getLane s l.val).prep = some j) (hs : (getLane s l.val).setup = none)
    (hh : laneHeld s l.val = false) (hm : jobMoves s l.val j = true) (hok : setupOk s j = true) :
    exec (.setup l) s = .next (modJob (modLane s l.val (fun n => { n with prep := none, setup := some j })) j
      (fun x => { x with setUp := true })) := by
  show execSetup l s = _
  rw [execSetup]
  simp only [hp]
  exact if_pos (by simp [hs, hh, hm, hok])

/-- A lane whose known-answer test is over. -/
def laneTested (pass : Bool) (n : LaneRec) : LaneRec := { n with kat := false, faulted := !pass, retest := false }

/-- The state in which the outcome of a lane's test is noted: a lane that fails is quarantined and has its record (R160). -/
def katNoted (s : State) (l : Nat) (pass : Bool) : State :=
  if pass then modLane s l (laneTested pass) else katRecord (quarantineLane (modLane s l (laneTested pass)) l) 3 (laneUnit l)

theorem keeps_katNoted (s : State) (l : Nat) (pass : Bool) :
    keepsBut [.units, .ledger] (modLane s l (laneTested pass)) (katNoted s l pass) :=
  keepsBut.ite (keepsBut.refl _ _)
    (keepsBut.step (keeps_katRecord _ _ _) (by decide) ((keeps_quarantineLane _ _).sub (by decide)))

theorem exec_laneKatDone {s : State} {l : Fin 16} (hp : portsServed s = true) (hk : (getLane s l.val).kat = true) (pass : Bool) :
    exec (.laneKatDone l pass) s = .next (testsEnd (katNoted s l.val pass) (trainOf l.val)) := by
  show execLaneKatDone l pass s = _
  exact if_neg (by simp [hp, hk])

theorem katNoted_quarantines (s : State) (l : Nat) : (getUnit (katNoted s l false) (laneUnit l)).quarantine = true := by
  rw [katNoted, if_neg (by decide), (keeps_katRecord _ _ _).getUnit_eq rfl, quarantineLane, getUnit_modUnit_same]

/-! ### JOB_START (R80, R82, R135) -/

/-- The state in which the job-start work of a job that enters execution is done. -/
def entryStarted (s : State) (l j : Nat) : State := if (getJob s j).started then s else startJob s l j

theorem entryStarted_of_started {s : State} {j : Nat} (l : Nat) (h : (getJob s j).started = true) : entryStarted s l j = s := if_pos h

theorem entryStarted_of_fresh {s : State} {j : Nat} (l : Nat) (h : (getJob s j).started = false) :
    entryStarted s l j = startJob s l j := if_neg (by rw [h]; decide)

theorem getJob_entryStarted_other (s : State) (l : Nat) {j k : Nat} (h : k ≠ j) : getJob (entryStarted s l j) k = getJob s k := by
  rw [entryStarted]
  split
  · rfl
  · exact getJob_startJob_other s l h

/-- A lane that job `j` leaves for execution. -/
def laneEntered (j : Nat) (n : LaneRec) : LaneRec :=
  { n with
    staged := n.staged.filter (fun k => k ≠ j), courier := if n.courier = some j then none else n.courier
    prep := if n.prep = some j then none else n.prep, setup := if n.setup = some j then none else n.setup }

/-- The state in which job `j` is about to enter execution on lane `l`. -/
def entering (s : State) (l j : Nat) : State :=
  modJob (modLane (entryStarted s l j) l (laneEntered j)) j (fun x => { x with occ := 0, ran := 0 })

theorem enterLane_eq (s : State) (l j : Nat) : enterLane s l j = execute (entering s l j) l j := rfl

theorem getJob_entering_same (s : State) (l j : Nat) :
    getJob (entering s l j) j = { getJob (entryStarted s l j) j with occ := 0, ran := 0 } := by
  rw [entering, getJob_modJob_same, (keeps_modLane _ _ _).getJob_eq rfl]

theorem getJob_entering_other (s : State) (l : Nat) {j k : Nat} (h : k ≠ j) : getJob (entering s l j) k = getJob s k := by
  rw [entering, getJob_modJob_other _ _ h, (keeps_modLane _ _ _).getJob_eq rfl, getJob_entryStarted_other s l h]

theorem keeps_entering (s : State) (l j : Nat) : keepsBut [.jobs, .lanes] s (entering s l j) :=
  keepsBut.step (keeps_modJob _ _ _) (by decide) (keepsBut.step (keeps_modLane _ _ _) (by decide)
    (keepsBut.ite (keepsBut.refl _ s) ((keeps_startJob s l j).sub (by decide))))

/-- A job in execution on lane `l`. -/
def jobRunning (l : Nat) (x : Job) : Job := { x with seat := .running l, onLane := true, stuck := 0, eaten := [] }

/-- A job that nothing stops enters execution as its start has left it. -/
theorem enterLane_of_not_stopped {s : State} {l j : Nat} (h : (getJob (entryStarted s l j) j).stop = none) :
    getJob (enterLane s l j) j = jobRunning l { getJob (entryStarted s l j) j with occ := 0, ran := 0 } ∧
      (∀ k, k ≠ j → getJob (enterLane s l j) k = getJob s k) ∧ keepsBut [.jobs, .lanes] s (enterLane s l j) := by
  have hstop : (getJob (entering s l j) j).stop = none := by
    rw [getJob_entering_same]
    exact h
  rw [enterLane_eq, execute_of_not_stopped l hstop]
  refine ⟨?_, fun k hk => ?_, keepsBut.step (keeps_modJob _ _ _) (by decide) (keepsBut.step (keeps_modLane _ _ _) (by decide)
    (keeps_entering s l j))⟩
  · rw [getJob_modJob_same, (keeps_modLane _ _ _).getJob_eq rfl, getJob_entering_same, jobRunning]
  · rw [getJob_modJob_other _ _ hk, (keeps_modLane _ _ _).getJob_eq rfl, getJob_entering_other s l hk]

/-- A job that something has reached before its entry ends as it enters execution (R43, R352). -/
theorem execute_of_stopped {s : State} {j : Nat} {st : Status} (l : Nat) (h : (getJob s j).stop = some st) :
    execute s l j = endHard (modJob (modLane s l (fun n => { n with run := some j })) j (jobRunning l)) j st := by
  have hstop : (getJob (modJob (modLane s l (fun n => { n with run := some j })) j (fun x => { x with
      seat := .running l, onLane := true, stuck := 0, eaten := [] })) j).stop = some st := by
    rw [getJob_modJob_same, (keeps_modLane s l _).getJob_eq rfl]
    exact h
  rw [execute]
  simp only [hstop]
  rfl

theorem enterLane_of_stopped {s : State} {l j : Nat} {st : Status} (h : (getJob (entryStarted s l j) j).stop = some st) :
    (getJob (enterLane s l j) j).isOver = true ∧ (getJob (enterLane s l j) j).status = st := by
  have hstop : (getJob (entering s l j) j).stop = some st := by
    rw [getJob_entering_same]
    exact h
  rw [enterLane_eq, execute_of_stopped l hstop]
  exact getJob_endHard _ _ _

/-- What JOB_START asks of lane `l` and of the job that is next on it. -/
structure StartsNext (s : State) (l j : Nat) : Prop where
  next : nextJobOf (getLane s l) = some j
  free : (getLane s l).run = none
  notHeld : laneHeld s l = false
  sound : laneOut s l = false
  moves : jobMoves s l j = true
  turn : (getLane s l).courier ≠ none ∨ courierDue s l = false

theorem exec_jobStart {s : State} {l : Fin 16} {j : Nat} (h : StartsNext s l.val j) :
    exec (.jobStart l) s = .next (enterLane s l.val j) := by
  show execJobStart l s = _
  rw [execJobStart]
  simp only [h.next]
  refine if_neg ?_
  rcases h.turn with hc | hc <;> simp [h.free, h.notHeld, h.sound, h.moves, hc]

/-- A job enters execution with a start that nothing stops: it was made before, or it passes the job-start checks. -/
theorem entryStarted_stop {s : State} {j : Nat} (l : Nat) (hs : (getJob s j).stop = none)
    (h : (getJob s j).started = true ∨ startFault s (getJob s j) = none) : (getJob (entryStarted s l j) j).stop = none := by
  by_cases hstarted : (getJob s j).started = true
  · rw [entryStarted_of_started l hstarted, hs]
  · have hfault : startFault s (getJob s j) = none := h.resolve_left hstarted
    rw [entryStarted_of_fresh l (by simpa using hstarted), getJob_startJob_same, jobStarted_stop l hs, hfault]

theorem entryStarted_isOver (s : State) (l j : Nat) : (getJob (entryStarted s l j) j).isOver = (getJob s j).isOver := by
  rw [entryStarted]
  split
  · rfl
  · rw [getJob_startJob_same]
    rfl

/-! ### The end of a job (R18, R82, R141) -/

/-- From `s` to `t` whether job `m` has ended, and its status, are unchanged. -/
def endKept (s t : State) (m : Nat) : Prop := (getJob t m).isOver = (getJob s m).isOver ∧ (getJob t m).status = (getJob s m).status

theorem endKept.trans {s t u : State} {m : Nat} (h : endKept s t m) (h' : endKept t u m) : endKept s u m :=
  ⟨h'.1.trans h.1, h'.2.trans h.2⟩

theorem endKept.of_getJob_eq {s t : State} {m : Nat} (h : getJob t m = getJob s m) : endKept s t m := by
  rw [endKept, h]
  exact ⟨rfl, rfl⟩

theorem keysLost.endKept {s t : State} (h : keysLost s t) (m : Nat) : endKept s t m := by
  obtain ⟨ks, hjob, _⟩ := h m
  rw [Machine.endKept, hjob]
  exact ⟨rfl, rfl⟩

/-- From `s` to `t` job `j` has ended with its status and is cleared, and no other job has met its end. -/
structure JobEnded (s t : State) (j : Nat) : Prop where
  seat : (getJob t j).seat = .ended
  isOver : (getJob t j).isOver = true
  status : (getJob t j).status = (getJob s j).status
  keys : (getJob t j).keys = []
  sat : (getJob t j).sat = []
  others : ∀ m, m ≠ j → endKept s t m

/-- What takes key registers at most before it leaves the end of a job an end. -/
theorem JobEnded.after {s u t : State} {j : Nat} (h : JobEnded u t j) (hlost : keysLost s u) : JobEnded s t j where
  seat := h.seat
  isOver := h.isOver
  status := h.status.trans (hlost.status_eq j)
  keys := h.keys
  sat := h.sat
  others m hm := (hlost.endKept m).trans (h.others m hm)

theorem clearJob_ended (s : State) (j : Nat) : JobEnded s (clearJob s j) j := by
  obtain ⟨u, hclear, hlost⟩ := clearJob_clears s j
  have hjob : getJob (clearJob s j) j = jobCleared (getJob u j) := by rw [hclear, getJob_modJob_same]
  refine ⟨by rw [hjob]; rfl, by rw [hjob]; rfl, ?_, by rw [hjob]; rfl, by rw [hjob]; rfl, fun m hm => ?_⟩
  · rw [hjob]
    exact hlost.status_eq j
  · rw [hclear]
    exact (hlost.endKept m).trans (.of_getJob_eq (getJob_modJob_other _ _ hm))

/-- The settlement of the bucket leaves an ended job ended. -/
theorem JobEnded.settled {s t : State} {j : Nat} (h : JobEnded s t j) (k : Nat) : JobEnded s (settle t k) j := by
  obtain ⟨hjobs, _⟩ := settle_fields t k
  obtain ⟨b, hjob⟩ := hjobs j
  refine ⟨by rw [hjob]; exact h.seat, by rw [hjob]; exact h.isOver, by rw [hjob]; exact h.status, by rw [hjob]; exact h.keys,
    by rw [hjob]; exact h.sat, fun m hm => (h.others m hm).trans ?_⟩
  obtain ⟨b', hother⟩ := hjobs m
  rw [endKept, hother]
  exact ⟨rfl, rfl⟩

/-- The state in which a job has lost its work and its places. -/
def jobOut (s : State) (j : Nat) : State := unqueue (unseat (dropWork s j 2) j) j

theorem finishJob_aside_eq (s : State) (j : Nat) :
    finishJob s j none = whenS (getJob s j).noStatus (fun s => settle s j) (clearJob (jobOut s j) j) := rfl

theorem finishJob_aside_ended (s : State) (j : Nat) : JobEnded s (finishJob s j none) j := by
  have places : keepsBut [.lanes, .muster] (dropWork s j 2) (jobOut s j) :=
    keepsBut.step (keeps_unqueue _ _) (by decide) ((keeps_unseat _ _).sub (by decide))
  have cleared : JobEnded s (clearJob (jobOut s j) j) j :=
    (clearJob_ended (jobOut s j) j).after ((dropWork_keysLost s j 2).trans (.of_keeps places rfl))
  rw [finishJob_aside_eq]
  rcases whenS_cases (getJob s j).noStatus (fun s => settle s j) (clearJob (jobOut s j) j) with h | h <;> rw [h]
  · exact cleared
  · exact cleared.settled j

/-- What follows the end of a job that ran on lane `l`: the unit counts the ending, and the expected time of the ring goes on. -/
theorem finishJob_lane_eq (s : State) (j l : Nat) : finishJob s j (some l) =
    unlag (modRing (modJob (unitEnding (finishJob s j none) (laneUnit l) (getJob s j).status) j (fun x => { x with endLane := some l }))
      (getJob s j).ring (fun r => { r with expTime := expectNext r.expTime ((getJob s j).ran / 2) })) l := rfl

theorem finishJob_lane_jobs (s : State) (j l k : Nat) : getJob (finishJob s j (some l)) k =
    getJob (modJob (finishJob s j none) j (fun x => { x with endLane := some l })) k := by
  have hjobs : (finishJob s j (some l)).jobs = (modJob (finishJob s j none) j (fun x => { x with endLane := some l })).jobs := by
    rw [finishJob_lane_eq, (keeps_unlag _ l).jobs_eq rfl, modRing_jobs, modJob_jobs, (keeps_unitEnding _ _ _).jobs_eq rfl, modJob_jobs]
  rw [getJob, hjobs, getJob]

theorem finishJob_ended (s : State) (j : Nat) (lane : Option Nat) : JobEnded s (finishJob s j lane) j := by
  have aside := finishJob_aside_ended s j
  cases lane with
  | none => exact aside
  | some l =>
    have hjob : getJob (finishJob s j (some l)) j = { getJob (finishJob s j none) j with endLane := some l } := by
      rw [finishJob_lane_jobs, getJob_modJob_same]
    refine ⟨by rw [hjob]; exact aside.seat, by rw [hjob]; exact aside.isOver, by rw [hjob]; exact aside.status,
      by rw [hjob]; exact aside.keys, by rw [hjob]; exact aside.sat, fun m hm => ?_⟩
    exact (aside.others m hm).trans (.of_getJob_eq (by rw [finishJob_lane_jobs, getJob_modJob_other _ _ hm]))

theorem keeps_finishJob_aside (s : State) (j : Nat) :
    keepsBut [.units, .jobs, .muster, .serai, .mint, .house, .scales, .well, .relay, .ledger, .ai] (unseat (dropWork s j 2) j)
      (finishJob s j none) := by
  rw [finishJob_aside_eq]
  exact keepsBut.when (keepsBut.step (keeps_clearJob _ _) (by decide) ((keeps_unqueue _ _).sub (by decide)))
    (fun _ h => keepsBut.step (keeps_settle _ _) (by decide) h)

/-- The lane that a job has left runs it no more. -/
theorem run_unseat (s : State) (j k : Nat) :
    (getLane (unseat s j) k).run = if (getLane s k).run = some j then none else (getLane s k).run := by
  unfold unseat getLane
  extract_lets drop
  rw [tget_tmapv _ _ (fun _ => by simp [drop, terase])]

theorem finishJob_leaves_lane {s : State} {l j : Nat} (h : (getLane s l).run = some j) :
    (getLane (finishJob s j (some l)) l).run = none := by
  have hdropped : (getLane (dropWork s j 2) l).run = some j := by rw [(keeps_dropWork s j 2).getLane_eq rfl, h]
  rw [finishJob_lane_eq, unlag, getLane_modLane_same, (keeps_modRing _ _ _).getLane_eq rfl, (keeps_modJob _ _ _).getLane_eq rfl,
    (keeps_unitEnding _ _ _).getLane_eq rfl, (keeps_finishJob_aside s j).getLane_eq rfl, run_unseat, if_pos hdropped]

theorem finishJob_expects (s : State) (j l : Nat) : (getRing (finishJob s j (some l)) (getJob s j).ring).expTime =
    expectNext (getRing s (getJob s j).ring).expTime ((getJob s j).ran / 2) := by
  rw [finishJob_lane_eq, (keeps_unlag _ l).getRing_eq rfl, getRing_modRing_same, (keeps_modJob _ _ _).getRing_eq rfl,
    (keeps_unitEnding _ _ _).getRing_eq rfl, (keeps_finishJob_aside s j).getRing_eq rfl, (keeps_unseat _ j).getRing_eq rfl,
    (keeps_dropWork s j 2).getRing_eq rfl]

/-! ### Endings counted by the units (R18) -/

/-- Each unit of a list gets a last code; none of them counts an ending. -/
theorem unitJobs_lastCodes (us : List Nat) (c : W16) (s : State) (k : Nat) :
    (getUnit (forAll us (fun s v => modUnit s v (fun x => { x with lastCode := c })) s) k).jobs = (getUnit s k).jobs :=
  forAll_other (view := fun t => (getUnit t k).jobs) (fun t v _ => by
    by_cases h : k = v
    · rw [h, getUnit_modUnit_same]
    · rw [getUnit_modUnit_other _ _ h]) s

theorem unitJobs_unitEnding (s : State) (u : Nat) (st : Status) (k : Nat) : (getUnit (unitEnding s u st) k).jobs =
    (getUnit (modUnit s u (fun x => { x with jobs := x.jobs + 1, faults := if st.mild then x.faults else x.faults + 1 })) k).jobs := by
  unfold unitEnding
  extract_lets s1
  split
  · rfl
  · exact unitJobs_lastCodes _ _ s1 k

theorem unitJobs_unitEnding_same (s : State) (u : Nat) (st : Status) :
    (getUnit (unitEnding s u st) u).jobs = (getUnit s u).jobs + 1 := by
  rw [unitJobs_unitEnding, getUnit_modUnit_same]

theorem unitJobs_unitEnding_other (s : State) {u k : Nat} (st : Status) (h : k ≠ u) :
    (getUnit (unitEnding s u st) k).jobs = (getUnit s k).jobs := by
  rw [unitJobs_unitEnding, getUnit_modUnit_other _ _ h]

/-- An aborted operation of a bench counts at its bench. -/
theorem unitJobs_abortBench (s : State) (b row : Nat) {k : Nat} (h : k ≠ benchUnit b) :
    (getUnit (abortBench s b row) k).jobs = (getUnit s k).jobs := by
  unfold abortBench stopBench benchEnded
  extract_lets x s1 s2 s3 s4 s5 s6
  have h3 : (getUnit s3 k).jobs = (getUnit s k).jobs := by
    rw [(keeps_emit s2 _ _ _ _).getUnit_eq rfl, getUnit_modUnit_other _ _ h,
      (keepsBut.step (keeps_modBench _ _ _) (by decide) ((keeps_dropDraws _ _).sub (by decide)) :
        keepsBut [.well, .house] s s1).getUnit_eq rfl]
  have h6 : keepsBut [.house, .relay] (unitEnding s3 (benchUnit b) .pkAborted) s6 :=
    keepsBut.step (keeps_raise _ _) (by decide) (keepsBut.step (keeps_upHouse _ _) (by decide)
      ((keeps_modBench _ _ _).sub (by decide)))
  rw [(keeps_wipeBench _ _ _).getUnit_eq rfl,
    (keepsBut.when (h6.sub (by decide)) (fun _ h => keepsBut.step (keeps_irqBlock _ _) (by decide) h) :
      keepsBut [.house, .relay, .ai] (unitEnding s3 (benchUnit b) .pkAborted) _).getUnit_eq rfl,
    unitJobs_unitEnding_other _ _ h, h3]

theorem laneUnit_ne_benchUnit {l : Nat} (h : l < 16) (b : Nat) : laneUnit l ≠ benchUnit b := by
  unfold laneUnit benchUnit
  omega

/-- The work that a job drops on the engines counts at no lane. -/
theorem laneJobs_dropWork (s : State) (j row : Nat) {l : Nat} (hl : l < 16) :
    (getUnit (dropWork s j row) (laneUnit l)).jobs = (getUnit s (laneUnit l)).jobs := by
  unfold dropWork
  extract_lets s1 s2 s3 s4 s5 s6 s7 s8
  have h6 : keepsBut [.serai, .mint, .house, .scales, .well] s s6 :=
    keepsBut.step (keeps_upMint s5 _) (by decide) (keepsBut.step (keeps_upWell s4 _) (by decide)
      (keepsBut.step (keeps_upScales s3 _) (by decide) (keepsBut.step (keeps_upHouse s2 _) (by decide)
        (keepsBut.step (keeps_returnLent s1 j) (by decide) ((keeps_upSerai s _).sub (by decide))))))
  have h7 : keepsBut [.jobs, .serai, .mint, .house, .scales, .well, .relay, .ledger] s s7 :=
    keepsBut.when (h6.sub (by decide)) (fun _ h => keepsBut.step (keeps_wipeEnded _ _ _) (by decide) h)
  have h8 : (getUnit s8 (laneUnit l)).jobs = (getUnit s7 (laneUnit l)).jobs :=
    forAll_other (view := fun t => (getUnit t (laneUnit l)).jobs) (fun t b _ => by
      split
      · exact unitJobs_abortBench t b row (laneUnit_ne_benchUnit hl b)
      · rfl) s7
  have h9 : keepsBut [.jobs, .serai, .scales, .well, .relay] s8 (forAll (List.range 4) (fun s c =>
      if (getCtx s c).run.any (fun r => r.who = .lane && r.job = j) then abortCtx s c else s) s8) :=
    keepsBut.each (fun t c => keepsBut.ite (keeps_abortCtx t c) (keepsBut.refl _ t)) (keepsBut.refl _ s8)
  rw [h9.getUnit_eq rfl, h8, h7.getUnit_eq rfl]

theorem finishJob_counts (s : State) (j : Nat) {l : Nat} (hl : l < 16) :
    (getUnit (finishJob s j (some l)) (laneUnit l)).jobs = (getUnit s (laneUnit l)).jobs + 1 := by
  have aside : keepsBut [.jobs, .lanes, .muster, .serai, .house, .scales, .relay, .ledger, .ai] (dropWork s j 2) (finishJob s j none) := by
    rw [finishJob_aside_eq]
    exact keepsBut.when (keepsBut.step (keeps_clearJob _ _) (by decide) (keepsBut.step (keeps_unqueue _ _) (by decide)
      ((keeps_unseat _ _).sub (by decide)))) (fun _ h => keepsBut.step (keeps_settle _ _) (by decide) h)
  rw [finishJob_lane_eq, (keeps_unlag _ l).getUnit_eq rfl, (keeps_modRing _ _ _).getUnit_eq rfl, (keeps_modJob _ _ _).getUnit_eq rfl,
    unitJobs_unitEnding_same, aside.getUnit_eq rfl, laneJobs_dropWork s j 2 hl]

theorem exec_jobEnd {s : State} {l : Fin 16} {j : Nat} (hr : (getLane s l.val).run = some j) (ho : (getJob s j).isOver = true)
    (hh : laneHeld s l.val = false) : exec (.jobEnd l .same) s =
      .next (modLane (finishJob s j (some l.val)) l.val (fun n => { n with preempt := false })) := by
  show execJobEnd l .same s = _
  rw [execJobEnd]
  simp only [hr, ho, hh, itemDiffers_same, Bool.not_true, Bool.or_self, Bool.false_eq_true, if_false]

/-- Settles O34: a staged job in preparation and in setup, a lane's known-answer test, the start of a job that passes its checks and of one
that fails them, and a job's end. -/
theorem jobsRunThroughTheLane : Obligations.JobsRunThroughTheLane := by
  unfold Obligations.JobsRunThroughTheLane
  refine ⟨⟨fun l j s holdest hprep hcourier hfresh hheld hmoves hgoes => ?_, fun l j s hprep hsetup hheld hmoves hok => ?_,
      fun l pass s hports hkat => ?_⟩,
    fun l j s hnext hfree hheld hout hmoves hstop hstart hturn => ?_,
    fun l j st s hnext hfree hheld hout hmoves hfresh hfault hturn => ?_, fun l j s hrun hover hheld => ?_⟩
  · have lane := keeps_modLane (preparedState s l.val j) l.val (fun n => { n with prep := some j })
    have prepared := keeps_preparedState s l.val j
    obtain ⟨ks, fl, n, hjob⟩ := getJob_preparedState_same s l.val j
    refine ⟨_, exec_preparation ⟨holdest, hprep, hcourier, hfresh, hheld, hmoves, hgoes⟩, ?_⟩
    rw [lane.getJob_eq rfl, hjob]
    refine ⟨?_, rfl, rfl, rfl, rfl, rfl, hgoes, fun hstop => jobStarted_stop l.val hstop, fun hmiss => ?_, fun k hk => ?_, fun k hk => ?_,
      keepsBut.step lane (by decide) (prepared.sub (by decide))⟩
    · rw [getLane_modLane_same, prepared.getLane_eq rfl]
    · rw [← hjob, preparedState_of_no_hit l.val hmiss, getJob_startJob_same]
      rfl
    · rw [lane.getJob_eq rfl, (preparedState_prepares s l.val j).others k hk, getJob_startJob_other s l.val hk]
    · rw [getLane_modLane_other _ _ hk, prepared.getLane_eq rfl]
  · refine ⟨_, exec_setup hprep hsetup hheld hmoves hok, ?_, ?_,
      keepsBut.step (keeps_modJob _ _ _) (by decide) ((keeps_modLane _ _ _).sub (by decide))⟩
    · rw [(keeps_modJob _ _ _).getLane_eq rfl, getLane_modLane_same]
    · rw [getJob_modJob_same, (keeps_modLane _ _ _).getJob_eq rfl]
  · have ended := keeps_testsEnd (katNoted s l.val pass) (trainOf l.val)
    have noted := keeps_katNoted s l.val pass
    refine ⟨_, exec_laneKatDone hports hkat pass, ?_, fun hfails => ?_, fun k hk => ?_,
      keepsBut.step ended (by decide) (keepsBut.step noted (by decide) ((keeps_modLane _ _ _).sub (by decide)))⟩
    · rw [ended.getLane_eq rfl, noted.getLane_eq rfl, getLane_modLane_same, laneTested]
    · rw [ended.getUnit_eq rfl, hfails, katNoted_quarantines]
    · rw [ended.getLane_eq rfl, noted.getLane_eq rfl, getLane_modLane_other _ _ hk]
  · obtain ⟨hjob, hothers, hkeep⟩ := enterLane_of_not_stopped (entryStarted_stop l.val hstop hstart)
    refine ⟨_, exec_jobStart ⟨hnext, hfree, hheld, hout, hmoves, hturn⟩, ?_⟩
    rw [hjob, getLane_enterLane_same]
    refine ⟨rfl, rfl, rfl, entryStarted_isOver s l.val j, by simp, fun hfresh => ?_, hothers, hkeep⟩
    rw [entryStarted_of_fresh l.val hfresh, getJob_startJob_same]
    exact ⟨rfl, rfl, rfl, rfl, rfl, rfl⟩
  · have keep := keeps_enterLane s l.val j
    have hstop : (getJob (entryStarted s l.val j) j).stop = some st := by
      rw [entryStarted_of_fresh l.val hfresh, getJob_startJob_same, jobStarted, hfault]
    obtain ⟨hover, hstatus⟩ := enterLane_of_stopped hstop
    exact ⟨_, exec_jobStart ⟨hnext, hfree, hheld, hout, hmoves, hturn⟩, by rw [getLane_enterLane_same], hover, hstatus,
      keep.fuse_eq rfl, keep.mode_eq rfl, keep.watch_eq rfl, keep.1⟩
  · have lane := keeps_modLane (finishJob s j (some l.val)) l.val (fun n => { n with preempt := false })
    have keep := keepsBut.step lane (by decide) (keeps_finishJob s j (some l.val))
    have ended := finishJob_ended s j (some l.val)
    refine ⟨_, exec_jobEnd hrun hover hheld, ?_⟩
    rw [getLane_modLane_same, lane.getJob_eq rfl, lane.getUnit_eq rfl, lane.getRing_eq rfl]
    exact ⟨finishJob_leaves_lane hrun, rfl, ended.seat, ended.status, ended.keys, ended.sat, finishJob_counts s j l.isLt,
      finishJob_expects s j l.val, keep.fuse_eq rfl, keep.mode_eq rfl, keep.watch_eq rfl, keep.1⟩

end Sys2Proof.Machine
end

section
/-! SUPPORT. STREAM (R161, R164, R165, R167): what a checked read of a good line answers, what the write of a line leaves, and the proof of
O40. -/

namespace Sys2Proof.Machine

/-! ### Reading a line (R164) -/

@[simp] theorem goOn_ok {α : Type} (s : State) (j : Nat) (a : α) (k : α → State) : goOn s j (.ok a) k = k a := rfl

/-- The job after a read of a stream stands on the same ring and in the same class. -/
theorem takeStream_ok_ring_cls {x y : Job} {st n : Nat} {bs : List Byte} (h : takeStream x st n = .ok (bs, y)) :
    y.ring = x.ring ∧ y.cls = x.cls := by
  unfold takeStream at h
  cases hr : readIn x st (cursor x st) n <;> rw [hr] at h <;> cases h
  exact ⟨rfl, rfl⟩

/-- The context unit goes on with the keys that it keeps for the job (R163). -/
theorem withCtx_of_kept {s : State} {l j : Nat} (h : ctxOf s l j ≠ []) (k : State → List Byte → List Byte → State) :
    withCtx s l j k = k s ((ctxOf s l j).take 32) ((ctxOf s l j).drop 32) := if_pos h

/-- Job `j` of lane `l` stands at a STREAM that may be issued, with the tenant's context keys at hand and its line `p` known. -/
structure LineNext (s : State) (l j : Nat) (i : W64) (p : Piece) : Prop where
  issue : issueOk (getJob s j) i = true
  keys : ctxOf s l j ≠ []
  piece : lineOf (getJob s j) (ctxStream i) = .ok p

/-- The line has been read as `line`, which leaves the job as `y`, and passes the checks of R164. -/
structure GoodLine (s : State) (l j : Nat) (i : W64) (p : Piece) (line : List Byte) (y : Job) : Prop extends LineNext s l j i p where
  read : takeStream (getJob s j) (ctxStream i) 128 = .ok (line, y)
  sound : lineFault ((ctxOf s l j).drop 32) p.addr (jobTenant s j) line = none

theorem readLine_of_good {s : State} {l j : Nat} {i : W64} {p : Piece} {line : List Byte} {y : Job} (h : GoodLine s l j i p line y)
    (c : Compare) (k : State → Piece → List Byte × List Byte → List Byte → Job → State) :
    readLine s l j i c k = k s p ((ctxOf s l j).take 32, (ctxOf s l j).drop 32) line y := by
  simp only [readLine, h.issue, h.piece, goOn_ok, withCtx_of_kept h.keys, h.read, h.sound, Bool.not_true, Bool.false_eq_true, if_false]

/-! ### Writing a line (R161) -/

/-- A job's accesses look alike as long as it stays on its ring and in its class (R30). -/
theorem jobAttr_modJob {s : State} {j : Nat} {f : Job → Job} (hr : (f (getJob s j)).ring = (getJob s j).ring)
    (hc : (f (getJob s j)).cls = (getJob s j).cls) (ns rlx : Bool) : jobAttr (modJob s j f) j ns rlx = jobAttr s j ns rlx := by
  have hring : ∀ r b, ringAttr (modJob s j f) r b = ringAttr s r b := fun _ _ => rfl
  rw [jobAttr, jobPrio, getJob_modJob_same, hr, hc, hring, jobAttr, jobPrio]

/-- The state in which the line with `body` is on its way and job `j` stands as `y`. -/
def lineIssued (s : State) (j : Nat) (p : Piece) (y : Job) (body ckt : List Byte) : State :=
  issueAccess (modJob s j (fun _ => y)) (.jobWrite j y.pos) (jobAttr s j p.ns p.rlx) (w64 p.addr) 128
    (some (body ++ lineTag ckt p.addr (jobTenant s j) body))

theorem writeLine_same {s : State} {j : Nat} {y : Job} (l : Nat) (p : Piece) (body ckt : List Byte) (hl : jobLost s j = false)
    (hr : y.ring = (getJob s j).ring) (hc : y.cls = (getJob s j).cls) :
    writeLine s l j .same p y body ckt = complete (lineIssued s j p y body ckt) l j .same := by
  have hattr : jobAttr (modJob s j (fun _ => y)) j p.ns p.rlx = jobAttr s j p.ns p.rlx := jobAttr_modJob hr hc _ _
  simp only [writeLine, hl, itemDiffers_same, Bool.false_eq_true, if_false, hattr, lineIssued]

/-- A line that is written leaves its job gone on to the next instruction. -/
theorem complete_lineIssued (s : State) (l j : Nat) (p : Piece) (y : Job) (body ckt : List Byte) :
    ranTo s (complete (lineIssued s j p y body ckt) l j .same) j y ∧
      (complete (lineIssued s j p y body ckt) l j .same).ai = (lineIssued s j p y body ckt).ai ∧
      keepsBut [.jobs, .ai, .ration] s (complete (lineIssued s j p y body ckt) l j .same) := by
  have issued : keepsBut [.ai, .ration] (modJob s j (fun _ => y)) (lineIssued s j p y body ckt) := keeps_issueAccess _ _ _ _ _ _
  have done := keeps_complete_same (lineIssued s j p y body ckt) l j
  refine ⟨ranTo_complete_same l ?_ (fun k hk => ?_), done.ai_eq rfl,
    keepsBut.step done (by decide) (keepsBut.step issued (by decide) ((keeps_modJob s j _).sub (by decide)))⟩
  · rw [issued.getJob_eq rfl, getJob_modJob_same]
  · rw [issued.getJob_eq rfl, getJob_modJob_other _ _ hk]

/-! ### Draws (R282, R283) -/

theorem withDraw_of_kept {s : State} {j : Nat} {bs : List Byte} (h : (getJob s j).kept = some bs) (l n : Nat)
    (k : List Byte → State → State) : withDraw s l j n k = k bs s := by
  simp only [withDraw, laneDraw, h]

/-- An instruction that has drawn nothing yet asks a Well that delivers, and waits. -/
theorem withDraw_of_asking {s : State} {j : Nat} (h : (getJob s j).kept = none) (hw : wellCan s = true) (l n : Nat)
    (k : List Byte → State → State) :
    withDraw s l j n k =
      modJob (askDraw s (drawClass s j) (.lane j l) n) j (fun x => { x with wait := .well s.well.nextDraw }) := by
  simp only [withDraw, laneDraw, h, hw, Bool.not_true, Bool.false_eq_true, if_false]

/-! ### LOAD, SAVE and UPDATE (R164, R165, R167) -/

section
variable {s : State} {l : Fin 16} {j : Nat} {i : W64} {p : Piece}

theorem exec_streamLoad {line : List Byte} {y : Job} (h : streamTask s l.val 1 = some (j, i)) (hg : GoodLine s l.val j i p line y) :
    exec (.streamLoad l .same) s = .next (complete
      (modJob s j (fun _ => loadLine y ((ctxOf s l.val j).take 32) p.addr (jobTenant s j) line)) l.val j .same) := by
  show execStreamLoad l .same s = _
  simp only [execStreamLoad, h, readLine_of_good hg, commit, itemDiffers_same, Bool.false_and, Bool.false_eq_true, if_false, issueOuts]

theorem exec_streamSave (h : streamTask s l.val 2 = some (j, i)) (hn : LineNext s l.val j i p) :
    exec (.streamSave l .same) s = .next (withDraw s l.val j 12 (fun nonce t =>
      writeLine t l.val j .same p (advJob (getJob t j) (ctxStream i) 128)
        (saveBody (getJob t j) ((ctxOf s l.val j).take 32) nonce p.addr (jobTenant t j)) ((ctxOf s l.val j).drop 32))) := by
  show execStreamSave l .same s = _
  simp only [execStreamSave, h, hn.issue, hn.piece, goOn_ok, withCtx_of_kept hn.keys, Bool.not_true, Bool.false_eq_true, if_false]

theorem exec_streamUpdate {line : List Byte} {y : Job} (h : streamTask s l.val 3 = some (j, i)) (hg : GoodLine s l.val j i p line y) :
    exec (.streamUpdate l .same) s =
      .next (writeLine s l.val j .same p y (mergeLine y i line) ((ctxOf s l.val j).drop 32)) := by
  show execStreamUpdate l .same s = _
  simp only [execStreamUpdate, h, readLine_of_good hg]

end

/-- Settles O40: LOAD of a good line, SAVE before its nonce is drawn and with it, and UPDATE of a good line. -/
theorem streamLinesRun : Obligations.StreamLinesRun := by
  unfold Obligations.StreamLinesRun
  refine ⟨fun l j i p line y s htask hissue hkeys hline hread hsound => ?_, fun l j i p s htask hissue hkeys hline _ hkept hwell => ?_,
    fun l j i p nonce s htask hissue hkeys hline hlost hkept => ?_,
    fun l j i p line y s htask hissue hkeys hline hread hlost hsound => ?_⟩
  · exact ⟨_, exec_streamLoad htask ⟨⟨hissue, hkeys, hline⟩, hread, hsound⟩, ranTo_modJob_complete_same s l.val j _,
      keeps_modJob_complete_same _ _ _ _⟩
  · have asked := keeps_askDraw s (drawClass s j) (.lane j l.val) 12
    refine ⟨_, exec_streamSave htask ⟨hissue, hkeys, hline⟩, ?_⟩
    rw [withDraw_of_asking hkept hwell]
    refine ⟨?_, rfl, fun k hk => ?_, keepsBut.step (keeps_modJob _ _ _) (by decide) (asked.sub (by decide))⟩
    · rw [getJob_modJob_same, asked.getJob_eq rfl]
    · rw [getJob_modJob_other _ _ hk, asked.getJob_eq rfl]
  · refine ⟨_, exec_streamSave htask ⟨hissue, hkeys, hline⟩, ?_⟩
    rw [withDraw_of_kept hkept, writeLine_same _ _ _ _ hlost (by rfl) (by rfl)]
    exact complete_lineIssued s l.val j p _ _ _
  · obtain ⟨hring, hcls⟩ := takeStream_ok_ring_cls hread
    refine ⟨_, exec_streamUpdate htask ⟨⟨hissue, hkeys, hline⟩, hread, hsound⟩, ?_⟩
    rw [writeLine_same _ _ _ _ hlost hring hcls]
    exact complete_lineIssued s l.val j p y _ _

end Sys2Proof.Machine
end

section
/-! SUPPORT. Lane faults (R173, R175): what a string's Containment notes, how the fault of a lane ends its jobs and returns the staged ones,
and the proof of O41. -/

namespace Sys2Proof.Machine

/-! ### The string of the lane (R391) -/

/-- The strings contained after string `n` enters Containment. -/
theorem containString_strings (s : State) (n trigger : Nat) :
    (containString s n trigger).mode.strings = s.mode.strings ||| BitVec.ofNat 4 (2 ^ n) := by
  unfold containString
  extract_lets lanes rings s1 s2 s3
  have scans : keepsBut [.rings, .ai] s1 s2 := keepsBut.each (fun t r => keeps_scanEnd t r .left) (keepsBut.refl _ s1)
  have raised : keepsBut [.rings, .ai, .ledger, .relay] s1 (raise s3 195) :=
    keepsBut.step (keeps_raise _ _) (by decide) (keepsBut.step (keeps_containRecord _ _ _ _) (by decide) (scans.sub (by decide)))
  have hmode := (keepsBut.when (c := s3.mode.irqCont) raised (fun _ h => keepsBut.step (keeps_irqBlock _ 32) (by decide) h)).mode_eq rfl
  rw [hmode]
  rfl

/-- The bit of string `n` is set. -/
theorem tb_or_string (x : BitVec 4) {n : Nat} (h : n < 4) : tb (x ||| BitVec.ofNat 4 (2 ^ n)) n = true := by
  have hlt : 2 ^ n < 2 ^ 4 := Nat.pow_lt_pow_right (by decide) h
  rw [tb, BitVec.toNat_or, BitVec.toNat_ofNat, Nat.mod_eq_of_lt hlt, Nat.testBit_or, Nat.testBit_two_pow_self, Bool.or_true]

theorem stringOf_lt (l : Fin 16) : stringOf l.val < 4 := Nat.div_lt_of_lt_mul l.isLt

/-! ### The end of the jobs (R175) -/

/-- Job `j` is over with LANE_FAULT. -/
def faultOver (s : State) (j : Nat) : Prop := (getJob s j).isOver = true ∧ (getJob s j).status = .laneFault

theorem faultOver.kept {s t : State} {j : Nat} (h : faultOver s j) (hkept : endKept s t j) : faultOver t j :=
  ⟨hkept.1.trans h.1, hkept.2.trans h.2⟩

/-- A job that ends aside is over with the status that it ends with. -/
theorem endAside_over (s : State) (j : Nat) (st : Status) (lane : Option Nat) :
    (getJob (endAside s j st lane) j).isOver = true ∧ (getJob (endAside s j st lane) j).status = st := by
  have ended := finishJob_ended (modJob s j (fun x => { x with status := st, isOver := true })) j lane
  exact ⟨ended.isOver, ended.status.trans (by rw [getJob_modJob_same])⟩

/-- A job that is not over yet, or is over with LANE_FAULT already, is over with LANE_FAULT after the fault. -/
theorem faultJob_over {s : State} {j : Nat} (lead : Nat) (h : (getJob s j).isOver = true → (getJob s j).status = .laneFault) :
    faultOver (faultJob lead s j) j := by
  have wiped := (wipeEnded_keysLost s j 2).endKept j
  unfold faultJob
  extract_lets s1
  split
  · split
    · next hover => exact ⟨hover, wiped.2.trans (h (wiped.1.symm.trans hover))⟩
    · exact getJob_endHard _ _ _
  · exact endAside_over _ _ _ _

/-- The fault ends no other job with the one that it ends. -/
theorem faultJob_endKept (lead : Nat) (s : State) {j k : Nat} (h : j ≠ k) : endKept s (faultJob lead s k) j := by
  have wiped := (wipeEnded_keysLost s k 2).endKept j
  unfold faultJob
  extract_lets s1
  split
  · split
    · exact wiped
    · exact wiped.trans (((dropWork_keysLost s1 k 2).endKept j).trans (.of_getJob_eq (getJob_modJob_other _ _ h)))
  · have aside := finishJob_ended (modJob s1 k (fun x => { x with status := .laneFault, isOver := true })) k (some lead)
    exact wiped.trans (endKept.trans (.of_getJob_eq (getJob_modJob_other _ _ h)) (aside.others j h))

/-- The first job that the fault ends stays over with LANE_FAULT while the fault ends others. -/
theorem faultJobs_over {s : State} {j : Nat} (lead : Nat) (js : List Nat) (h : (getJob s j).isOver = false) :
    faultOver (forAll (j :: js) (faultJob lead) s) j := by
  have hfirst : faultOver (faultJob lead s j) j := faultJob_over lead (fun hover => by rw [h] at hover; cases hover)
  refine forAll_preserves (P := fun t => faultOver t j) (fun t k ht => ?_) js hfirst
  by_cases hk : j = k
  · subst hk
    exact faultJob_over lead (fun _ => ht.2)
  · exact ht.kept (faultJob_endKept lead t hk)

/-! ### The return of staged jobs (R136, R175) -/

/-- A change of a job that touches neither whether it has ended nor its status. -/
theorem modJob_endKept (s : State) (k j : Nat) {f : Job → Job} (hf : ∀ x, (f x).isOver = x.isOver ∧ (f x).status = x.status) :
    endKept s (modJob s k f) j := by
  by_cases h : j = k
  · subst h
    rw [endKept, getJob_modJob_same]
    exact hf _
  · exact .of_getJob_eq (getJob_modJob_other _ _ h)

theorem returnJob_endKept (s : State) (k j : Nat) : endKept s (returnJob s k) j := by
  unfold returnJob unprepare
  extract_lets s1 s2
  have released : endKept s s1 j :=
    (endKept.of_getJob_eq ((keeps_unseat s k).getJob_eq rfl j)).trans ((releaseKeys_keysLost _ k).endKept j)
  have orphaned : endKept s s2 j :=
    (released.trans (modJob_endKept s1 k j (by exact fun _ => ⟨rfl, rfl⟩))).trans
      (.of_getJob_eq ((keeps_orphanReads _ k).getJob_eq rfl j))
  exact orphaned.trans (modJob_endKept s2 k j (by exact fun _ => ⟨rfl, rfl⟩))

theorem queueFront_endKept (s : State) (js : List Nat) (j : Nat) : endKept s (queueFront s js) j := by
  unfold queueFront
  extract_lets of_ s1
  have queued : endKept s s1 j := forAll_preserves (P := fun t => endKept s t j)
    (fun t k ht => ht.trans (modJob_endKept t k j (by exact fun _ => ⟨rfl, rfl⟩))) js (.of_getJob_eq rfl)
  exact queued.trans (.of_getJob_eq (getJob_upMuster _ _ _))

/-- The staged jobs of some lanes go back in the order of their admission. -/
theorem returnLanes_eq (s : State) (ls : List Nat) :
    returnLanes s ls = queueFront (forAll (byAdm s (ls.flatMap (fun l => (getLane s l).staged))) returnJob s)
      (byAdm s (ls.flatMap (fun l => (getLane s l).staged))) := rfl

theorem returnLanes_endKept (s : State) (ls : List Nat) (j : Nat) : endKept s (returnLanes s ls) j := by
  rw [returnLanes_eq]
  refine endKept.trans ?_ (queueFront_endKept _ _ j)
  exact forAll_preserves (P := fun t => endKept s t j) (fun t k ht => ht.trans (returnJob_endKept t k j)) _ (.of_getJob_eq rfl)

theorem staged_returnLanes {s : State} {ls : List Nat} {l : Nat} (h : l ∈ ls) : (getLane (returnLanes s ls) l).staged = [] := by
  rw [returnLanes_eq, (keeps_queueFront _ _).getLane_eq rfl]
  exact staged_returnJobs fun j hj => (mem_byAdm s j _).mpr (List.mem_flatMap.mpr ⟨l, h, hj⟩)

/-! ### The lanes of the target (R169, R175) -/

theorem lead_mem_members (s : State) (l : Nat) : l ∈ members s l := by
  unfold members
  split <;> exact List.mem_cons_self

/-- Every lane of the list is quarantined. -/
theorem quarantineLanes_quarantine {ls : List Nat} {k : Nat} (h : k ∈ ls) (s : State) :
    (getUnit (forAll ls quarantineLane s) (laneUnit k)).quarantine = true := by
  refine forAll_establishes (P := fun t => (getUnit t (laneUnit k)).quarantine = true) (fun t => ?_) (fun t m ht => ?_) h s
  · rw [quarantineLane, getUnit_modUnit_same]
  · by_cases hk : laneUnit k = laneUnit m
    · rw [hk, quarantineLane, getUnit_modUnit_same]
    · rw [quarantineLane, getUnit_modUnit_other _ _ hk, ht]

/-! ### The fault of a lane (R173, R175) -/

/-- The jobs that the fault of lane `l` ends: the running one, and those saved. -/
def faultJobs (s : State) (l : Nat) : List Nat :=
  (getLane s (leadOf s l)).run.toList.filter (fun j => !(getJob s j).isOver) ++ (getLane s (leadOf s l)).saved

/-- The state in which the string is contained and the jobs of the fault have ended. -/
def faultEnded (s : State) (l : Nat) : State := forAll (faultJobs s l) (faultJob (leadOf s l)) (containString s (stringOf l) 11)

/-- The state in which the staged jobs of the target and its Courier job have gone back to their queues. -/
def faultReturned (s : State) (l : Nat) : State :=
  match (getLane s (leadOf s l)).courier with
  | some j => queueFront (returnJob (returnLanes (faultEnded s l) (members s (leadOf s l))) j) [j]
  | none => returnLanes (faultEnded s l) (members s (leadOf s l))

/-- A lane that a fatal fault has put out of use. -/
def laneFaulted (n : LaneRec) : LaneRec := { n with faulted := true, kat := false, retest := false }

/-- A lane that no preemption is asked of. -/
def preemptCleared (n : LaneRec) : LaneRec := { n with preempt := false }

/-- The state in which the lane is FAULTED, and its target is quarantined. -/
def faultMarked (s : State) (l : Nat) : State :=
  modLane (forAll (members s (leadOf s l)) quarantineLane (modLane (faultReturned s l) l laneFaulted)) (leadOf s l) preemptCleared

theorem faultLane_eq (s : State) (l row : Nat) : faultLane s l row =
    testsEnd (emit (faultMarked s l) 3 0x203 Status.laneFault.code [w32 l, w32 row, w32 (faultJobs s l).length]) (trainOf l) := rfl

/-- The record of the fault, and the end of its train's tests, leave the units, the jobs, the lanes and the mode. -/
theorem keeps_faultMarked_faultLane (s : State) (l row : Nat) :
    keepsBut [.relay, .ledger, .ai, .ration] (faultMarked s l) (faultLane s l row) := by
  rw [faultLane_eq]
  exact keepsBut.step (keeps_testsEnd _ _) (by decide) ((keeps_emit _ _ _ _ _).sub (by decide))

theorem keeps_faultReturned_faultMarked (s : State) (l : Nat) : keepsBut [.units, .lanes] (faultReturned s l) (faultMarked s l) :=
  keepsBut.step (keeps_modLane _ _ _) (by decide) (keepsBut.each (fun t k => (keeps_quarantineLane t k).sub (by decide))
    ((keeps_modLane _ _ _).sub (by decide)))

theorem keeps_faultEnded_faultReturned (s : State) (l : Nat) :
    keepsBut [.jobs, .lanes, .muster, .serai, .ai] (faultEnded s l) (faultReturned s l) := by
  unfold faultReturned
  split
  · exact keepsBut.step (keeps_queueFront _ _) (by decide) (keepsBut.step (keeps_returnJob _ _) (by decide) (keeps_returnLanes _ _))
  · exact keeps_returnLanes _ _

theorem getLane_faultMarked (s : State) (l k : Nat) : getLane (faultMarked s l) k =
    getLane (modLane (modLane (faultReturned s l) l laneFaulted) (leadOf s l) preemptCleared) k := by
  have quarantined : keepsBut [.units] (modLane (faultReturned s l) l laneFaulted)
      (forAll (members s (leadOf s l)) quarantineLane (modLane (faultReturned s l) l laneFaulted)) :=
    keepsBut.each keeps_quarantineLane (keepsBut.refl _ _)
  rw [getLane, getLane, faultMarked, modLane_lanes, modLane_lanes _ (leadOf s l), quarantined.lanes_eq rfl]

/-- A change of a lane that leaves its staged jobs leaves those of every lane. -/
theorem staged_modLane (s : State) (m k : Nat) {f : LaneRec → LaneRec} (hf : ∀ n, (f n).staged = n.staged) :
    (getLane (modLane s m f) k).staged = (getLane s k).staged := by
  by_cases h : k = m
  · rw [h, getLane_modLane_same, hf]
  · rw [getLane_modLane_other _ _ h]

theorem staged_faultMarked (s : State) (l k : Nat) : (getLane (faultMarked s l) k).staged = (getLane (faultReturned s l) k).staged := by
  rw [getLane_faultMarked, staged_modLane _ _ _ (f := preemptCleared) (fun _ => rfl),
    staged_modLane _ _ _ (f := laneFaulted) (fun _ => rfl)]

/-- The lane is FAULTED, and no test of it runs. -/
theorem lane_faultMarked (s : State) (l : Nat) :
    (getLane (faultMarked s l) l).faulted = true ∧ (getLane (faultMarked s l) l).kat = false := by
  rw [getLane_faultMarked]
  by_cases h : l = leadOf s l
  · rw [← h, getLane_modLane_same, getLane_modLane_same]
    exact ⟨rfl, rfl⟩
  · rw [getLane_modLane_other _ _ h, getLane_modLane_same]
    exact ⟨rfl, rfl⟩

/-- No job is staged on the target any more. -/
theorem staged_faultReturned (s : State) (l : Nat) : (getLane (faultReturned s l) (leadOf s l)).staged = [] := by
  have hreturned := staged_returnLanes (s := faultEnded s l) (lead_mem_members s (leadOf s l))
  unfold faultReturned
  split
  · rw [(keeps_queueFront _ _).getLane_eq rfl, staged_returnJob, hreturned, List.filter_nil]
  · exact hreturned

theorem faultReturned_endKept (s : State) (l j : Nat) : endKept (faultEnded s l) (faultReturned s l) j := by
  have returned := returnLanes_endKept (faultEnded s l) (members s (leadOf s l)) j
  unfold faultReturned
  split
  · exact (returned.trans (returnJob_endKept _ _ j)).trans (queueFront_endKept _ _ j)
  · exact returned

/-- The running job is over with LANE_FAULT. -/
theorem faultEnded_over {s : State} {l j : Nat} (hrun : (getLane s (leadOf s l)).run = some j) (hover : (getJob s j).isOver = false) :
    faultOver (faultEnded s l) j := by
  have hjobs : faultJobs s l = j :: (getLane s (leadOf s l)).saved := by simp [faultJobs, hrun, hover]
  rw [faultEnded, hjobs]
  exact faultJobs_over _ _ (by rw [(keeps_containString _ _ _).getJob_eq rfl, hover])

/-- The string stays contained while the fault ends its jobs. -/
theorem faultEnded_strings (s : State) (l : Nat) : (faultEnded s l).mode.strings = s.mode.strings ||| BitVec.ofNat 4 (2 ^ stringOf l) := by
  have ended : keepsBut [.units, .rings, .jobs, .lanes, .muster, .serai, .mint, .house, .scales, .well, .relay, .ledger, .ai]
      (containString s (stringOf l) 11) (faultEnded s l) := keepsBut.each (keeps_faultJob _) (keepsBut.refl _ _)
  rw [ended.mode_eq rfl, containString_strings]

/-! ### SEQUENCER_WATCHDOG and FATAL_LANE_FAULT (Table 6.8) -/

theorem exec_sequencerWatchdog {s : State} {l : Fin 16} {j : Nat} (hl : laneLive s l.val = true)
    (hr : (getLane s (leadOf s l.val)).run = some j) (ho : (getJob s j).isOver = false) (hs : 2 ^ 20 ≤ (getJob s j).stuck) :
    exec (.sequencerWatchdog l) s = .next (faultLane s l.val 5) := by
  show execSequencerWatchdog l s = _
  simp only [execSequencerWatchdog, hr]
  exact if_pos (by simpa [hl, ho] using hs)

theorem exec_fatalLaneFault {s : State} {l : Fin 16} {row : Fin 8} (hl : laneLive s l.val = true) (h2 : 2 ≤ row.val)
    (h5 : row.val ≤ 5) :
    exec (.fatalLaneFault l row) s = .next (faultLane s l.val row.val) := by
  show execFatalLaneFault l row s = _
  exact if_pos (by simp [hl, h2, h5])

/-- What the fault of a lane leaves, whatever its row of Table 6.8. -/
theorem faultLane_quarantines {s : State} {l : Fin 16} {j : Nat} (hrun : (getLane s (leadOf s l.val)).run = some j)
    (hover : (getJob s j).isOver = false) (row : Nat) :
    let t := faultLane s l.val row
    (getLane t l.val).faulted = true ∧ (getLane t l.val).kat = false ∧
      (∀ k, k ∈ members s (leadOf s l.val) → (getUnit t (laneUnit k)).quarantine = true) ∧
      (getLane t (leadOf s l.val)).staged = [] ∧ (getJob t j).isOver = true ∧ (getJob t j).status = .laneFault ∧
      tb t.mode.strings (stringOf l.val) = true ∧ t.fuse = s.fuse ∧ t.watch = s.watch ∧ t.pending = s.pending := by
  intro t
  have recorded : keepsBut _ (faultMarked s l.val) t := keeps_faultMarked_faultLane s l.val row
  have marked := keeps_faultReturned_faultMarked s l.val
  have returned := keeps_faultEnded_faultReturned s l.val
  have keep : keepsBut _ s t := keeps_faultLane s l.val row
  obtain ⟨hfaulted, hkat⟩ := lane_faultMarked s l.val
  obtain ⟨hends, hstatus⟩ := (faultEnded_over hrun hover).kept (faultReturned_endKept s l.val j)
  rw [recorded.getLane_eq rfl, recorded.getLane_eq rfl, recorded.getJob_eq rfl, marked.getJob_eq rfl, staged_faultMarked]
  refine ⟨hfaulted, hkat, fun k hk => ?_, staged_faultReturned s l.val, hends, hstatus, ?_, keep.fuse_eq rfl, keep.watch_eq rfl, keep.1⟩
  · rw [recorded.getUnit_eq rfl, faultMarked, (keeps_modLane _ _ _).getUnit_eq rfl]
    exact quarantineLanes_quarantine hk _
  · rw [recorded.mode_eq rfl, marked.mode_eq rfl, returned.mode_eq rfl, faultEnded_strings]
    exact tb_or_string _ (stringOf_lt l)

/-- Settles O41: the sequencer's watchdog and a fatal lane fault, by what the fault of a lane leaves. -/
theorem laneFaultsQuarantine : Obligations.LaneFaultsQuarantine := by
  unfold Obligations.LaneFaultsQuarantine
  rintro l c j s hlive hrun hover (⟨rfl, hstuck⟩ | ⟨row, h2, h5, rfl⟩)
  · exact ⟨_, exec_sequencerWatchdog hlive hrun hover hstuck, faultLane_quarantines hrun hover 5⟩
  · exact ⟨_, exec_fatalLaneFault hlive h2 h5, faultLane_quarantines hrun hover row.val⟩

end Sys2Proof.Machine
end

section
/-! SUPPORT. The Serai (R218, R224, R225): what a flush leaves of each slot, how SER_CMD begins its walks and refuses them, and the
proof of O25. -/

namespace Sys2Proof.Machine

/-! ### The keys of a table -/

/-- In a canonical table the listed keys of `p` are those whose value satisfies it, where an unlisted value does not. -/
theorem mem_tkeys {α : Type} [DecidableEq α] {d : α} {t : Table α} {p : Nat → α → Bool} (hw : twf d t = true) {k : Nat}
    (hd : p k d = false) : k ∈ tkeys p t ↔ p k (tget d t k) = true := by
  simp only [tkeys, List.mem_map, List.mem_filter, Prod.exists, exists_and_right, exists_eq_right]
  constructor
  · rintro ⟨v, hmem, hp⟩
    rwa [tget_of_mem hw hmem]
  · intro hp
    have hlisted : tget d t k ≠ d := fun h => by rw [h, hd] at hp; cases hp
    exact ⟨_, mem_of_tget hlisted, hp⟩

theorem nodup_tkeys {α : Type} [DecidableEq α] {d : α} {t : Table α} (p : Nat → α → Bool) (hw : twf d t = true) :
    (tkeys p t).Nodup := by
  have hkeys : (t.map Prod.fst).Nodup := by
    induction t with
    | nil => exact List.nodup_nil
    | cons kv t ih =>
      obtain ⟨k, v⟩ := kv
      simp only [twf, Bool.and_eq_true] at hw
      obtain ⟨⟨_, habove⟩, ht⟩ := hw
      refine List.nodup_cons.mpr ⟨fun hmem => ?_, ih ht⟩
      obtain ⟨⟨_, v'⟩, hlisted, rfl⟩ := List.mem_map.mp hmem
      exact Nat.lt_irrefl _ (lt_of_mem_of_tabove ht habove hlisted)
  exact hkeys.sublist (List.filter_sublist.map _)

/-! ### Flushing slots (R218, R224) -/

/-- A slot as a flush leaves it: FREE without leases, RETIRED with them. -/
def flushed (r : SlotRec) : SlotRec := if r.leases = 0 then { gen := r.gen + 1 } else { r with kind := .retired }

theorem getSlot_flushSlot_same (s : State) (k : Nat) : getSlot (flushSlot s k) k = flushed (getSlot s k) := by
  unfold flushSlot flushed
  split
  · rw [freeSlot, getSlot_modSlot_same]
  · rw [getSlot_modSlot_same]

theorem getSlot_flushSlot_other (s : State) {k m : Nat} (h : m ≠ k) : getSlot (flushSlot s k) m = getSlot s m := by
  unfold flushSlot freeSlot
  split <;> exact getSlot_modSlot_other _ _ h

/-- Each of some slots is flushed once. -/
theorem getSlot_forAll_flushSlot {l : List Nat} (h : l.Nodup) (s : State) (k : Nat) :
    getSlot (forAll l flushSlot s) k = if k ∈ l then flushed (getSlot s k) else getSlot s k := by
  induction l generalizing s with
  | nil => rfl
  | cons m l ih =>
    obtain ⟨hm, hnodup⟩ := List.nodup_cons.mp h
    show getSlot (forAll l flushSlot (flushSlot s m)) k = _
    rw [ih hnodup]
    by_cases hk : k = m
    · subst hk
      rw [if_neg hm, if_pos List.mem_cons_self, getSlot_flushSlot_same]
    · rw [getSlot_flushSlot_other _ hk]
      simp [hk]

theorem getSlot_flushWhere {s : State} (hw : twf {} s.serai.slots = true) {p : Nat → SlotRec → Bool} (hp : ∀ k, p k {} = false)
    (k : Nat) : getSlot (flushWhere s p) k = if p k (getSlot s k) then flushed (getSlot s k) else getSlot s k := by
  rw [flushWhere, getSlot_forAll_flushSlot (nodup_tkeys p hw)]
  exact ite_congr (propext (mem_tkeys hw (hp k))) (fun _ => rfl) (fun _ => rfl)

/-- No flush covers a FREE slot. -/
theorem flushTakes_free (s : State) (f : FlushOp) : flushTakes s f {} = false := by
  cases f <;> simp [flushTakes, flushCovers]

/-- FLUSH_ENTRY covers the slot of its triple. -/
theorem flushTakes_entry (s : State) (tenant : BitVec 12) (index : BitVec 24) (r : SlotRec) :
    flushTakes s (.entry tenant index) r = true ↔ r.kind = .tenant ∧ r.tenant = tenant ∧ r.index = index := by
  simp [flushTakes, flushCovers, and_assoc]

/-! ### The end of a flush (R225) -/

/-- What the end of flush `f` leaves. -/
structure FlushEnded (s : State) (f : FlushOp) (t : State) : Prop where
  idle : t.serai.cmdBusy = false
  ended : t.serai.flush = none
  result : t.serai.cmdResult = Status.done.code
  slots : ∀ k, getSlot t k = if flushTakes s f (getSlot s k) then flushed (getSlot s k) else getSlot s k
  keep : keepsBut [.serai] s t

theorem flushEnd_ends {s : State} {f : FlushOp} (hf : s.serai.flush = some f) (hw : twf {} s.serai.slots = true) :
    FlushEnded s f (flushEnd s) := by
  have hend : flushEnd s = upSerai (flushWhere s (fun _ r => flushTakes s f r))
      (fun x => { x with flush := none, cmdBusy := false, cmdResult := Status.done.code }) := by
    simp only [flushEnd, hf]
  rw [hend]
  exact ⟨rfl, rfl, rfl, getSlot_flushWhere (p := fun _ r => flushTakes s f r) hw (fun _ => flushTakes_free s f),
    keepsBut.step (keeps_upSerai _ _) (by decide) (keeps_flushWhere _ _)⟩

theorem flushWalkDone_ends {s : State} {f : FlushOp} (hf : s.serai.flush = some f) (hw : twf {} s.serai.slots = true) :
    ∃ t, exec .flushWalkDone s = .next t ∧ FlushEnded s f t := ⟨_, rfl, flushEnd_ends hf hw⟩

/-! ### SER_CMD (R224, R225) -/

/-- The state in which the walk of flush `f` is in progress. -/
def flushBegun (s : State) (f : FlushOp) : State := upSerai s (fun x => { x with cmdBusy := true, flush := some f })

@[simp] theorem getSlot_flushBegun (s : State) (f : FlushOp) (k : Nat) : getSlot (flushBegun s f) k = getSlot s k := rfl

theorem serBegin_of_idle {s : State} (h : s.serai.cmdBusy = false) (p : CtlPort) (word : Nat) (f : FlushOp) :
    serBegin s p word f = flushBegun s f := if_neg (by simp [h])

theorem serBegin_of_busy {s : State} (h : s.serai.cmdBusy = true) (p : CtlPort) (word : Nat) (f : FlushOp) :
    serBegin s p word f = refuseCmd s p serCmd .accessFault word := if_pos h

@[simp] theorem tookWrite_serai (s : State) (p : CtlPort) (off n : Nat) : (tookWrite s p off n).serai = s.serai :=
  (keeps_tookWrite s p off n).serai_eq rfl

section
variable {p : CtlPort} {s : State} (h : mayTake s p serCmd 4 = true) (tenant : BitVec 12)
include h

theorem exec_flushEntry : exec (.flushEntry p tenant) s =
    .next (if s.serai.cmdBusy then serBegin (tookWrite s p serCmd 4) p (1 + 65536 * tenant.toNat) (.entry tenant s.serai.cmdIndex)
      else flushEnd (serBegin (tookWrite s p serCmd 4) p (1 + 65536 * tenant.toNat) (.entry tenant s.serai.cmdIndex))) := by
  show execFlushEntry p tenant s = _
  rw [execFlushEntry, portCmd_of_mayTake h]
  simp only [tookWrite_serai]

theorem exec_flushTenant : exec (.flushTenant p tenant) s =
    .next (serBegin (tookWrite s p serCmd 4) p (2 + 65536 * tenant.toNat) (.tenant tenant)) := by
  show execFlushTenant p tenant s = _
  rw [execFlushTenant, portCmd_of_mayTake h]

theorem exec_flushStale : exec (.flushStale p tenant) s =
    .next (serBegin (tookWrite s p serCmd 4) p (3 + 65536 * tenant.toNat) (.stale tenant)) := by
  show execFlushStale p tenant s = _
  rw [execFlushStale, portCmd_of_mayTake h]

theorem exec_flushAll : exec (.flushAll p) s = .next (serBegin (tookWrite s p serCmd 4) p 4 .all) := by
  show execFlushAll p s = _
  rw [execFlushAll, portCmd_of_mayTake h]

/-- FLUSH_ENTRY of an idle walk is over at once. -/
theorem flushEntry_ends (hidle : s.serai.cmdBusy = false) (hw : twf {} s.serai.slots = true) :
    ∃ t, exec (.flushEntry p tenant) s = .next t ∧
      FlushEnded (flushBegun (tookWrite s p serCmd 4) (.entry tenant s.serai.cmdIndex)) (.entry tenant s.serai.cmdIndex) t := by
  have hexec := exec_flushEntry h tenant
  rw [if_neg (by simp [hidle]), serBegin_of_idle (by rw [tookWrite_serai, hidle])] at hexec
  exact ⟨_, hexec, flushEnd_ends rfl (by simpa [flushBegun] using hw)⟩

end

/-- A walk that begins. -/
theorem flushWalk_begins {p : CtlPort} {s : State} {c : Instr} {word : Nat} {f : FlushOp}
    (hidle : s.serai.cmdBusy = false) (hexec : exec c s = .next (serBegin (tookWrite s p serCmd 4) p word f)) :
    ∃ t, exec c s = .next t ∧ t.serai = { s.serai with cmdBusy := true, flush := some f } ∧
      keepsBut [.serai] (tookWrite s p serCmd 4) t := by
  refine ⟨_, hexec, ?_⟩
  rw [serBegin_of_idle (by rw [tookWrite_serai, hidle]), flushBegun]
  exact ⟨by rw [upSerai_serai, tookWrite_serai], keeps_upSerai _ _⟩

/-- The low half of a word as a record carries it. -/
theorem getHalf_w64_low (n : Nat) : getHalf (w64 n) false = w32 n :=
  BitVec.setWidth_ofNat_of_le (show 32 ≤ 64 by decide) n

/-- A command that finds the walk busy is refused and logged. -/
theorem flushCommand_refused {p : CtlPort} {s : State} {c : Instr} {word : Nat} {f : FlushOp} (hbusy : s.serai.cmdBusy = true)
    (hexec : exec c s = .next (serBegin (tookWrite s p serCmd 4) p word f)) :
    ∃ t, exec c s = .next t ∧
      recordOffered s t 4 1 Status.accessFault.code [w32 (serCmd + 2 ^ 24 * portBit p + 2 ^ 27), w32 word] ∧
      keepsBut [.ledger] (tookWrite s p serCmd 4) t := by
  have took := keeps_tookWrite s p serCmd 4
  have hprod : producerOf serCmd = 4 := by decide
  rw [serBegin_of_busy (by rw [tookWrite_serai, hbusy])] at hexec
  refine ⟨_, hexec, ?_, keeps_refuseCmd _ _ _ _ _⟩
  rw [recordOffered, refuseCmd, regLog, hprod, getHalf_w64_low]
  simp only [emit, emitFor, upLedger_ledger, took.ledger_eq rfl, took.cycle_eq rfl]
  rfl

/-- Settles O25: by what the end of a flush leaves of each slot, and by how SER_CMD begins a walk or refuses it. -/
theorem flushesFreeOrRetire : Obligations.FlushesFreeOrRetire := by
  unfold Obligations.FlushesFreeOrRetire
  refine ⟨fun p tenant s h hidle hw => ?_, fun p tenant s h hidle => flushWalk_begins hidle (exec_flushTenant h tenant),
    fun p tenant s h hidle => flushWalk_begins hidle (exec_flushStale h tenant),
    fun p s h hidle => flushWalk_begins hidle (exec_flushAll h), fun p tenant c op s h hbusy hc => ?_, fun f s hf hw => ?_⟩
  · obtain ⟨t, hexec, hend⟩ := flushEntry_ends h tenant hidle hw
    refine ⟨t, hexec, hend.idle, hend.ended, hend.result, fun k => ?_, keepsBut.trans (keeps_upSerai _ _) hend.keep⟩
    rw [hend.slots, getSlot_flushBegun, (keeps_tookWrite s p serCmd 4).getSlot_eq rfl]
    exact ite_congr (propext (flushTakes_entry _ _ _ _)) (fun _ => rfl) (fun _ => rfl)
  · have hentry := exec_flushEntry h tenant
    rw [if_pos hbusy] at hentry
    simp only [List.mem_cons, Prod.mk.injEq, List.not_mem_nil, or_false] at hc
    rcases hc with ⟨rfl, rfl⟩ | ⟨rfl, rfl⟩ | ⟨rfl, rfl⟩ | ⟨rfl, rfl⟩
    · exact flushCommand_refused hbusy hentry
    · exact flushCommand_refused hbusy (exec_flushTenant h tenant)
    · exact flushCommand_refused hbusy (exec_flushStale h tenant)
    · exact flushCommand_refused hbusy (exec_flushAll h)
  · obtain ⟨t, hexec, hend⟩ := flushWalkDone_ends hf hw
    exact ⟨t, hexec, hend.idle, hend.ended, hend.result, hend.slots, hend.keep⟩

end Sys2Proof.Machine
end

section
/-! SUPPORT. Dead slots (R227): what SLOT_UNCORRECTABLE does, and the refutation of O26 by a slot that is listed twice. -/

namespace Sys2Proof.Machine

/-! ### SLOT_UNCORRECTABLE (R227) -/

/-- The running jobs whose instruction touches slot `k`. -/
def struckJobs (s : State) (k : Nat) : List Nat :=
  ((List.range 16).filterMap (fun l => (getLane s l).run)).filter (fun j =>
    touches s k j && !(getJob s j).isOver && (getJob s j).wait = .nothing)

/-- The state in which slot `k` is DEAD, its record is offered, and the jobs that touched it have ended. -/
def slotStruck (s : State) (k : Nat) : State :=
  forAll (struckJobs s k) (fun s j => endHard s j .keyConflict) (seraiRecord (deadSlot s k) k 3 Status.keyConflict.code)

theorem exec_slotUncorrectable {s : State} (h : s.serai.zeroed = false) (slot : BitVec 15) :
    exec (.slotUncorrectable slot) s = .next (slotStruck s slot.toNat) := by
  show execSlotUncorrectable slot s = _
  rw [execSlotUncorrectable, if_neg (by simp [h])]
  rfl

/-! ### A slot listed twice -/

/-- Slot 5 is an INTERNAL slot, the record of tenant 0, and the table of slots, which is not canonical, lists under the same key a HOLDING
of bench 0 behind it. Job 1 runs a KEY on lane 0, which reads that record, and an operation of its own on bench 0. -/
def shadowedHolding : State where
  serai := { slots := [(5, { kind := .internal, index := BitVec.ofNat 24 (idxRecord 0) }), (5, { kind := .holding, held := true })] }
  jobs := [(1, { word0 := 0x101, slots := [0x01], seat := .running 0 })]
  lanes := [(0, { run := some 1 })]
  house := { benches := [(0, { run := some { job := 1 } })] }

/-- The job's KEY touches the slot, so the error ends the job. -/
theorem struckJobs_shadowedHolding : struckJobs shadowedHolding 5 = [1] := by decide

/-- The slot dies and the HOLDING listed behind it stays; the end of the job wipes bench 0, and the flush of the bench's holdings (R196)
finds the HOLDING's key and frees the slot that is read there. -/
theorem slotStruck_shadowedHolding_free : (getSlot (slotStruck shadowedHolding 5) 5).kind = .free := by
  rw [slotStruck, struckJobs_shadowedHolding]
  decide +kernel

/-- Refutes O26: its last clause has no premise that the table of slots is canonical, as the clauses of O25 that free slots have. In
`shadowedHolding`, where it is not, the slot that was struck is FREE in the end and not DEAD. -/
theorem not_masksAndDeadSlots : ¬ Obligations.MasksAndDeadSlots := by
  unfold Obligations.MasksAndDeadSlots
  rintro ⟨_, _, _, _, hstruck⟩
  obtain ⟨t, hexec, hdead, _⟩ := hstruck 5 shadowedHolding rfl
  obtain rfl : slotStruck shadowedHolding 5 = t := by
    simpa using (exec_slotUncorrectable (s := shadowedHolding) rfl 5).symm.trans hexec
  have hkind : (getSlot (slotStruck shadowedHolding 5) 5).kind = .dead := hdead
  rw [slotStruck_shadowedHolding_free] at hkind
  cases hkind

end Sys2Proof.Machine
end

section
/-! SUPPORT. The Well (R276 to R283): what HEALTH_TEST_FAIL does, that the entry into FAILED ends a GENROOT that waits for its draw, and the
refutation of O43 by the failure of the last healthy source in that moment. -/

namespace Sys2Proof.Machine

/-! ### HEALTH_TEST_FAIL (R276, R277, R278) -/

/-- A reseed that is abandoned (R284) changes neither the Well's state, nor its healthy sources, nor the draws that wait. -/
theorem reseedUndone_keeps (c n : Nat) (w : WellRec) :
    (reseedUndone c n w).state = w.state ∧ (reseedUndone c n w).srcOk = w.srcOk ∧ (reseedUndone c n w).draws = w.draws := by
  rw [reseedUndone]
  split
  · split <;> exact ⟨rfl, rfl, rfl⟩
  · exact ⟨rfl, rfl, rfl⟩

theorem sourceOut_state (c n : Nat) (w : WellRec) : (sourceOut c n w).state = w.state := (reseedUndone_keeps c n w).1

theorem sourceOut_srcOk (c n : Nat) (w : WellRec) : (sourceOut c n w).srcOk = w.srcOk &&& ~~~BitVec.ofNat 4 (2 ^ n) :=
  congrArg (· &&& _) (reseedUndone_keeps c n w).2.1

theorem sourceOut_draws (c n : Nat) (w : WellRec) : (sourceOut c n w).draws = w.draws := (reseedUndone_keeps c n w).2.2

@[simp] theorem sourceFails_well (s : State) (n test : Nat) : (sourceFails s n test).well = sourceOut s.cycle n s.well := rfl

/-- A source whose repetition count test fails outside a start-up test is excluded, and the Well takes the state that follows. -/
theorem exec_healthTestFail_repetition {s : State} {n : Fin 4} (hserved : portsServed s = true) (hlive : s.well.zeroed = false)
    (hfail : repeats (getSource s.well n.val) = true) (hstarts : (startSources s &&& ~~~s.well.startFail).toNat.testBit n.val = false)
    (hinst : s.well.state ≠ .notInst) :
    exec (.healthTestFail n .repetition) s =
      .next (wellEnter (sourceFails s n.val 1) (wellStateOf (sourceOut s.cycle n.val s.well))) := by
  show execHealthTestFail n .repetition s = _
  simp only [execHealthTestFail, hfail, hstarts]
  simp [hserved, hlive, sourceOut_state, hinst]

theorem wellStateOf_of_no_source {w : WellRec} (h : w.srcOk = 0) : wellStateOf w = .failed := by
  simp [wellStateOf, h]

/-! ### GENROOT and a Well that fails (R283, R408) -/

theorem drawFails_fuseCmd_of_genroot (s : State) {d : DrawRec} (h : d.who = .genroot) : (drawFails s d).fuse.cmd = none := by
  rw [drawFails, h]
  rfl

/-- No draw that fails begins a fuse command. -/
theorem drawFails_fuseCmd_none {s : State} (h : s.fuse.cmd = none) (d : DrawRec) : (drawFails s d).fuse.cmd = none := by
  cases hwho : d.who with
  | genroot => exact drawFails_fuseCmd_of_genroot s hwho
  | remask => simpa [drawFails, hwho] using h
  | bench b _ => simpa [drawFails, hwho, (keeps_benchDry s b).fuse_eq rfl] using h
  | ctx c _ => simpa [drawFails, hwho, (keeps_ctxDry s c).fuse_eq rfl] using h
  | lane j _ => simpa [drawFails, hwho, (keeps_failJob s j _).fuse_eq rfl] using h
  | replacement => simpa [drawFails, hwho] using h

theorem foldl_drawFails_fuseCmd_none (ds : List DrawRec) (s : State) (h : s.fuse.cmd = none ∨ ∃ d ∈ ds, d.who = .genroot) :
    (ds.foldl drawFails s).fuse.cmd = none := by
  induction ds generalizing s with
  | nil => simpa using h
  | cons d ds ih =>
    apply ih
    rcases h with hnone | ⟨e, he, hwho⟩
    · exact .inl (drawFails_fuseCmd_none hnone d)
    · rcases List.mem_cons.mp he with rfl | hrest
      · exact .inl (drawFails_fuseCmd_of_genroot s hwho)
      · exact .inr ⟨e, hrest, hwho⟩

theorem foldl_requestFails_fuse {α : Type} (who : α → ScWho) (job : α → Nat) (l : List α) (s : State) :
    (l.foldl (fun s r => requestFails s (who r) (job r) .entropyFail) s).fuse = s.fuse :=
  (keepsBut.fold (fun t r => keeps_requestFails t (who r) (job r) .entropyFail) l s (.refl _ s)).fuse_eq rfl

/-- R283: a GENROOT that waits for its draw ends when the waiting draws fail. -/
theorem failDraws_fuseCmd_none {s : State} (h : ∃ d ∈ s.well.draws, d.who = .genroot) : (failDraws s).fuse.cmd = none := by
  rw [failDraws, foldl_requestFails_fuse, foldl_requestFails_fuse]
  exact foldl_drawFails_fuseCmd_none _ _ (.inr h)

theorem whenS_draws {f : State → State} (hf : ∀ t, (f t).well.draws = t.well.draws) (c : Bool) (s : State) :
    (whenS c f s).well.draws = s.well.draws := by
  cases c
  · rfl
  · exact hf s

theorem wellSetState_draws (s : State) (st : WellState) : (wellSetState s st).well.draws = s.well.draws := by
  rw [wellSetState, whenS_draws, whenS_draws]
  · rfl
  · exact fun _ => rfl
  · exact fun _ => rfl

theorem wellEnter_failed_fuseCmd_none {s : State} (h : ∃ d ∈ s.well.draws, d.who = .genroot) :
    (wellEnter s .failed).fuse.cmd = none := by
  have hfails : (failDraws (wellSetState s .failed)).fuse.cmd = none := failDraws_fuseCmd_none (by rwa [wellSetState_draws])
  simp only [wellEnter, if_true]
  split
  · rwa [(keeps_holdSelfCheck _ _).fuse_eq rfl]
  · exact hfails

/-- The failure of the last healthy source ends a GENROOT that waits for its draw (R278, R283). -/
theorem exec_healthTestFail_ends_genroot {s : State} {n : Fin 4} (hserved : portsServed s = true) (hlive : s.well.zeroed = false)
    (hfail : repeats (getSource s.well n.val) = true) (hstarts : (startSources s &&& ~~~s.well.startFail).toNat.testBit n.val = false)
    (hinst : s.well.state ≠ .notInst) (hlast : s.well.srcOk &&& ~~~BitVec.ofNat 4 (2 ^ n.val) = 0)
    (hdraw : ∃ d ∈ s.well.draws, d.who = .genroot) :
    ∃ t, exec (.healthTestFail n .repetition) s = .next t ∧ t.fuse.cmd = none := by
  refine ⟨_, exec_healthTestFail_repetition hserved hlive hfail hstarts hinst, ?_⟩
  rw [wellStateOf_of_no_source (by rw [sourceOut_srcOk, hlast])]
  exact wellEnter_failed_fuseCmd_none (by rwa [sourceFails_well, sourceOut_draws])

/-! ### GENROOT behind the last source -/

/-- Provision with source 0 alone healthy, at the moment in which its repetition count test fails; nothing is in the output buffer. -/
def lastSourceFailing : State where
  mode := { mode := .provision, pllLocked := true }
  well := { state := .degraded, srcOk := 1, sources := [(0, { run := 41, pos := 41, hits := 41, fail := 1 })] }

/-- `lastSourceFailing` as GENROOT leaves it: the command is in progress and waits for its secrets (R408). -/
def genrootWaiting : State :=
  askDraw (fzBegin (tookWrite lastSourceFailing .host fzCmd 4) 2 0x1FF false []) 2 .genroot 64

theorem exec_genroot_lastSourceFailing : exec (.genroot .host) lastSourceFailing = .next genrootWaiting := by
  show execGenroot .host lastSourceFailing = _
  rw [execGenroot, portCmd_of_mayTake (by decide)]
  rfl

/-- Refutes O43: its first clause says that HEALTH_TEST_FAIL leaves the fuse controller as it was. In `genrootWaiting`, which GENROOT leaves
in Provision, the last healthy source fails its test: the Well becomes FAILED, and the command that waits for its draw ends with
ENTROPY_FAIL (R283). -/
theorem not_wellRuns : ¬ Obligations.WellRuns := by
  unfold Obligations.WellRuns
  rintro ⟨⟨htest, _⟩, _⟩
  obtain ⟨t, hexec, _, _, _, _, _, _, _, _, hfuse, _⟩ :=
    htest 0 .repetition genrootWaiting (by decide) rfl (.inl ⟨rfl, by decide, by decide⟩)
  obtain ⟨u, hends, hnone⟩ := exec_healthTestFail_ends_genroot (s := genrootWaiting) (n := 0) (by decide) rfl (by decide) (by decide)
    (by decide) (by decide) ⟨_, List.mem_singleton_self _, rfl⟩
  obtain rfl : t = u := by simpa using hexec.symm.trans hends
  rw [hfuse] at hnone
  cases hnone

end Sys2Proof.Machine
end
